-- ==== Sys2Proof/Word.lean ====
section
/-! DEFINITION. The words of the Plynbin controller: the bit widths the manual gives its quantities, and sparse
tables keyed by a number (registers, DRAM bytes, table entries). -/

namespace Sys2Proof

/-- One byte; also one symbol of the stored-line code (R134). -/
abbrev Byte := BitVec 8
/-- The data of one 64 B line (Table 0.3); byte i is bits [8i+7:8i]. -/
abbrev LineData := BitVec 512
/-- One stored line with its 16 check symbols (Table 6.1); symbol j is bits [8j+7:8j]. -/
abbrev Codeword := BitVec 640
/-- A head, or the port that carries it (R32). -/
abbrev Head := BitVec 5
/-- An entry of the window table (R63). -/
abbrev WinId := BitVec 8
/-- A key range K0..K15 (R153). -/
abbrev KeyRange := BitVec 4
/-- HPA[51:6], the line number of a host physical address. -/
abbrev HpaLine := BitVec 46
/-- DPA[45:6], the line number of a device physical address. -/
abbrev DpaLine := BitVec 40
/-- A DIMM slot S00..S47. -/
abbrev SlotId := Fin 48
/-- A DDR5 channel MC00..MC23. -/
abbrev Chan := Fin 24

/-- A sparse table: the listed keys in strictly rising order; a key that is not listed holds the table's default. -/
abbrev Tbl (α : Type) := List (Nat × α)

end Sys2Proof
end

