-- ==== Sys2Proof/Syntax.lean ====
section
/-! DEFINITION. The commands of the block: one constructor for each row of spec/opcode_table.json, in the table's
order, and the types of their operands. An operand is what the sender of the command supplies: the fields of the
message, or what the environment decides (a sensor's reading, the error pattern of a DRAM read, which requests meet
DRAM timing in a slot). -/

namespace Sys2Proof

/-- MetaValue of a CXL.mem request: Invalid, Any, Shared (Table 4.3). -/
inductive Meta where
  | i | a | s
deriving DecidableEq, Repr, Inhabited

/-- What every CXL.mem request carries: its head, its HPA line, its tag, the other ports whose request for the
same line reaches the home slice in the same CORE cycle (R86), and, on a Secure CXL.mem IDE stream, whether the MAC of
its epoch is still to come (R54); a request whose MAC has come brings its epoch's earlier requests with it. -/
structure ReqIn where
  head : Head
  hpa : HpaLine
  tag : BitVec 16
  rivals : BitVec 32 := 0
  macOpen : Bool := false
deriving DecidableEq, Repr, Inhabited

/-- The answer of a snooped head (R98). -/
inductive BiRsp where
  | i | s | e
deriving DecidableEq, Repr

/-- A register access by a head or by management firmware (R30). -/
inductive Writer where
  | head (h : Head)
  | firmware
deriving DecidableEq, Repr

/-- What host software programs into an HDM decoder before it commits it (R42, R75): base and size in 256 MiB
units, DPA skip in 256 MiB units, ways, granularity as a power of two, the Back-Invalidate and Lock On Commit bits. -/
structure DecoderImage where
  base : BitVec 24
  size : BitVec 24
  skip : BitVec 18
  ways : Nat
  granLog : Nat
  bi : Bool
  lock : Bool
deriving DecidableEq, Repr, Inhabited

/-- What a host supports and reaches when its link trains (R34, R37): lanes, rate code, flit mode, latency-optimized
flits, CXL negotiated. -/
structure LinkTrain where
  width : Nat
  rate : BitVec 3
  hostFlit : Bool
  hostLo : Bool
  cxl : Bool
deriving DecidableEq, Repr, Inhabited

/-- The features of Table 2.1, a row of several features one constructor each. -/
inductive Feature where
  | type3 | cxlIo | cxlMem | cxlCache | hdmH | hdmD | hdmDb | multiHeaded | multiLogical | dynamicCapacity | sharable
  | persistent | globalPersistentFlush | fmApi | portBasedRouting | gfam | fabricAttached | hbrSwitches | cxlIde | ideKm
  | qosTelemetry | cdatDoe | poison | viral | memoryCommands | eventRecords | tsp | flit256 | flit256Lo | flit68
  | laneReversal | polarityInversion | retimers | commonClock | sris | srns | aspmL1 | l0p | l1Substates | l0s
  | laneMargining | eqBypass | aer | cxlRas | msix | sriov | ats | pasid
deriving DecidableEq, Repr

/-- What a configuration request addresses (R31, R39, R42): an offset of the port's DVSEC; whether a feature is
advertised; the correctable-error status of AER and the CXL RAS capability; or the HDM Decoder Capability: its decoder
count, and what it reports of one decoder; or the L1 Exit Latency of the Link Capabilities (R395). -/
inductive CfgTarget where
  | dvsec (off : BitVec 12)
  | feature (f : Feature)
  | correctable
  | hdmCount
  | hdm (n : BitVec 5)
  | l1Exit
deriving DecidableEq, Repr

/-- The four IDE streams of a port (R53). -/
inductive IdeStream where
  | ioLink | ioSel0 | ioSel1 | mem
deriving DecidableEq, Repr

/-- An IDE_KM request (R53): a key for a direction (transmit or receive) and key set of a stream, the switch of a
direction to a key set, and the stop of a direction. -/
inductive IdeKmReq where
  | keyProg (tx set : Bool) (key : BitVec 256)
  | setGo (tx set : Bool)
  | setStop (tx : Bool)
deriving DecidableEq, Repr

/-- An IDE_KM message (R53): a request for a stream. -/
structure IdeKm where
  stream : IdeStream
  req : IdeKmReq
deriving DecidableEq, Repr

/-- The errors of a link in 10 ms (R36, R59): link-layer replays and FEC corrections. -/
structure LinkErrs where
  replays : Nat
  fecs : Nat
deriving DecidableEq, Repr

/-- The boundaries at which ports are recomputed come every microsecond and carry nothing (R58). -/
inductive Boundary where
  | microsecond
deriving DecidableEq, Repr

/-- A receive lane of the pair link in trouble (R250): it has lost lock, or so many symbol errors were counted on it. -/
structure LaneLoss where
  lane : BitVec 4
  errors : Option (BitVec 32)
deriving DecidableEq, Repr

/-- A Dynamic Capacity extent: DPA start and length in 2 MiB units (R49). -/
structure Extent where
  start : Nat
  len : Nat
deriving DecidableEq, Repr, Inhabited

/-- The type of a DIMM (Table 5.1). -/
inductive DimmType where
  | rdimm | mrdimm | udimm | sodimm
deriving DecidableEq, Repr, Inhabited

/-- What a DIMM's SPD says (R112, R113): type, device density in Gb, ranks per DIMM, device width, devices per subchannel rank, 3DS
stacking, rated rate in 100 MT/s. -/
structure Spd where
  type : DimmType
  gbit : Nat
  ranks : Nat
  width : Nat
  devices : Nat
  stacked : Bool
  rate : Nat
deriving DecidableEq, Repr, Inhabited

/-- What MR4 of a rank requests (R128). -/
inductive Mr4 where
  | x1 | x2 | over
deriving DecidableEq, Repr

/-- What the decode of a far sub-block met (R202, R416). -/
inductive DecodeFault where
  | none | malformed | uncorrectable | tagMismatch
deriving DecidableEq, Repr

/-- A frame as it leaves FEC decode (R231, R239): lost in an uncorrectable codeword, or its 256 bytes. -/
structure FrameIn where
  fecOk : Bool
  bytes : List Byte
deriving DecidableEq, Repr, Inhabited

/-- A sideband message after its type byte: flags, argument and CRC-16 (R271). -/
structure SidebandMsg where
  flags : Byte
  arg : BitVec 32
  crc : BitVec 16
deriving DecidableEq, Repr, Inhabited

/-- The carrier of a command packet (Table 13.1): for a secured session, its number. -/
inductive Transport where
  | mailbox | smbus | vdm
  | session (id : Nat)
deriving DecidableEq, Repr

/-- A command packet (Table 13.2) after its opcode: the transport, the head of a mailbox or VDM, the MCTP endpoint,
the header fields, the mailbox Payload Length, and the payload. -/
structure Pkt where
  tr : Transport
  head : Head
  ep : Byte
  tag : BitVec 16
  ver : Byte
  flags : Byte
  plen : BitVec 32
  plenC : BitVec 32
  mailboxLen : BitVec 32
  payload : List Byte
deriving DecidableEq, Repr

/-- What carries an SPDM session (R354): the DOE of a head, or MCTP of an endpoint on SMBus or I3C, or of a head's link (Table 13.1). -/
inductive SpdmVia where
  | doe (head : Head)
  | smbus (ep : Byte)
  | vdm (head : Head)
deriving DecidableEq, Repr

/-- What a message of the pair link's SPDM exchange makes of it (R356): it goes on, or completes, with mutual authentication or without. -/
inductive PairHs where
  | more
  | done (mutualAuth : Bool)
deriving DecidableEq, Repr

/-- An SPDM request (R354): what it asks, and for a key exchange its carrier, whether the handshake uses mutual authentication, and whether
the requester's chain roots in the owner key. -/
inductive SpdmReq where
  | getCertificate
  | challenge (nonce : BitVec 256)
  | getMeasurements (index : Nat)
  | keyExchange (via : SpdmVia) (mutAuth ownerRooted : Bool)
  | finish (session : Nat)
  | keyUpdate (session : Nat)
  | heartbeat (session : Nat)
  | endSession (session : Nat)
  | other (code : Byte)
deriving DecidableEq, Repr

/-- What management firmware decides on its own (Table 14.7). -/
inductive FwDecision where
  | thresholds (promoteAt demoteBelow amberBelow : BitVec 6)
  | efforts (g a : BitVec 2)
  | pLevel (level : BitVec 2)
  | thermalStage (k : BitVec 2) (level : BitVec 2) (cap : BitVec 10)
  | sleep (state : BitVec 2)
deriving DecidableEq, Repr

/-- The commands of the block: one constructor per row of spec/opcode_table.json. -/
inductive Instr where
  /-- REGISTER_WRITE (R6): A head writes a BAR2 register that has no behaviour of its own; the width, alignment, grant and claim checks apply. -/
  | registerWrite (h : Head) (off : BitVec 26) (size : Nat) (value : BitVec 64)
  /-- ILLEGAL_CSR_READ (R6): A head reads BAR2 misaligned, at the wrong width or at an undefined offset; the read returns 0 and a severity-C fault is recorded. -/
  | illegalCsrRead (h : Head) (off : BitVec 26) (size : Nat)
  /-- COMPLEMENT_PATROL (R378): Every 1 ms the controller checks every REG/REG_C pair. -/
  | complementPatrol
  /-- MEMRD (R93): A CXL.mem MemRd arrives at a port and is resolved, admitted, ordered at its home slice and served or snooped according to its MetaValue. -/
  | memRd (q : ReqIn) (m : Meta)
  /-- MEMRDDATA (R93): A CXL.mem MemRdData arrives and is served per Table 4.3. -/
  | memRdData (q : ReqIn)
  /-- MEMINV (R93): A CXL.mem MemInv arrives and is served per Table 4.3. -/
  | memInv (q : ReqIn) (m : Meta)
  /-- MEMINVNT (R93): A CXL.mem MemInvNT arrives and invalidates other copies, leaving the line in I. -/
  | memInvNT (q : ReqIn)
  /-- MEMCLNEVCT (R93): A clean eviction arrives in the writeback lane and updates the directory entry. -/
  | memClnEvct (q : ReqIn)
  /-- MEMWR (R93): A full-line CXL.mem write arrives and is accepted, mirrored, coded and queued, or dropped. -/
  | memWr (q : ReqIn) (m : Meta) (data : LineData) (poison : Bool)
  /-- MEMWRPTL (R142): A byte-enabled CXL.mem write arrives and is read-modify-written behind its home slice. -/
  | memWrPtl (q : ReqIn) (m : Meta) (data : LineData) (mask : BitVec 64) (poison : Bool)
  /-- HELD_REQUEST_RELEASE (R312): A held non-conforming request is granted a common transaction slot and leaves the receive buffer. -/
  | heldRequestRelease (slice : BitVec 4)
  /-- WAIT_LIST_TAKE_UP (R85): When a line's open transaction closes, the next waiting request for the line is taken up. -/
  | waitListTakeUp (line : DpaLine)
  /-- BIRSP (R98): A BIRsp from a head arrives and is applied on arrival. -/
  | birsp (h : Head) (hpa : HpaLine) (r : BiRsp)
  /-- BICONFLICT (R99): A BIConflict arrives, and BIConflictAck is sent after earlier completions for that head and line. -/
  | biConflict (h : Head) (hpa : HpaLine)
  /-- SNOOP_TIMEOUT (R100): A snooped head fails to close within HOME_BI_TMO; a severity-U fault is recorded and the port is driven to Detect as a link-down. -/
  | snoopTimeout (h : Head) (line : DpaLine)
  /-- RETRY_QUEUE_RETRY (R102): An entry of a pinned set unpins and the oldest waiting request for that set retries. -/
  | retryQueueRetry (slice : BitVec 4) (set : BitVec 12)
  /-- VICTIM_WRITE_DONE (R91): The store write of an evicted directory entry completes and frees its victim-buffer entry. -/
  | victimWriteDone (slice : BitVec 4) (line : DpaLine)
  /-- VIRAL (R61): A head sends viral; its later writes are dropped and its reads return poison HALT. -/
  | viral (h : Head)
  /-- CONFIGURATION_REQUEST (R39): A configuration request arrives; it gets CRS before boot completes and is served after. -/
  | configurationRequest (p : Head) (write : Bool) (at_ : CfgTarget) (value : BitVec 32)
  /-- MEM_ENABLE (R62): Host software sets Mem_Enable, and held CXL.mem requests proceed once the head is restored. -/
  | memEnable (p : Head) (on : Bool)
  /-- HEAD_RESTORED (R62): Firmware finishes restoring a head's CLASSMAP and IDE_REQUIRED and marks it restored, releasing held requests. -/
  | headRestored (p : Head)
  /-- DECODER_COMMIT (R43): Host software commits an HDM decoder; it commits and ALIAS_N is set, or it fails with Error Not Committed. -/
  | decoderCommit (p : Head) (n : BitVec 5) (img : DecoderImage)
  /-- DECODER_UNCOMMIT (R92): A decoder is uncommitted; if HOME_HELD stays nonzero, the head-loss mode is applied for that window. -/
  | decoderUncommit (p : Head) (n : BitVec 5)
  /-- HEAD_RESET (R60): HEAD_PERST_N asserts or a port's link goes down, and Table 2.5 runs for that head. -/
  | headReset (p : Head) (perst : Bool)
  /-- RECLAIM_SWEEP_STEP (R108): At HOME_SWEEP.RATE, the background sweep corrects the next directory entries of an affected window. -/
  | reclaimSweepStep
  /-- HEAD_PERST_DEASSERT (R60): HEAD_PERST_N deasserts and the port starts training at its cap. -/
  | headPerstDeassert (p : Head)
  /-- LINK_UP (R34): A host link completes training at a rate and flit mode, and its status is reported. -/
  | linkUp (p : Head) (t : LinkTrain)
  /-- EQUALIZATION_FAILURE (R35): Equalization fails at a rate; after a second failure the advertised rate drops and the port retrains. -/
  | equalizationFailure (p : Head)
  /-- REPLAY_RATE_RETRAIN (R36): More than 256 link-layer replays occur in 10 ms, and the port retrains one rate lower. -/
  | replayRateRetrain (p : Head) (replays : LinkErrs)
  /-- MAC_CHECK_FAILURE (R56): A CXL.mem IDE MAC fails; the epoch is discarded, the stream becomes Insecure and CXL.mem stops. -/
  | macCheckFailure (p : Head)
  /-- IDE_KM (R53): An IDE_KM message inside a secured SPDM session programs or refreshes IDE keys. -/
  | ideKm (p : Head) (session : Nat) (go : IdeKm)
  /-- DEVLOAD_INTERVAL (R58): At each 1 µs boundary each port's DevLoad level and floors are recomputed. -/
  | devloadInterval (loads : Boundary)
  /-- CAPABILITY_RISE (R321): RISE_MS passes with no fall computed, and the pending capability rise applies. -/
  | capabilityRise
  /-- COMPAT_WINDOW (R316): A COMPAT port's byte-budget window ends and a new one begins, releasing held requests. -/
  | compatWindow (p : Head)
  /-- ADD_CAPACITY (R50): The controller offers Dynamic Capacity extents to a head with an Add Capacity event and holds them. -/
  | addCapacity (h : Head) (w : WinId) (exts : List Extent)
  /-- ADD_DYNAMIC_CAPACITY_RESPONSE (R50): A head names the extents it accepts; the others return to the pool, or an invalid list is refused. -/
  | addDynamicCapacityResponse (h : Head) (exts : List Extent)
  /-- OFFER_TIMEOUT (R50): 60 s pass without a response naming an offered extent, and the extent returns to the pool. -/
  | offerTimeout (h : Head) (ext : Extent)
  /-- RELEASE_DYNAMIC_CAPACITY (R51): A head releases block-aligned capacity; a count of 0 is refused with Invalid Input. -/
  | releaseDynamicCapacity (h : Head) (exts : List Extent)
  /-- WIN_CREATE (R66): Command to create a window entry after the legality checks, with holds and fills under Table 3.4. -/
  | winCreate (c : Pkt)
  /-- WIN_MODIFY (R69): Command to change HEADS, HEADLOSS or mirror fields of a window. -/
  | winModify (c : Pkt)
  /-- WIN_REMOVE (R73): Command to remove a window, with release events for tiered windows. -/
  | winRemove (c : Pkt)
  /-- WINDOW_TABLE_APPLY (R71): Once the home slices report in-flight requests complete, the entry is written, verified and released. -/
  | windowTableApply (w : WinId)
  /-- ZERO_FILL_DONE (R72): The zero fill of a new window's data or directory segment completes and the change proceeds. -/
  | zeroFillDone (w : WinId)
  /-- MAP_LOCK_WRITE (R83): A write of WIN_CTL.MAP_LOCK locks the geometry and hash masks, or fails with MAP_ERR. -/
  | mapLockWrite (by_ : Writer)
  /-- POPULATION_SETTLE (R114): With SPD reads done, the population is settled as 2DPC, 1DPC or none. -/
  | populationSettle (spd : List (Option Spd))
  /-- TRAINING_COMPLETE (R129): Boot training of the channels completes and TRAINED is set. -/
  | trainingComplete
  /-- COMMAND_SLOT_PICK (R117): In a command slot, a subchannel scheduler issues a refresh, urgent, metadata, read or write command. -/
  | commandSlotPick (ch : Chan) (sub : Bool) (legal : List Nat)
  /-- URGENCY_RISE (R122): A queued request's age crosses 50, 75 or 100 percent of its target and its urgency rises. -/
  | urgencyRise (ch : Chan) (sub : Bool) (id : Nat) (age : Nat)
  /-- AGE_CAP_EXPIRY (R123): A request has been queued for AGE_CAP µs and takes urgency 3. -/
  | ageCapExpiry (ch : Chan) (sub : Bool) (id : Nat)
  /-- REFRESH_INTERVAL (R127): A rank's refresh interval elapses and its refresh falls due, or is postponed. -/
  | refreshInterval (ch : Chan) (rank : BitVec 3)
  /-- MR4_READ (R128): Every MR4_MS, MR4 of each rank is read and its refresh rate is set. -/
  | mr4Read (ch : Chan) (rank : BitVec 3) (code : Mr4)
  /-- ZQ_CALIBRATION (R130): The ZQ calibration period expires and the rank is calibrated. -/
  | zqCalibration (ch : Chan) (rank : BitVec 3)
  /-- DQS_OSCILLATOR_TRACKING (R130): The oscillator tracking period expires and the rank is tracked. -/
  | dqsOscillatorTracking (ch : Chan) (rank : BitVec 3)
  /-- TEMPERATURE_DRIFT_RETRAIN (R131): A rank's DIMM temperature drifts by DRIFT_C and a rank retrain starts. -/
  | temperatureDriftRetrain (ch : Chan) (rank : BitVec 3) (celsius : Int)
  /-- RETRAIN_NOW (R131): A write of MCHn_TRN.RETRAIN_NOW retrains every rank of the channel in turn. -/
  | retrainNow (by_ : Writer) (ch : Chan)
  /-- RANK_RETRAIN_DONE (R131): A rank retrain completes and the rank's requests proceed. -/
  | rankRetrainDone (ch : Chan) (rank : BitVec 3)
  /-- DRAM_READ_DATA (R135): Read data returns from DRAM and passes ECC decode, decryption, verification and line decoding. -/
  | dramReadData (ch : Chan) (sub : Bool) (id : Nat) (err : Codeword)
  /-- INITIALIZATION_COMPLETE (R143): The zero-codeword fill of all fitted lines at COLD boot completes. -/
  | initializationComplete
  /-- SCRUB_STEP (R144): At the scrub rate the scrubber issues the read of the next MPA line. -/
  | scrubStep
  /-- FRAME_RETIRE (R150): Command to redirect a frame to a spare and copy its lines. -/
  | frameRetire (c : Pkt)
  /-- RETIRE_COPY_DONE (R150): All spare writes issue, the redirect becomes valid and held requests are released. -/
  | retireCopyDone
  /-- BANK_RETIRE (R151): Command to mark a bank or device for erasure decoding. -/
  | bankRetire (c : Pkt)
  /-- PPR_SOFT (R152): Command to soft-repair one row; the bank is blocked. -/
  | pprSoft (c : Pkt)
  /-- PPR_SOFT_READ_DONE (R152): The row's lines are held in the repair buffer and the soft repair is issued. -/
  | pprSoftReadDone (ch : Chan)
  /-- PPR_SOFT_WRITEBACK (R152): After the repair time the lines are written back and the bank is unblocked. -/
  | pprSoftWriteback (ch : Chan)
  /-- PPR_HARD (R152): Command to add a row to the pending hard-repair list. -/
  | pprHard (c : Pkt)
  /-- KR_CREATE (R155): Command to define a key range without a key. -/
  | krCreate (c : Pkt)
  /-- KR_REMOVE (R155): Command to remove a key range, zeroizing its keys and freeing its metadata. -/
  | krRemove (c : Pkt)
  /-- KEY_LOAD (R159): Secured command to load a CURRENT or NEXT key, or restore a lost key against its KCV. -/
  | keyLoad (c : Pkt)
  /-- COUNTER_TREE_INIT_DONE (R159): The counter tree is written in initial form and the range becomes ACTIVE. -/
  | counterTreeInitDone (n : KeyRange)
  /-- KEY_ROTATE (R181): Command to start re-encrypting a range to its NEXT key. -/
  | keyRotate (c : Pkt)
  /-- ROTATION_STEP (R181): At ROT_RATE, the page at ROTCUR is re-encrypted and its nodes rewritten. -/
  | rotationStep (n : KeyRange)
  /-- SEC_HALT (R189): Command to enter the security halt with cause COMMAND. -/
  | secHalt (c : Pkt)
  /-- MINOR_OVERFLOW_REENCRYPT (R177): With the group's lines read, the major advances and all 32 lines are re-encrypted and released. -/
  | minorOverflowReencrypt
  /-- TREE_REBUILD_STEP (R186): At ROT_RATE, the quarantined subtree's nodes are rewritten with fresh counters. -/
  | treeRebuildStep (n : KeyRange)
  /-- KEY_SLOT_LOST (R187): A key slot has an uncorrectable SRAM error; the range goes to NOKEY with KLOST and a severity-F record is raised. -/
  | keySlotLost (n : KeyRange) (next : Bool)
  /-- SUB_BLOCK_DECODE_DONE (R22): A page-codec sub-block decode finishes, the hot-line cache fills, and waiting reads are served. -/
  | subBlockDecodeDone (x : BitVec 36) (f : DecodeFault)
  /-- PAGE_REENCODE (R209): A dirty victim's page is re-encoded as a page transaction and its cell is stored. -/
  | pageReencode (bank : BitVec 2)
  /-- PROMOTE (R211): The migrator moves a FAR page to NEAR. -/
  | promote (page : BitVec 34)
  /-- DEMOTE (R211): The migrator encodes a NEAR page into a cell, or cancels on C8. -/
  | demote (page : BitVec 34)
  /-- COMPACT (R211): The migrator moves a cell unchanged into another CELLS frame. -/
  | compact (page : BitVec 34)
  /-- SCANNER_VISIT (R212): The scanner visits a page-map entry, possibly demotes it, and halves ACC. -/
  | scannerVisit (page : BitVec 34)
  /-- RESERVE_RETURN (R221): At GREEN the migrator moves a page held in a reserve frame back into the tier pool. -/
  | reserveReturn (page : BitVec 34)
  /-- DISCARD_SWEEPER_DROP (R222): The colander drops an eligible DISCARDABLE page. -/
  | discardSweeperDrop (page : BitVec 34)
  /-- ORPHAN_SWEEP (R224): An orphan sweep rebuilds the frame table and frees unreferenced blocks. -/
  | orphanSweep
  /-- POOL_COUNTER_REBUILD (R226): After a WARM reset the pool counters are rebuilt from the frame table. -/
  | poolCounterRebuild
  /-- CAP_LAYOUT (R214): Command to set the MPA region sizes. -/
  | capLayout (c : Pkt)
  /-- CAP_THRESHOLDS (R220): Command to set the free-space watermarks. -/
  | capThresholds (c : Pkt)
  /-- CAP_WINDOW_POLICY (R213): Command to set a tiered window's policy mode and DROP_AT. -/
  | capWindowPolicy (c : Pkt)
  /-- CAP_TIER_LIMITS (R213): Command to set the bounds on firmware's tiering settings. -/
  | capTierLimits (c : Pkt)
  /-- CAP_DC_REGION (R48): Command to define, move or remove a Dynamic Capacity region. -/
  | capDcRegion (c : Pkt)
  /-- FRAME_SLOT_SEND (R236): At each pair frame slot the transmitter sends a replay, HALT, DATA or NULL frame. -/
  | frameSlotSend
  /-- PAIR_FRAME_RECEIVE (R239): A pair frame leaves FEC decode and is verified, sequenced and accepted, or counted DUP or GAP. -/
  | pairFrameReceive (f : FrameIn)
  /-- REPLAY_TIMER_EXPIRY (R243): The replay timer expires and all outstanding frames are resent, or the link goes down at REPLAY_MAX. -/
  | replayTimerExpiry
  /-- KEY_UPDATE (R244): A direction's count reaches 2^31 and firmware runs SPDM KEY_UPDATE. -/
  | keyUpdate (rx : Bool)
  /-- LOCK_LOSS (R247): Pair lock is lost for LOCK_US and the link goes down with cause LOCK. -/
  | lockLoss
  /-- CREDIT_TIMEOUT (R247): A VC waits without credit return for CREDIT_US and the link goes down. -/
  | creditTimeout (vc : BitVec 2)
  /-- PAIR_PRESENT_HIGH (R247): PAIR_PRESENT_N is high for 1 µs and the link goes down with cause ABSENT. -/
  | pairPresentHigh
  /-- RETRY_TIMER_EXPIRY (R248): The DOWN retry timer expires and the link enters TRAIN if its conditions hold. -/
  | retryTimerExpiry
  /-- PAIR_TRAINING_DONE (R228): Both pair directions train and the link enters SETUP. -/
  | pairTrainingDone (tx rx : BitVec 16) (slow : Bool)
  /-- TRAIN_TIMEOUT (R245): TRAIN_MS passes without training, and the link goes down with cause TRAIN. -/
  | trainTimeout
  /-- SETUP_TIMEOUT (R245): SETUP_S passes without a session, and the link goes down with cause SETUP. -/
  | setupTimeout
  /-- SPDM (R235): A pair-link SPDM fragment message arrives on VC2. -/
  | spdm (hs : PairHs) (peerKey : BitVec 256)
  /-- PAIR_LINK_SET (R249): Command to change a pair direction's width or rate by pause and retrain. -/
  | pairLinkSet (c : Pkt)
  /-- PAUSE_REQ (R249): A PAUSE_REQ message arrives; first-sends stop and PAUSE_ACK is sent. -/
  | pauseReq
  /-- PAUSE_ACK (R249): A PAUSE_ACK message arrives; the link enters PAUSED and retrains. -/
  | pauseAck
  /-- PAIR_RETRAIN_DONE (R249): The retrain completes; outstanding frames replay and the link returns to UP. -/
  | pairRetrainDone (tx rx : BitVec 16)
  /-- PAUSE_TIMEOUT (R249): The retrain exceeds PAUSE_MS and the link goes down with cause PAUSE. -/
  | pauseTimeout
  /-- LANE_FAILURE (R250): A receive lane loses lock or exceeds SER_THR, and LANE_DROP is sent. -/
  | laneFailure (lane : LaneLoss)
  /-- LANE_DROP (R250): A LANE_DROP message arrives and a restripe slot is scheduled. -/
  | laneDrop
  /-- RESTRIPE_SLOT (R250): A restripe slot is received and the receiver switches striping. -/
  | restripeSlot
  /-- SLEEP_REQ (R251): A SLEEP_REQ message arrives; SLEEP_ACK 0 or 1 is sent. -/
  | sleepReq
  /-- SLEEP_ACK (R251): A SLEEP_ACK message arrives; both controllers enter SLEEP, or the link stays UP. -/
  | sleepAck
  /-- HALT (R253): A pair HALT message arrives and the link goes down with cause HALT. -/
  | pairHalt
  /-- WAKE_PATTERN_DETECT (R252): The always-on detector sees the partner's wake pattern for 200 ns. -/
  | wakePatternDetect
  /-- WAKE_PATTERN_END (R252): Partner training is detected or WAKE_MS elapses; the sender enters TRAIN. -/
  | wakePatternEnd
  /-- PAIR_CTL_EN (R245): A write of PAIR_CTL.EN; 0 while up takes the link down with cause COMMAND. -/
  | pairCtlEn (by_ : Writer) (en : Bool)
  /-- MIR_PAIR (R254): Command to set the pairing record with ROLE and partner identity. -/
  | mirPair (c : Pkt)
  /-- MIR_TARGET (R255): Command to make a window the target of a partner window. -/
  | mirTarget (c : Pkt)
  /-- MIR_UNTARGET (R255): Command to return a TARGET window to OFF. -/
  | mirUntarget (c : Pkt)
  /-- MIR_RESUME (R265): Command to resume a SOLO window now, or at the next UP. -/
  | mirResume (c : Pkt)
  /-- MIR_PROMOTE (R272): Command to promote a target window, checked against the link and sideband. -/
  | mirPromote (c : Pkt)
  /-- MIR_BITMAP_AREA (R264): Command to size the dirty-bitmap area. -/
  | mirBitmapArea (c : Pkt)
  /-- MIR_SHADOW_READ (R257): Command to return a record from the partner shadow. -/
  | mirShadowRead (c : Pkt)
  /-- MIRROR_QUEUE_ENTRY (R261): A write waiting for mirror-queue room gets its message queued and is accepted. -/
  | mirrorQueueEntry
  /-- MWR (R259): A mirrored full-line write message arrives at the target and is handed to its home slice. -/
  | mwr
  /-- MWRP (R259): A mirrored partial-write message arrives and is handed to the home slice. -/
  | mwrp
  /-- MPOI (R259): A mirrored poison message arrives and a marker is stored. -/
  | mpoi
  /-- MIRROR_APPLY (R259): The target's home slice accepts a mirror message; the applied count advances and MACK or MFAIL is sent. -/
  | mirrorApply
  /-- MACK (R260): A MACK arrives; SYNC completions and fences are released. -/
  | mack
  /-- MFAIL (R259): An MFAIL arrives; the window enters SOLO with cause TARGET. -/
  | mfail
  /-- SREC (R257): A state record arrives, is applied by GEN, and is answered with SACK. -/
  | srec
  /-- SACK (R257): A state-record acknowledgement arrives. -/
  | sack
  /-- MSTATE (R257): A mirror-state record arrives and updates the shadow. -/
  | mstate
  /-- GRANULE_COPY (R266): At COPY_RATE a dirty granule is read and queued as MWR with COPY set. -/
  | granuleCopy (w : WinId)
  /-- PAIR_MIR_FENCE_READ (R262): A read of PAIR_MIRn_FENCE is held until ACKED, NOT_INSYNC or timeout. -/
  | pairMirFenceRead (h : Head) (w : WinId)
  /-- FENCE_TIMEOUT (R262): FENCE_US elapses and a held fence read returns TIMEOUT. -/
  | fenceTimeout (w : WinId)
  /-- RTRD (R268): A read-through request arrives at the partner and is held until its message number is applied. -/
  | rtrd
  /-- RTDATA (R267): Read-through data arrives; it is returned and written back locally, or gives poison. -/
  | rtdata
  /-- SLOT_REBUILD_STEP (R270): At COPY_RATE one granule of a returned slot is rebuilt from the partner or marked MIRROR_LOST. -/
  | slotRebuildStep
  /-- BEAT (R271): A sideband BEAT arrives and keeps the sideband alive. -/
  | beat (m : SidebandMsg)
  /-- SIDEBAND_HALT (R274): A sideband HALT arrives; the link goes down with cause HALT and targets become promotable. -/
  | sidebandHalt (m : SidebandMsg)
  /-- CLAIM (R272): A sideband CLAIM arrives; the window yields with YIELD or is refused with REFUSE. -/
  | sbClaim (m : SidebandMsg)
  /-- YIELD (R272): A sideband YIELD arrives and the pending promotion completes. -/
  | sbYield (m : SidebandMsg)
  /-- REFUSE (R272): A sideband REFUSE arrives and the promotion is refused with PEER_ALIVE. -/
  | sbRefuse (m : SidebandMsg)
  /-- CLAIM_TIMEOUT (R272): No answer to CLAIM within 5 ms; the promotion is refused with PEER_ALIVE. -/
  | claimTimeout
  /-- SIDEBAND_DEAD (R271): No valid sideband message arrives within SB_DEAD_MS, and the sideband is no longer alive. -/
  | sidebandDead
  /-- JDB_TAIL_WRITE (R281): A doorbell write of JDB_TAIL submits descriptors, or halts the queue with cause DOORBELL. -/
  | jdbTailWrite (h : Head) (q : BitVec 4) (count : BitVec 32)
  /-- JDB_CQHEAD_WRITE (R281): A write of JDB_CQHEAD consumes completion records, or halts the queue if inconsistent. -/
  | jdbCqheadWrite (h : Head) (q : BitVec 4) (count : BitVec 32)
  /-- QUEUE_ENABLE (R280): JDB_CTL.EN is written from 0 to 1 and the queue is checked and enabled, or CAUSE is set to CONFIG. -/
  | queueEnable (h : Head) (q : BitVec 4) (ctl : BitVec 32)
  /-- QUEUE_DISABLE (R305): JDB_CTL.EN is written 0 and the queue drains. -/
  | queueDisable (h : Head) (q : BitVec 4)
  /-- QUEUE_RESUME (R305): A write of JDB_CTL.RESUME returns a resumable halted queue to ACTIVE. -/
  | queueResume (h : Head) (q : BitVec 4)
  /-- DESCRIPTOR_FETCH (R283): The dispatcher fetches the next descriptor when its conditions hold. -/
  | descriptorFetch (h : Head) (q : BitVec 4)
  /-- DESCRIPTOR_FETCHED (R287): A fetched descriptor is copied into the store and checked, or halts the queue with RING. -/
  | descriptorFetched (h : Head) (q : BitVec 4)
  /-- JOB_DISPATCH (R286): A free slice receives the next job by class weight, with range checks under R297. -/
  | jobDispatch (slice : BitVec 3)
  /-- JOB_END (R301): A job's operations finish or fail with a status. -/
  | jobEnd (slice : BitVec 3) (time10ns : BitVec 32)
  /-- COMPLETION_RECORD_WRITE (R284): After the last destination write (and MACK in SYNC), the completion record is written and CQTAIL advances. -/
  | completionRecordWrite (h : Head) (q : BitVec 4)
  /-- JOB_SLICE_EN (R286): Command to set which slices take jobs. -/
  | jobSliceEn (c : Pkt)
  /-- JOB_QUEUE_CLASS (R279): Command to set a queue's service class. -/
  | jobQueueClass (c : Pkt)
  /-- QOS_CLASSMAP_SET (R307): Command to set a head's alias-to-class map. -/
  | qosClassmapSet (c : Pkt)
  /-- QOS_CLASS_SET (R308): Command to set a class's kind, weight, ways, slots and guarantees. -/
  | qosClassSet (c : Pkt)
  /-- QOS_PORT_SET (R318): Command to set a port's mode, window, budget and latency target. -/
  | qosPortSet (c : Pkt)
  /-- BACKGROUND_COMMAND_COMPLETE (R334): A background command finishes and its reply is posted. -/
  | backgroundCommandComplete (i : Nat)
  /-- SLOT_ENABLE (R409): Command to power up a slot with the ramp of Table 17.3. -/
  | slotEnable (c : Pkt)
  /-- SLOT_DISABLE (R414): Command to take a slot out of service and switch it off. -/
  | slotDisable (c : Pkt)
  /-- SLOT_LIMITS (R331): Command to set a slot's current, breaker, ramp and FET model limits. -/
  | slotLimits (c : Pkt)
  /-- RANK_RETRAIN (R131): Command to retrain one rank. -/
  | rankRetrain (c : Pkt)
  /-- THM_THRESH_SET (R400): Command to set the thermal thresholds, hysteresis and grace time. -/
  | thmThreshSet (c : Pkt)
  /-- PWR_LIMITS (R388): Command to set the P-level bounds and the deepest sleep. -/
  | pwrLimits (c : Pkt)
  /-- PWR_SLEEP (R392): Command to request a sleep state. -/
  | pwrSleep (c : Pkt)
  /-- FLT_REACT_SET (R369): Command to set a source's reaction. -/
  | fltReactSet (c : Pkt)
  /-- FLT_GLOBAL_SET (R370): Command to set the escalation timer and the FAULT_N threshold. -/
  | fltGlobalSet (c : Pkt)
  /-- FLT_CLEAR (R371): Command to clear a held fault record. -/
  | fltClear (c : Pkt)
  /-- FLT_INJECT_UNLOCK (R382): Secured command to open fault injection for a number of seconds. -/
  | fltInjectUnlock (c : Pkt)
  /-- FLT_INJECT (R383): Command to arm an injection at a checker. -/
  | fltInject (c : Pkt)
  /-- BASIC_EXIT (R377): Command to leave Basic service. -/
  | basicExit (c : Pkt)
  /-- LOG_READ (R359): Command to read event-log records. -/
  | logRead (c : Pkt)
  /-- FW_TRANSFER (R350): Command to write image data into the inactive slot. -/
  | fwTransfer (c : Pkt)
  /-- FW_ACTIVATE (R351): Command to verify and select a firmware slot for a TRY boot. -/
  | fwActivate (c : Pkt)
  /-- FW_INFO (R360): Command to return firmware status. -/
  | fwInfo (c : Pkt)
  /-- DEV_REG_WRITE (R338): Command to write masked register fields. -/
  | devRegWrite (c : Pkt)
  /-- DEV_REG_READ (R456): Command to read consecutive BAR2 words without side effects. -/
  | devRegRead (c : Pkt)
  /-- MGT_CSR_GRANT (R30): Command to set TOP_CSR_WRGRANT and its complement. -/
  | mgtCsrGrant (c : Pkt)
  /-- MGT_CMD_GRANT (R332): Command to set the command grant and its complement. -/
  | mgtCmdGrant (c : Pkt)
  /-- LINK_CONFIG (R339): Command to set bifurcation, SRIS, rate caps and IDE_REQUIRED. -/
  | linkConfig (c : Pkt)
  /-- TCM_CORRECTABLE_ERROR (R342): A correctable TCM error is corrected, written back and counted. -/
  | tcmCorrectableError
  /-- INSTRUCTION_FETCH_ERROR (R342): An uncorrectable fetch traps; the page is repaired from flash, or the processor restarts. -/
  | instructionFetchError (page : BitVec 7) (readOk outside : Bool)
  /-- DATA_TCM_ERROR (R343): An uncorrectable data TCM error records a U fault and restarts management. -/
  | dataTcmError
  /-- WATCHDOG_EXPIRY (R343): The 1 s watchdog expires, recording a U fault and restarting management. -/
  | watchdogExpiry
  /-- MANAGEMENT_RESTART_DONE (R344): The restarted firmware adopts the running registers and sets READY. -/
  | managementRestartDone
  /-- ACTIVATION_RESTART (R351): 10 ms after a successful FW_ACTIVATE, management restarts into the new slot. -/
  | activationRestart
  /-- BOOT_CONFIRM_TIMEOUT (R351): A TRY image does not reach boot complete within 2 s. -/
  | bootConfirmTimeout
  /-- MGMT_RESET_RELEASE (R348): The MGMT reset releases and the boot ROM verifies and loads an image, or enters RECOVERY. -/
  | mgmtResetRelease
  /-- FIRMWARE_ENTRY (R336): Firmware starts and applies the configuration record for a COLD or WARM boot. -/
  | firmwareEntry
  /-- BOOT_COMPLETE (R348): Firmware completes the boot and sets READY and MODE RUN. -/
  | bootComplete
  /-- SPDM_REQUEST (R354): An SPDM request arrives over DOE or MCTP and is answered. -/
  | spdmRequest (r : SpdmReq)
  /-- SPDM_HEARTBEAT_TIMEOUT (R354): A session's heartbeat times out and the session ends. -/
  | spdmHeartbeatTimeout (session : Nat)
  /-- FAULT_RECORD_TAKE_UP (R371): Firmware logs a held record, starts its handling and acknowledges it. -/
  | faultRecordTakeUp (k : BitVec 6)
  /-- FLT_ACK (R371): A write of FLT_RECk_CTL.ACK acknowledges a held record. -/
  | fltAck (by_ : Writer) (k : BitVec 6)
  /-- ESCALATION_TIMER_EXPIRY (R370): An ESC record's timer expires unacknowledged and the escalation applies. -/
  | escalationTimerExpiry (k : BitVec 6)
  /-- BASIC_WRITEOUT_DONE (R375): Dirty hot-line entries are written out and encoding stops. -/
  | basicWriteoutDone
  /-- CHANNEL_PROBE (R378): 5 µs without a completed read triggers a mode-register probe of each rank. -/
  | channelProbe (ch : Chan) (sub : Bool) (failed : BitVec 8)
  /-- CA_PARITY_ERROR (R379): A DDR5 CA parity error is reported; the command is retried, and persistent errors fail the channel. -/
  | caParityError (ch : Chan) (failures : Nat)
  /-- CLOCK_MONITOR_FAILURE (R378): A PLL loses lock or a domain's frequency deviates, and a fault is raised. -/
  | clockMonitorFailure (dom : Fin 20)
  /-- INJECTION_UNLOCK_EXPIRY (R382): The injection unlock time ends and pending injections are cancelled. -/
  | injectionUnlockExpiry
  /-- VF_SEQUENCER_STEP (R389): A clock switch or voltage slew of the V/F sequencer completes toward the target P-level. -/
  | vfSequencerStep
  /-- SLEEP_REQUEST_LAPSE (R392): Entry conditions fail to hold within 1 ms, and the request lapses with SLEEP_BLOCKED. -/
  | sleepRequestLapse
  /-- SLEEP_ENTRY_FLUSH_DONE (R393): Write-backs and crock copies finish; DRAM self-refreshes, the entry commits and domains power down. -/
  | sleepEntryFlushDone
  /-- WAKE_EVENT (R394): A wake source activates, aborting entry or starting exit. -/
  | wakeEvent (src : BitVec 4)
  /-- DOMAIN_POWER_UP_DONE (R384): A switched domain finishes powering up and its isolation releases. -/
  | domainPowerUpDone (dom : Fin 56)
  /-- SLEEP_EXIT_DONE (R396): DRAM leaves self-refresh and home slices and ports resume. -/
  | sleepExitDone
  /-- PWR_TIMER_EXPIRY (R394): The management timer reaches zero and raises a wake. -/
  | pwrTimerExpiry
  /-- SENSOR_SAMPLE (R398): The sensors are sampled, TMAX is formed and conditions are evaluated. -/
  | sensorSample (quarters : List Int)
  /-- GRACE_EXPIRY (R403): GRACE_US elapses with the condition set, and stage 1 is enforced. -/
  | graceExpiry
  /-- THERMAL_STEP_DOWN (R403): STEP_MS elapses with the condition set, and the stage lowers. -/
  | thermalStepDown
  /-- THERMAL_STEP_UP (R403): RELAX_MS elapses with the condition clear, and the stage rises. -/
  | thermalStepUp
  /-- PRESENCE_POLL (R407): Every 100 ms each slot's SPD hub is read for presence. -/
  | presencePoll (present : BitVec 48)
  /-- GATE_RISE_CHECK (R409): At 2 ms the gate must reach 2.0 V, or the slot becomes DAMAGED. -/
  | gateRiseCheck (s : SlotId) (ok : Bool)
  /-- RAMP_VOUT_REACHED (R409): VOUT reaches 10.8 V and full gate-on starts. -/
  | rampVoutReached (s : SlotId)
  /-- FULL_GATE_ON (R409): Full gate-on holds for 100 µs; PWREN rises and the slot is ON. -/
  | fullGateOn (s : SlotId)
  /-- RAMP_TIMEOUT (R410): 2 × RAMP_MS pass without full gate-on, and the slot trips. -/
  | rampTimeout (s : SlotId)
  /-- FAST_TRIP (R410): The comparator sees 3 × ILIM and the slot trips within 1 µs. -/
  | fastTrip (s : SlotId)
  /-- BREAKER_TRIP (R410): The current stays above ILIM for BRK_MS and the slot trips. -/
  | breakerTrip (s : SlotId)
  /-- FET_MODEL_UPDATE (R411): Every 10 µs each slot's FET temperature model is updated. -/
  | fetModelUpdate (s : SlotId) (current : BitVec 12) (vout : BitVec 12) (thermistor : Int)
  /-- FET_SHORT (R413): VOUT stays above 2 V for 1 ms with the gate off, and the slot is DAMAGED. -/
  | fetShort (s : SlotId)
  /-- GATE_FALL_START (R414): 2 ms after a disable, the gate begins its 1 ms fall. -/
  | gateFallStart (s : SlotId)
  /-- SLOT_OFF_COMPLETE (R414): The gate fall ends and the slot is OFF. -/
  | slotOffComplete (s : SlotId)
  /-- SLOT_TRAINING_COMPLETE (R132): A slot enabled in service finishes training, or training stops on mismatch and the slot is powered off. -/
  | slotTrainingComplete (s : SlotId) (spd : Spd)
  /-- SLOT_INITIALIZATION_DONE (R417): A returning slot's contents are initialized; it returns to service and its rebuild starts. -/
  | slotInitializationDone (s : SlotId)
  /-- PMU_CLAIM_WRITE (R418): A write of a monitor unit's CLAIM takes or releases the claim. -/
  | pmuClaimWrite (by_ : Writer) (u : Fin 44) (holder : BitVec 6)
  /-- RING_CLAIM_WRITE (R418): A write of a ring's CLAIM takes or releases the claim. -/
  | ringClaimWrite (by_ : Writer) (n : BitVec 3) (holder : BitVec 6)
  /-- COUNTER_OVERFLOW (R422): A counter wraps; OVF is set or the chained counter advances, with an optional interrupt. -/
  | counterOverflow (u : Fin 44) (k : BitVec 3)
  /-- PMU_UNIT_SNAP (R423): A write of PMU_Uu_CTL.SNAP copies the unit's counters to its shadows. -/
  | pmuUnitSnap (by_ : Writer) (u : Fin 44)
  /-- PMU_GLOBAL_SNAP (R423): A write of PMU_GCTL.SNAP snapshots every powered unit. -/
  | pmuGlobalSnap (by_ : Writer)
  /-- RING_POP (R434): The holder reads RING_n_POP and takes the word at RD. -/
  | ringPop (by_ : Writer) (n : BitVec 3)
  /-- RING_RD_WRITE (R434): The holder writes RD to release entries, or RDERR is set. -/
  | ringRdWrite (by_ : Writer) (n : BitVec 3) (rd : BitVec 14)
  /-- RING_EXPORT_ENABLE (R436): A write of RING_n_CTL.XEN starts export after its checks, or sets XERR. -/
  | ringExportEnable (by_ : Writer) (n : BitVec 3) (ctl : BitVec 32)
  /-- RING_EXPORT (R436): The export engine copies a packet to its device-memory buffer and advances RD. -/
  | ringExport (n : BitVec 3)
  /-- COLD_RESET (R442): SYS_RST_N goes low; every pin is released and all domains are held in reset. -/
  | coldReset
  /-- SYS_RST_RELEASE (R440): SYS_RST_N rises; AON runs and the MGMT PLL locks. -/
  | sysRstRelease
  /-- PWR_MAIN_EN_RISE (R440): 50 µs after SYS_RST_N rises, PWR_MAIN_EN is driven high. -/
  | pwrMainEnRise
  /-- MAIN_PWRGD_RISE (R440): MAIN_PWRGD rises and the 200 µs PLL lock wait starts. -/
  | mainPwrgdRise
  /-- MAIN_DOMAIN_RELEASE (R440): 200 µs after MAIN_PWRGD the main domains leave reset. -/
  | mainDomainRelease
  /-- MAIN_PWRGD_FALL (R441): MAIN_PWRGD stays low for 10 µs with PWR_MAIN_EN high; the controller drops main power and records MAIN_FAULT. -/
  | mainPwrgdFall
  /-- WARM_RESET (R444): WARM_RST_N goes low; ports stop, jobs are abandoned and caches are written back. -/
  | warmReset
  /-- WARM_RESET_FLUSH_DONE (R444): Write-backs complete; DRAM self-refreshes and the WARM and HEAD domains reset. -/
  | warmResetFlushDone
  /-- WARM_RESET_RELEASE (R444): WARM_RST_N is high and step 5 is done; the boot chain runs. -/
  | warmResetRelease
  /-- UNKNOWN_OPCODE (R330): A command packet arrives whose opcode is not in Table 13.5, or whose header fails its step-1 checks before any opcode is known, and it is refused with UNKNOWN_OPCODE or OPCODE_MISMATCH. -/
  | unknownOpcode (c : Pkt) (opcode opcodeC mailboxOpcode : BitVec 16)
  /-- FIRMWARE_DECISION (R362): Management firmware, on its own, sets the CDC_THR fields, EFFORT_G and EFFORT_A, its P-level request, a thermal stage, or enters a sleep state within PWR_LIMITS. -/
  | firmwareDecision (d : FwDecision)
  /-- AON_POWER_ON (R439): The always-on rails rise with SYS_RST_N held low, resetting the AON domain and setting TOP_RST_STS.CAUSE to AON power-on. -/
  | aonPowerOn
  /-- AON_POWER_LOSS (R445): VDD_AON is lost; all state, the crock and slot state included, is lost and THERMTRIP_N is released. -/
  | aonPowerLoss
  /-- PAIR_PRESENT_LOW (R245): PAIR_PRESENT_N goes low while the link is DOWN with its retry timer expired, and the link enters TRAIN if the other conditions hold. -/
  | pairPresentLow
  /-- LINK_L1_ENTRY (R392): A host link enters ASPM L1, which S2 entry requires of every host link. -/
  | linkL1Entry (p : Head)
  /-- DOMAIN_POWER_DOWN_DONE (R386): The staggered switch groups of a switched domain finish closing and the domain is off, with its PWR_DOM_STS bit cleared. -/
  | domainPowerDownDone (dom : Fin 56)
deriving DecidableEq, Repr

end Sys2Proof
end

