-- ==== Sys2Proof/WellFormed.lean ====
section
/-! DEFINITION. Which commands the interface admits: operands that no sender can produce are ill-formed. A command
with an operand that the manual has the block refuse is well formed: its refusal is its meaning. -/

namespace Sys2Proof

/-- A request names no rival at its own port (R86). -/
def ReqIn.wf (q : ReqIn) : Bool := !q.rivals.getLsbD q.head.toNat

/-- A byte-masked write carries a mask with at least one byte (R142). -/
def maskWf (m : BitVec 64) : Bool := m != 0

/-- A link trains at 1, 2, 4, 8 or 16 lanes, at rate codes 0 to 6 (R34, R38, Table 2.1). -/
def LinkTrain.wf (t : LinkTrain) : Bool :=
  [1, 2, 4, 8, 16].contains t.width && t.rate.toNat ≤ 6

/-- An SPD names a device width of 4 or 8 bits and at least one rank (R112). -/
def Spd.wf (s : Spd) : Bool := (s.width == 4 || s.width == 8) && 1 ≤ s.ranks

/-- An extent has a length (R49). -/
def Extent.wf (e : Extent) : Bool := 0 < e.len

/-- A frame has 256 bytes (R231). -/
def FrameIn.wf (f : FrameIn) : Bool := f.bytes.length == 256

/-- A payload has at most 65,535 bytes (Table 13.2). -/
def Pkt.wf (c : Pkt) : Bool := c.payload.length < 2 ^ 16

/-- The well-formed commands. -/
def Instr.wf : Instr → Bool
  | .memRd q _ => q.wf
  | .memRdData q => q.wf
  | .memInv q _ => q.wf
  | .memInvNT q => q.wf
  | .memClnEvct q => q.wf
  | .memWr q _ _ _ => q.wf
  | .memWrPtl q _ _ mask _ => q.wf && maskWf mask
  | .linkUp _ t => t.wf
  | .addCapacity _ _ l => l.all Extent.wf
  | .populationSettle l => l.length == 48 && l.all (fun x => match x with | some s => s.wf | none => true)
  | .pairFrameReceive f => f.wf
  | .slotTrainingComplete _ spd => spd.wf
  | .unknownOpcode c _ _ _ => c.wf
  | .sensorSample l => l.length == 32
  | _ => true

end Sys2Proof
end

