-- ==== Sys2Proof/Config.lean ====
section
/-! DEFINITION. What the manual leaves open: free values without a body. Nothing in Lean can evaluate one, so no
statement rests on a value of them. The model applies a numbered free value to the counter Dev.freeN. -/

namespace Sys2Proof.Config

/-- Free value number n of the run, as 64 bits (log entry 4). -/
opaque freeValue : Nat → BitVec 64
/-- Draw number n of the random source (R191). -/
opaque randomKey : Nat → BitVec 256
/-- Free bytes number n of the run (contents that the manual calls undefined: R295, R299). -/
opaque freeByte : Nat → Nat → BitVec 8
/-- R199: the coded symbols of a sub-block at an effort level; their format is internal to the controller. -/
opaque encodeSymbols : Nat → List (BitVec 512) → List (BitVec 8)
/-- R199, R202: what the decoder makes of coded symbols that the controller did not write so: lines and the CRC that follows. -/
opaque decodeSymbols : List (BitVec 8) → Option (List (BitVec 512) × Nat)
/-- R292: the coded form that COMPRESS makes for FMT, EFFORT, WLOG, CFLAGS and an input. -/
opaque compressOutput : Nat → Nat → Nat → Nat → List (BitVec 8) → List (BitVec 8)
/-- R152: the rows that the repair resources of a bank group of a device can replace (channel, subchannel, rank, bank group, device). -/
opaque pprResources : List Nat → Nat
/-- R427: the offset that the sampler's free-running LFSR draws, before reduction modulo N. -/
opaque samplerDraw : Nat → Nat
/-- R353: the device seed in OTP. -/
opaque deviceSeed : BitVec 256
/-- R353: the private key (SK.seed, SK.prf, PK.seed of FIPS 205) that the boot ROM derives from the seed and what follows it. -/
opaque deriveKey : List Nat → BitVec 384
/-- R353: Slojor's root certificate, and the certificate that it gave the device identity key at manufacture. -/
opaque rootCertificate : List (BitVec 8)
opaque deviceCertificate : List (BitVec 8)
/-- R341: the contents of the boot ROM. -/
opaque bootRom : List (BitVec 8)
/-- R345, Table 14.4: the bytes of the configuration record and of the boot-select block by their contents. -/
opaque recordBytes : List Nat → List (BitVec 8)
/-- R334: the progress that the Background Command Status register shows of command number n in progress. -/
opaque bgProgress : Nat → Nat
/-- R361: the JTAG IDCODE. -/
opaque idcode : BitVec 32
/-- R193, R244: key and IV base number n that an SPDM handshake of the pair link gives a direction. -/
opaque pairKey : Nat → BitVec 256
opaque pairIv : Nat → BitVec 96
/-- R235: message number n that firmware sends in the pair link's SPDM handshake (DSP0274); empty for none. -/
opaque pairSpdm : Nat → List (BitVec 8)
/-- R347: the key hashes in OTP (Slojor, owner). -/
opaque slojorKeyHash : BitVec 256
/-- R347: the owner key hash fused at provisioning. -/
opaque ownerKeyHash : BitVec 256
/-- Table 14.6: the boot ROM's version. -/
opaque bootRomVersion : BitVec 32

/-- R75, R96: the interleave position of this controller under decoder n of head h; the controller holds no record of it. -/
opaque interleavePosition : Nat → Nat → Nat

end Sys2Proof.Config
end

