-- ==== Sys2Proof/Machine/Table.lean ====
section
/-! DEFINITION. Sparse tables (registers, DRAM bytes, caches, transfer buffers): one canonical form, strictly rising
keys and no entry equal to the value an unlisted key holds. -/

namespace Sys2Proof.Machine

variable {α : Type}

/-- The value at key k; d k is what an unlisted key holds. -/
def tget (d : Nat → α) : Tbl α → Nat → α
  | [], k => d k
  | e :: t, k => if k = e.1 then e.2 else tget d t k

/-- The entry at key k, if it is listed. -/
def tfind : Tbl α → Nat → Option α
  | [], _ => none
  | e :: t, k => if k = e.1 then some e.2 else tfind t k

/-- The table without key k. -/
def tdel (t : Tbl α) (k : Nat) : Tbl α := t.filter (fun e => e.1 != k)

/-- The table with v listed at key k, the keys kept in rising order. -/
def tins : Tbl α → Nat → α → Tbl α
  | [], k, v => [(k, v)]
  | e :: t, k, v => if k < e.1 then (k, v) :: e :: t else if k = e.1 then (k, v) :: t else e :: tins t k v

/-- The table whose value at key k is v: listed unless v is what an unlisted key holds. -/
def tset [DecidableEq α] (d : Nat → α) (t : Tbl α) (k : Nat) (v : α) : Tbl α :=
  if v = d k then tdel t k else tins t k v

/-- Keys strictly rise. -/
def tsorted : Tbl α → Bool
  | [] => true
  | e :: t => t.all (fun f => e.1 < f.1) && tsorted t

/-- The canonical form: strictly rising keys, and no entry equal to what an unlisted key holds. -/
def tcanon [DecidableEq α] (d : Nat → α) (t : Tbl α) : Bool :=
  tsorted t && t.all (fun e => e.2 != d e.1)

/-- The table without the keys that p selects. -/
def tdrop (p : Nat → Bool) (t : Tbl α) : Tbl α := t.filter (fun e => !p e.1)

/-- The listed keys. -/
def tkeys (t : Tbl α) : List Nat := t.map (·.1)

/-- The list with its element at index i replaced by f of it. -/
def listUpd (l : List α) (i : Nat) (f : α → α) : List α := l.modify i f

/-- The first element that p selects, with the list without it. -/
def takeFirst (p : α → Bool) : List α → Option (α × List α)
  | [] => none
  | x :: t => if p x then some (x, t) else (takeFirst p t).map (fun r => (r.1, x :: r.2))

end Sys2Proof.Machine
end

