-- ==== Sys2Proof/Machine/RegMap.lean ====
section
/-! DEFINITION. The register map: every register of BAR2 and of the port DVSEC, with its offset, its array strides,
its width, its reset domain, its reset value and its fields with their types (00_scope.md R6 to R10, and the register
tables of each chapter). Registers of the port DVSEC stand above BAR2, at 2^27 + port * 4096 + offset. -/

namespace Sys2Proof.Machine

/-- Reset domains (Table 0.5). -/
inductive RDom where
  | cold | warm | head | aon
deriving DecidableEq, Repr

/-- Field types (Table 0.4). -/
inductive FTy where
  | ro | rov | rw | rw1c | rw1s | wo | rwl | rwc
deriving DecidableEq, Repr

/-- A field of a register: its low bit, its width, its type. -/
structure FieldD where
  lo : Nat
  w : Nat
  ty : FTy
deriving DecidableEq, Repr

/-- How a register's reset value is found: the word stated, a list by index, the reactions and severities of the fault
sources (R369, R454), or the port's number. -/
inductive RstKind where
  | word | list (l : List Nat) | react | reactC | srcinfo | port
deriving DecidableEq, Repr

/-- A register, or an array of them: base offset, count and stride of each of two indices, width in bits, reset
domain, reset word, and fields. -/
structure RegD where
  base : Nat
  n1 : Nat
  s1 : Nat
  n2 : Nat
  s2 : Nat
  width : Nat
  dom : RDom
  word : Nat
  rst : RstKind
  fields : List FieldD
deriving DecidableEq, Repr

/-- A complement-checked pair (R9): offsets of REG and REG_C, count, stride. -/
structure PairD where
  reg : Nat
  regC : Nat
  n : Nat
  s : Nat
deriving DecidableEq, Repr

/-- Number of sources of each fault group 0..39 (Table 15.1). -/
def grpCount : List Nat := [12, 12, 12, 12, 12, 12, 12, 12, 8, 32, 8, 32, 32, 32, 32, 32, 32, 8, 8, 8, 8, 8, 8, 8, 8,
  6, 6, 6, 6, 8, 12, 16, 12, 20, 6, 16, 20, 16, 48, 16]

/-- Maximum severity of a group where all its sources share one, else 0 (Table 15.1). -/
def grpSev : List Nat := [3, 3, 3, 3, 3, 3, 3, 3, 0, 3, 2, 3, 3, 3, 3, 3, 3, 0, 4, 4, 4, 4, 4, 4, 0,
  0, 0, 0, 0, 2, 0, 3, 0, 0, 1, 3, 4, 0, 3, 0]

/-- Maximum severities of the groups of Table 15.10 by index. -/
def namedSev : Nat → List Nat
  | 8 => [3, 1, 3, 1, 1, 1, 1, 1]
  | 17 => [2, 2, 1, 2, 2, 1, 1, 1]
  | 24 => [5, 2, 4, 2, 3, 2, 2, 1]
  | 25 => [3, 2, 3, 3, 3, 3]
  | 26 => [3, 2, 3, 3, 3, 3]
  | 27 => [3, 2, 3, 3, 3, 3]
  | 28 => [3, 2, 3, 3, 3, 3]
  | 30 => [2, 2, 2, 1, 2, 1, 1, 1, 1, 1, 1, 1]
  | 32 => [3, 3, 2, 1, 2, 1, 1, 1, 1, 1, 1, 1]
  | 33 => [3, 1, 2, 3, 3, 3, 3, 3, 3, 3, 3, 3, 3, 3, 3, 3, 3, 3, 3, 1]
  | 37 => [3, 4, 1, 1, 4, 4, 1, 1, 1, 1, 1, 1, 1, 1, 1, 1]
  | 39 => [3, 3, 3, 3, 3, 1, 1, 1, 1, 1, 1, 1, 1, 1, 1, 1]
  | _ => []

/-- R364: the maximum severity of a source number; 0 when it does not exist. -/
def srcMaxSev (src : Nat) : Nat :=
  let g := src / 64
  let i := src % 64
  if i < grpCount.getD g 0 then
    let s := grpSev.getD g 0
    if s = 0 then (namedSev g).getD i 0 else s
  else 0

/-- R369: the default reaction of a source: LOG, INT, ESC, IMM by maximum severity. -/
def srcDefReact (src : Nat) : Nat :=
  match srcMaxSev src with
  | 2 => 1
  | 3 => 2
  | 4 => 3
  | 5 => 3
  | _ => 0

/-- Reset word of FLT_REACTk. -/
def reactWord (k : Nat) : Nat :=
  (List.range 16).foldl (fun a j => a + srcDefReact (16 * k + j) * 2 ^ (2 * j)) 0

/-- FLT_SRCINFOk. -/
def srcinfoWord (k : Nat) : Nat :=
  (List.range 4).foldl (fun a i => a + (srcMaxSev (4 * k + i) + 8 * srcDefReact (4 * k + i)) * 2 ^ (8 * i)) 0

/-- The registers of TOP. -/
def regTop : List RegD := [
  ⟨0, 1, 0, 1, 0, 32, .cold, 0x73241f3b, .word, [⟨0, 16, .ro⟩, ⟨16, 16, .ro⟩]⟩,
  ⟨4, 1, 0, 1, 0, 32, .cold, 0xb1, .word, [⟨0, 8, .ro⟩, ⟨8, 1, .ro⟩]⟩,
  ⟨8, 1, 0, 1, 0, 32, .aon, 0, .word, [⟨0, 3, .rov⟩, ⟨3, 1, .rw1c⟩, ⟨4, 16, .rov⟩]⟩,
  ⟨0x100, 1, 0, 1, 0, 32, .warm, 0, .word, [⟨0, 32, .rwc⟩]⟩,
  ⟨0x104, 1, 0, 1, 0, 32, .warm, 0xffffffff, .word, [⟨0, 32, .rwc⟩]⟩]

/-- The registers of FLT. -/
def regFlt : List RegD := [
  ⟨0x100000, 1, 0, 1, 0, 32, .cold, 0x60064, .word, [⟨0, 17, .rwc⟩, ⟨17, 3, .rwc⟩]⟩,
  ⟨0x100004, 1, 0, 1, 0, 32, .cold, 0xfff9ff9b, .word, [⟨0, 32, .rwc⟩]⟩,
  ⟨0x100008, 1, 0, 1, 0, 32, .warm, 0, .word, [⟨0, 1, .rov⟩, ⟨1, 1, .rov⟩, ⟨2, 7, .rov⟩]⟩,
  ⟨0x10000c, 1, 0, 1, 0, 32, .warm, 0x200, .word, [⟨0, 3, .rw⟩, ⟨3, 10, .rw⟩]⟩,
  ⟨0x100010, 1, 0, 1, 0, 64, .warm, 0, .word, [⟨0, 32, .rov⟩, ⟨32, 32, .rov⟩]⟩,
  ⟨0x100018, 1, 0, 1, 0, 64, .warm, 0, .word, [⟨0, 64, .rov⟩]⟩,
  ⟨0x100020, 1, 0, 1, 0, 64, .cold, 0, .word, [⟨0, 64, .rov⟩]⟩,
  ⟨0x101000, 0xa0, 4, 1, 0, 32, .cold, 0, .react, [⟨0, 32, .rwc⟩]⟩,
  ⟨0x101400, 0xa0, 4, 1, 0, 32, .cold, 0, .reactC, [⟨0, 32, .rwc⟩]⟩,
  ⟨0x102000, 0x40, 0x40, 1, 0, 448, .cold, 0, .word, [⟨0, 448, .rov⟩]⟩,
  ⟨0x102038, 0x40, 0x40, 1, 0, 32, .cold, 0, .word, [⟨0, 1, .rov⟩, ⟨1, 1, .rw1s⟩, ⟨2, 1, .rov⟩]⟩,
  ⟨0x104000, 0x280, 4, 1, 0, 32, .cold, 0, .srcinfo, [⟨0, 32, .ro⟩]⟩]

/-- The registers of PWR. -/
def regPwr : List RegD := [
  ⟨0x200000, 1, 0, 1, 0, 32, .warm, 0, .word, [⟨0, 2, .rov⟩, ⟨2, 2, .rov⟩, ⟨4, 2, .rov⟩, ⟨6, 2, .rov⟩, ⟨8, 1, .rov⟩, ⟨9, 1, .rov⟩]⟩,
  ⟨0x200004, 1, 0, 1, 0, 32, .warm, 0xc, .word, [⟨0, 2, .rov⟩, ⟨2, 2, .rov⟩, ⟨4, 2, .rov⟩]⟩,
  ⟨0x200008, 1, 0, 1, 0, 32, .warm, 0, .word, [⟨0, 2, .rov⟩, ⟨2, 4, .rov⟩, ⟨6, 3, .rov⟩, ⟨9, 1, .rw1c⟩]⟩,
  ⟨0x20000c, 1, 0, 1, 0, 32, .warm, 3, .word, [⟨0, 1, .rw⟩, ⟨1, 1, .rw⟩, ⟨2, 1, .rw⟩]⟩,
  ⟨0x200010, 1, 0, 1, 0, 32, .warm, 0, .word, [⟨0, 32, .rw⟩]⟩,
  ⟨0x200018, 1, 0, 1, 0, 64, .warm, 0, .word, [⟨0, 56, .rov⟩]⟩,
  ⟨0x200020, 1, 0, 1, 0, 64, .warm, 0, .word, [⟨0, 16, .rov⟩, ⟨16, 16, .rov⟩, ⟨32, 16, .rov⟩, ⟨48, 16, .rov⟩]⟩]

/-- The registers of THM. -/
def regThm : List RegD := [
  ⟨0x300000, 1, 0, 1, 0, 32, .cold, 0x4766c64, .word, [⟨0, 8, .rwc⟩, ⟨8, 8, .rwc⟩, ⟨16, 8, .rwc⟩, ⟨24, 4, .rwc⟩]⟩,
  ⟨0x300004, 1, 0, 1, 0, 32, .cold, 0xfb89939b, .word, [⟨0, 32, .rwc⟩]⟩,
  ⟨0x300008, 1, 0, 1, 0, 32, .warm, 0x14081f4, .word, [⟨0, 14, .rov⟩, ⟨14, 6, .rw⟩, ⟨20, 7, .rw⟩]⟩,
  ⟨0x30000c, 1, 0, 1, 0, 32, .warm, 0, .word, [⟨0, 11, .rov⟩, ⟨11, 5, .rov⟩, ⟨16, 2, .rov⟩, ⟨18, 1, .rov⟩, ⟨19, 1, .rov⟩, ⟨20, 1, .rov⟩, ⟨21, 1, .rov⟩, ⟨22, 6, .rov⟩, ⟨28, 1, .rov⟩]⟩,
  ⟨0x300100, 0x20, 4, 1, 0, 32, .warm, 0, .word, [⟨0, 11, .rov⟩, ⟨11, 1, .rov⟩]⟩,
  ⟨0x300200, 4, 4, 1, 0, 32, .warm, 0, (.list [0, 3501, 3002, 2003]), [⟨0, 2, .rov⟩, ⟨2, 10, .rov⟩]⟩,
  ⟨0x300310, 1, 0, 1, 0, 32, .cold, 0, .word, [⟨0, 7, .rov⟩, ⟨7, 1, .rov⟩]⟩]

/-- The registers of SLT. -/
def regSlt : List RegD := [
  ⟨0x400000, 1, 0, 1, 0, 64, .cold, 0, .word, [⟨0, 48, .rov⟩]⟩,
  ⟨0x400008, 1, 0, 1, 0, 64, .cold, 0, .word, [⟨0, 48, .rov⟩]⟩,
  ⟨0x401000, 0x30, 0x40, 1, 0, 32, .cold, 0, .word, [⟨0, 3, .rov⟩, ⟨3, 1, .rov⟩, ⟨4, 1, .rov⟩, ⟨5, 1, .rov⟩, ⟨6, 4, .rov⟩]⟩,
  ⟨0x401008, 0x30, 0x40, 1, 0, 32, .cold, 0x5052990, .word, [⟨0, 10, .rwc⟩, ⟨10, 6, .rwc⟩, ⟨16, 5, .rwc⟩, ⟨21, 1, .rwc⟩, ⟨22, 8, .rwc⟩]⟩,
  ⟨0x40100c, 0x30, 0x40, 1, 0, 32, .cold, 0xfafad66f, .word, [⟨0, 32, .rwc⟩]⟩,
  ⟨0x401010, 0x30, 0x40, 1, 0, 32, .cold, 0x55963250, .word, [⟨0, 8, .rwc⟩, ⟨8, 8, .rwc⟩, ⟨16, 8, .rwc⟩, ⟨24, 8, .rwc⟩]⟩,
  ⟨0x401014, 0x30, 0x40, 1, 0, 32, .cold, 0xaa69cdaf, .word, [⟨0, 32, .rwc⟩]⟩,
  ⟨0x401020, 0x30, 0x40, 1, 0, 64, .cold, 0, .word, [⟨0, 12, .rov⟩, ⟨12, 12, .rov⟩, ⟨24, 11, .rov⟩]⟩,
  ⟨0x401028, 0x30, 0x40, 1, 0, 32, .cold, 0, .word, [⟨0, 8, .rov⟩, ⟨8, 8, .rov⟩, ⟨16, 8, .rov⟩]⟩]

/-- The registers of WIN. -/
def regWin : List RegD := [
  ⟨0x500000, 1, 0, 1, 0, 32, .cold, 0, .word, [⟨0, 1, .rw1s⟩]⟩,
  ⟨0x500004, 1, 0, 1, 0, 32, .cold, 0, .word, [⟨0, 9, .rov⟩, ⟨9, 1, .rw1c⟩, ⟨10, 1, .rw1c⟩, ⟨11, 1, .rw1c⟩]⟩,
  ⟨0x500008, 1, 0, 1, 0, 64, .cold, 0, .word, [⟨0, 64, .rov⟩]⟩,
  ⟨0x500010, 1, 0, 1, 0, 32, .cold, 0x8e00, .word, [⟨0, 2, .rwl⟩, ⟨2, 2, .rwl⟩, ⟨4, 1, .rwl⟩, ⟨5, 5, .rov⟩, ⟨10, 6, .rov⟩]⟩,
  ⟨0x500018, 1, 0, 1, 0, 64, .cold, 0, .word, [⟨0, 46, .rov⟩, ⟨59, 5, .rov⟩]⟩,
  ⟨0x500100, 6, 8, 1, 0, 32, .cold, 0, .word, [⟨0, 32, .rwl⟩]⟩,
  ⟨0x500104, 6, 8, 1, 0, 32, .cold, 0, .word, [⟨0, 16, .rwl⟩]⟩,
  ⟨0x501000, 0x100, 0x40, 1, 0, 32, .cold, 0, .word, [⟨0, 1, .rwc⟩, ⟨1, 2, .rwc⟩, ⟨3, 1, .rwc⟩, ⟨4, 1, .rwc⟩, ⟨5, 1, .rwc⟩, ⟨6, 1, .rwc⟩, ⟨8, 4, .rwc⟩, ⟨12, 2, .rwc⟩, ⟨14, 3, .rwc⟩, ⟨17, 3, .rwc⟩]⟩,
  ⟨0x501004, 0x100, 0x40, 1, 0, 32, .cold, 0, .word, [⟨0, 25, .rwc⟩]⟩,
  ⟨0x501008, 0x100, 0x40, 1, 0, 32, .cold, 0, .word, [⟨0, 25, .rwc⟩]⟩,
  ⟨0x50100c, 0x100, 0x40, 1, 0, 32, .cold, 0, .word, [⟨0, 32, .rwc⟩]⟩,
  ⟨0x501010, 0x100, 0x40, 1, 0, 32, .cold, 0, .word, [⟨0, 23, .rwc⟩]⟩,
  ⟨0x501014, 0x100, 0x40, 1, 0, 32, .cold, 0, .word, [⟨0, 23, .rwc⟩]⟩,
  ⟨0x501020, 0x100, 0x40, 1, 0, 32, .cold, 0xffffffff, .word, [⟨0, 32, .rwc⟩]⟩,
  ⟨0x501024, 0x100, 0x40, 1, 0, 32, .cold, 0xffffffff, .word, [⟨0, 32, .rwc⟩]⟩,
  ⟨0x501028, 0x100, 0x40, 1, 0, 32, .cold, 0xffffffff, .word, [⟨0, 32, .rwc⟩]⟩,
  ⟨0x50102c, 0x100, 0x40, 1, 0, 32, .cold, 0xffffffff, .word, [⟨0, 32, .rwc⟩]⟩,
  ⟨0x501030, 0x100, 0x40, 1, 0, 32, .cold, 0xffffffff, .word, [⟨0, 32, .rwc⟩]⟩,
  ⟨0x501034, 0x100, 0x40, 1, 0, 32, .cold, 0xffffffff, .word, [⟨0, 32, .rwc⟩]⟩]

/-- The registers of HOME. -/
def regHome : List RegD := [
  ⟨0x600000, 1, 0, 1, 0, 32, .warm, 0x3e8, .word, [⟨0, 17, .rw⟩]⟩,
  ⟨0x600004, 1, 0, 1, 0, 32, .cold, 0, .word, [⟨0, 1, .rw1c⟩, ⟨1, 1, .rw1c⟩, ⟨2, 1, .rw1c⟩]⟩,
  ⟨0x600008, 1, 0, 1, 0, 32, .cold, 0, .word, [⟨0, 32, .rov⟩]⟩,
  ⟨0x60000c, 1, 0, 1, 0, 32, .warm, 0x10, .word, [⟨0, 7, .rw⟩, ⟨8, 8, .rov⟩, ⟨16, 1, .rov⟩]⟩,
  ⟨0x600020, 8, 4, 1, 0, 32, .cold, 0, .word, [⟨0, 32, .rov⟩]⟩,
  ⟨0x600100, 0x10, 0x10, 1, 0, 32, .warm, 0, .word, [⟨0, 5, .rov⟩, ⟨8, 9, .rov⟩, ⟨17, 7, .rov⟩, ⟨24, 7, .rw1c⟩]⟩,
  ⟨0x600108, 0x10, 0x10, 1, 0, 64, .warm, 0, .word, [⟨0, 64, .rov⟩]⟩,
  ⟨0x601000, 0x100, 8, 1, 0, 64, .cold, 0, .word, [⟨0, 37, .rov⟩]⟩,
  ⟨0x608000, 0x20, 0x800, 0x100, 8, 64, .cold, 0, .word, [⟨0, 37, .rov⟩]⟩]

/-- The registers of the MCH channels. -/
def regMch : List RegD := [
  ⟨0x800000, 0x18, 0x10000, 1, 0, 32, .warm, 0, .word, [⟨0, 1, .rov⟩, ⟨1, 1, .rov⟩, ⟨2, 2, .rov⟩, ⟨4, 1, .rov⟩, ⟨5, 8, .rov⟩, ⟨13, 1, .rov⟩]⟩,
  ⟨0x800010, 0x18, 0x10000, 1, 0, 32, .warm, 0xa140c48, .word, [⟨0, 7, .rw⟩, ⟨7, 7, .rw⟩, ⟨14, 5, .rw⟩, ⟨19, 5, .rw⟩, ⟨24, 8, .rw⟩]⟩,
  ⟨0x800020, 0x18, 0x10000, 1, 0, 32, .warm, 0x84, .word, [⟨0, 1, .rw⟩, ⟨1, 3, .rw⟩, ⟨4, 7, .rw⟩]⟩,
  ⟨0x800030, 0x18, 0x10000, 1, 0, 32, .warm, 0x2a003e8, .word, [⟨0, 14, .rw⟩, ⟨14, 8, .rw⟩, ⟨22, 5, .rw⟩, ⟨27, 1, .wo⟩]⟩,
  ⟨0x800040, 0x18, 0x10000, 1, 0, 32, .warm, 0, .word, [⟨0, 2, .rov⟩, ⟨2, 16, .rov⟩, ⟨18, 8, .rov⟩]⟩,
  ⟨0x800048, 0x18, 0x10000, 2, 8, 32, .warm, 0, .word, [⟨0, 7, .rov⟩, ⟨7, 7, .rov⟩, ⟨14, 8, .rov⟩]⟩,
  ⟨0x800060, 0x18, 0x10000, 1, 0, 32, .warm, 0, .word, [⟨0, 16, .rov⟩, ⟨16, 8, .rov⟩, ⟨24, 1, .rw1c⟩, ⟨25, 1, .rw1c⟩, ⟨26, 1, .rw1c⟩]⟩,
  ⟨0x800080, 0x18, 0x10000, 8, 4, 32, .warm, 0, .word, [⟨0, 1, .rov⟩, ⟨1, 1, .rov⟩, ⟨2, 3, .rov⟩, ⟨5, 3, .rov⟩, ⟨8, 2, .rov⟩, ⟨10, 1, .rov⟩, ⟨11, 4, .rov⟩]⟩,
  ⟨0x801000, 0x18, 0x10000, 0x200, 4, 32, .warm, 0, .word, [⟨0, 16, .rw1c⟩]⟩,
  ⟨0x802000, 0x18, 0x10000, 0x40, 8, 64, .warm, 0, .word, [⟨0, 17, .rov⟩, ⟨17, 1, .rov⟩, ⟨18, 3, .rov⟩, ⟨21, 3, .rov⟩, ⟨24, 2, .rov⟩, ⟨26, 4, .rov⟩, ⟨30, 1, .rov⟩, ⟨31, 1, .rov⟩, ⟨32, 16, .rov⟩]⟩,
  ⟨0x808000, 0x20, 4, 1, 0, 32, .warm, 0x1f4, .word, [⟨0, 16, .rw⟩]⟩,
  ⟨0x808100, 1, 0, 1, 0, 32, .warm, 0, .word, [⟨0, 2, .rov⟩, ⟨2, 6, .rov⟩, ⟨8, 1, .rov⟩]⟩,
  ⟨0x808200, 1, 0, 1, 0, 32, .warm, 0x19031, .word, [⟨0, 1, .rw⟩, ⟨1, 8, .rw⟩, ⟨9, 8, .rw⟩]⟩,
  ⟨0x808208, 1, 0, 1, 0, 64, .warm, 0, .word, [⟨0, 44, .rov⟩, ⟨44, 16, .rov⟩, ⟨60, 4, .rw1c⟩]⟩,
  ⟨0x808210, 1, 0, 1, 0, 32, .warm, 0, .word, [⟨0, 15, .rov⟩]⟩,
  ⟨0x808218, 1, 0, 1, 0, 32, .warm, 0x1040008, .word, [⟨0, 8, .rw⟩, ⟨8, 12, .rw⟩, ⟨20, 8, .rw⟩]⟩,
  ⟨0x808220, 1, 0, 1, 0, 32, .warm, 0x2000, .word, [⟨0, 14, .rov⟩, ⟨14, 14, .rov⟩]⟩]

/-- The registers of SEC. -/
def regSec : List RegD := [
  ⟨0xa00000, 1, 0, 1, 0, 32, .warm, 0x10, .word, [⟨0, 7, .rw⟩]⟩,
  ⟨0xa00004, 1, 0, 1, 0, 32, .cold, 0x80000, .word, [⟨0, 20, .rov⟩]⟩,
  ⟨0xa00008, 1, 0, 1, 0, 32, .cold, 0, .word, [⟨0, 1, .rov⟩, ⟨1, 3, .rov⟩, ⟨4, 4, .rov⟩, ⟨8, 3, .rov⟩]⟩,
  ⟨0xa00010, 1, 0, 1, 0, 64, .cold, 0, .word, [⟨0, 46, .rov⟩, ⟨46, 1, .rov⟩]⟩,
  ⟨0xa00018, 1, 0, 1, 0, 64, .cold, 0, .word, [⟨0, 64, .rov⟩]⟩,
  ⟨0xa00020, 1, 0, 1, 0, 32, .warm, 0, .word, [⟨0, 16, .rov⟩, ⟨16, 16, .rov⟩]⟩,
  ⟨0xa01000, 0x10, 0x100, 1, 0, 32, .cold, 0, .word, [⟨0, 1, .rwc⟩, ⟨1, 2, .rwc⟩]⟩,
  ⟨0xa01004, 0x10, 0x100, 1, 0, 32, .cold, 0, .word, [⟨0, 25, .rwc⟩]⟩,
  ⟨0xa01008, 0x10, 0x100, 1, 0, 32, .cold, 0, .word, [⟨0, 25, .rwc⟩]⟩,
  ⟨0xa0100c, 0x10, 0x100, 1, 0, 32, .cold, 0, .word, [⟨0, 5, .rwc⟩, ⟨5, 19, .rwc⟩]⟩,
  ⟨0xa01010, 0x10, 0x100, 1, 0, 32, .cold, 0xffffffff, .word, [⟨0, 32, .rwc⟩]⟩,
  ⟨0xa01014, 0x10, 0x100, 1, 0, 32, .cold, 0xffffffff, .word, [⟨0, 32, .rwc⟩]⟩,
  ⟨0xa01018, 0x10, 0x100, 1, 0, 32, .cold, 0xffffffff, .word, [⟨0, 32, .rwc⟩]⟩,
  ⟨0xa0101c, 0x10, 0x100, 1, 0, 32, .cold, 0xffffffff, .word, [⟨0, 32, .rwc⟩]⟩,
  ⟨0xa01020, 0x10, 0x100, 1, 0, 32, .cold, 0, .word, [⟨0, 3, .rov⟩, ⟨3, 1, .rov⟩, ⟨4, 1, .rov⟩, ⟨5, 4, .rov⟩, ⟨9, 1, .rov⟩, ⟨10, 1, .rov⟩]⟩,
  ⟨0xa01024, 0x10, 0x100, 1, 0, 32, .cold, 0, .word, [⟨0, 24, .rov⟩]⟩,
  ⟨0xa01028, 0x10, 0x100, 1, 0, 64, .cold, 0, .word, [⟨0, 64, .rov⟩]⟩,
  ⟨0xa01030, 0x10, 0x100, 1, 0, 64, .cold, 0, .word, [⟨0, 56, .rov⟩]⟩,
  ⟨0xa01038, 0x10, 0x100, 1, 0, 64, .cold, 0, .word, [⟨0, 46, .rov⟩]⟩,
  ⟨0xa01040, 0x10, 0x100, 1, 0, 64, .cold, 0, .word, [⟨0, 44, .rov⟩]⟩,
  ⟨0xa01048, 0x10, 0x100, 1, 0, 64, .cold, 0, .word, [⟨0, 44, .rov⟩]⟩,
  ⟨0xa01050, 0x10, 0x100, 1, 0, 32, .cold, 0, .word, [⟨0, 16, .rov⟩, ⟨16, 16, .rw1c⟩]⟩]

/-- The registers of CDC. -/
def regCdc : List RegD := [
  ⟨0xb00000, 1, 0, 1, 0, 32, .warm, 0x9f, .word, [⟨0, 1, .rw⟩, ⟨1, 1, .rw⟩, ⟨2, 1, .rw⟩, ⟨3, 1, .rw⟩, ⟨4, 2, .rov⟩, ⟨6, 2, .rov⟩]⟩,
  ⟨0xb00004, 1, 0, 1, 0, 32, .warm, 0, .word, [⟨0, 1, .rw1c⟩, ⟨1, 1, .rw1c⟩, ⟨2, 1, .rw1c⟩, ⟨3, 1, .rw1c⟩, ⟨4, 1, .rov⟩]⟩,
  ⟨0xb00008, 1, 0, 1, 0, 32, .warm, 0xa05050, .word, [⟨0, 10, .rov⟩, ⟨10, 10, .rov⟩, ⟨20, 8, .rov⟩]⟩,
  ⟨0xb0000c, 1, 0, 1, 0, 32, .warm, 0, .word, [⟨0, 2, .rov⟩, ⟨2, 1, .rov⟩, ⟨3, 1, .rw1c⟩]⟩,
  ⟨0xb00010, 1, 0, 1, 0, 32, .warm, 0x8090, .word, [⟨0, 6, .rov⟩, ⟨6, 6, .rov⟩, ⟨12, 6, .rov⟩]⟩,
  ⟨0xb00014, 1, 0, 1, 0, 32, .warm, 0x1e08, .word, [⟨0, 7, .rw⟩, ⟨7, 17, .rw⟩]⟩,
  ⟨0xb00020, 4, 4, 1, 0, 32, .cold, 0, .word, [⟨0, 23, .rov⟩, ⟨31, 1, .rov⟩]⟩,
  ⟨0xb00040, 1, 0, 1, 0, 64, .warm, 0, .word, [⟨0, 32, .rov⟩]⟩,
  ⟨0xb00048, 1, 0, 1, 0, 64, .warm, 0, .word, [⟨0, 32, .rov⟩]⟩,
  ⟨0xb00050, 1, 0, 1, 0, 64, .warm, 0, .word, [⟨0, 32, .rov⟩]⟩,
  ⟨0xb00058, 1, 0, 1, 0, 64, .warm, 0, .word, [⟨0, 35, .rov⟩]⟩,
  ⟨0xb00060, 1, 0, 1, 0, 64, .warm, 0, .word, [⟨0, 35, .rov⟩]⟩,
  ⟨0xb00068, 1, 0, 1, 0, 64, .warm, 0, .word, [⟨0, 32, .rov⟩]⟩,
  ⟨0xb00070, 1, 0, 1, 0, 64, .warm, 0, .word, [⟨0, 32, .rov⟩]⟩,
  ⟨0xb00078, 1, 0, 1, 0, 64, .warm, 0, .word, [⟨0, 35, .rov⟩]⟩,
  ⟨0xb00100, 8, 4, 1, 0, 32, .cold, 0, (.list [0x0, 0xFFFFFFFF, 0x1, 0xFF, 0xFFFF0000, 0xFFFF, 0x80000000, 0x7FFFFFFF]), [⟨0, 32, .rwl⟩]⟩,
  ⟨0xb01000, 0x100, 0x20, 1, 0, 32, .cold, 0, .word, [⟨0, 1, .rov⟩, ⟨1, 1, .rov⟩]⟩,
  ⟨0xb01008, 0x100, 0x20, 1, 0, 64, .cold, 0, .word, [⟨0, 44, .rov⟩]⟩,
  ⟨0xb01010, 0x100, 0x20, 1, 0, 64, .cold, 0, .word, [⟨0, 35, .rov⟩]⟩,
  ⟨0xb01018, 0x100, 0x20, 1, 0, 32, .cold, 0, .word, [⟨0, 16, .rw1c⟩, ⟨16, 16, .rw1c⟩]⟩]

/-- The registers of QOS. -/
def regQos : List RegD := [
  ⟨0xc00000, 1, 0, 1, 0, 32, .warm, 0xa4, .word, [⟨0, 3, .rw⟩, ⟨3, 4, .rw⟩, ⟨7, 10, .rw⟩]⟩,
  ⟨0xc00004, 1, 0, 1, 0, 32, .warm, 0, .word, [⟨0, 16, .rov⟩]⟩,
  ⟨0xc00008, 1, 0, 1, 0, 32, .warm, 0x3e8, .word, [⟨0, 10, .rov⟩, ⟨10, 16, .rov⟩, ⟨26, 1, .rw1c⟩, ⟨27, 1, .rov⟩]⟩,
  ⟨0xc0000c, 1, 0, 1, 0, 32, .warm, 0x3e8, .word, [⟨0, 10, .rov⟩]⟩,
  ⟨0xc00010, 1, 0, 1, 0, 32, .warm, 0, .word, [⟨0, 5, .rov⟩, ⟨5, 2, .rov⟩]⟩,
  ⟨0xc00100, 8, 0x10, 1, 0, 32, .warm, 0x1fffe2, .word, [⟨0, 1, .rov⟩, ⟨1, 4, .rov⟩, ⟨5, 16, .rov⟩]⟩,
  ⟨0xc00104, 8, 0x10, 1, 0, 32, .warm, 0xe000, .word, [⟨0, 8, .rov⟩, ⟨8, 8, .rov⟩]⟩,
  ⟨0xc01000, 0x20, 0x40, 1, 0, 32, .warm, 0x7d0, .word, [⟨0, 1, .rov⟩, ⟨1, 10, .rov⟩]⟩,
  ⟨0xc01004, 0x20, 0x40, 1, 0, 32, .warm, 0, .word, [⟨0, 32, .rov⟩]⟩,
  ⟨0xc01008, 0x20, 0x40, 8, 4, 32, .warm, 0, .word, [⟨0, 16, .rov⟩]⟩,
  ⟨0xc01028, 0x20, 0x40, 1, 0, 32, .warm, 0x7d00000, .word, [⟨0, 9, .rov⟩, ⟨9, 8, .rov⟩, ⟨17, 10, .rov⟩, ⟨27, 1, .rov⟩]⟩,
  ⟨0xc01030, 0x20, 0x40, 1, 0, 64, .warm, 0, .word, [⟨0, 64, .rov⟩]⟩]

/-- The registers of PAIR. -/
def regPair : List RegD := [
  ⟨0xd00000, 1, 0, 1, 0, 32, .warm, 9, .word, [⟨0, 1, .rw⟩, ⟨1, 1, .rw⟩, ⟨2, 1, .rw⟩, ⟨3, 1, .rw⟩]⟩,
  ⟨0xd00004, 1, 0, 1, 0, 32, .warm, 0, .word, [⟨0, 3, .rov⟩, ⟨3, 5, .rov⟩, ⟨8, 5, .rov⟩, ⟨13, 1, .rov⟩, ⟨14, 1, .rov⟩, ⟨15, 1, .rov⟩, ⟨16, 4, .rov⟩, ⟨20, 1, .rov⟩, ⟨21, 1, .rov⟩]⟩,
  ⟨0xd00008, 1, 0, 1, 0, 32, .warm, 0x64204, .word, [⟨0, 7, .rw⟩, ⟨7, 4, .rw⟩, ⟨11, 14, .rw⟩]⟩,
  ⟨0xd0000c, 1, 0, 1, 0, 32, .warm, 0x502864, .word, [⟨0, 10, .rw⟩, ⟨10, 10, .rw⟩, ⟨20, 6, .rw⟩]⟩,
  ⟨0xd00010, 1, 0, 1, 0, 32, .warm, 0x28264, .word, [⟨0, 8, .rw⟩, ⟨8, 6, .rw⟩, ⟨14, 8, .rw⟩]⟩,
  ⟨0xd00018, 1, 0, 1, 0, 64, .warm, 0xfff000, .word, [⟨0, 12, .rov⟩, ⟨12, 12, .rov⟩, ⟨24, 12, .rov⟩, ⟨36, 12, .rov⟩]⟩,
  ⟨0xd00020, 4, 4, 1, 0, 32, .warm, 0, (.list [1024, 128, 64, 512]), [⟨0, 11, .ro⟩, ⟨11, 11, .rov⟩]⟩,
  ⟨0xd00040, 1, 0, 1, 0, 64, .warm, 0, .word, [⟨0, 16, .rov⟩, ⟨16, 16, .rov⟩, ⟨32, 16, .rov⟩, ⟨48, 16, .rov⟩]⟩,
  ⟨0xd00048, 1, 0, 1, 0, 64, .warm, 0, .word, [⟨0, 8, .rov⟩, ⟨8, 8, .rov⟩]⟩,
  ⟨0xd00050, 1, 0, 1, 0, 32, .warm, 0x1000, .word, [⟨0, 16, .rw⟩]⟩,
  ⟨0xd00054, 1, 0, 1, 0, 32, .warm, 0, .word, [⟨0, 16, .rov⟩, ⟨16, 16, .rov⟩]⟩,
  ⟨0xd01000, 1, 0, 1, 0, 32, .warm, 0x141910, .word, [⟨0, 7, .rw⟩, ⟨7, 10, .rw⟩, ⟨17, 8, .rw⟩]⟩,
  ⟨0xd01004, 1, 0, 1, 0, 32, .warm, 0, .word, [⟨0, 1, .rov⟩, ⟨1, 1, .rov⟩, ⟨2, 1, .rov⟩, ⟨3, 1, .rw1c⟩, ⟨4, 1, .rw1c⟩, ⟨5, 1, .rov⟩, ⟨6, 1, .rov⟩]⟩,
  ⟨0xd01008, 1, 0, 1, 0, 64, .warm, 0, .word, [⟨0, 48, .rov⟩]⟩,
  ⟨0xd01010, 1, 0, 1, 0, 64, .cold, 0, .word, [⟨0, 9, .rov⟩, ⟨32, 14, .rov⟩]⟩,
  ⟨0xd02000, 0x100, 0x20, 1, 0, 32, .cold, 0, .word, [⟨0, 3, .rov⟩, ⟨3, 1, .rov⟩, ⟨4, 1, .rov⟩, ⟨5, 1, .rov⟩, ⟨6, 1, .rov⟩, ⟨7, 1, .rov⟩, ⟨8, 8, .rov⟩, ⟨16, 2, .rov⟩]⟩,
  ⟨0xd02008, 0x100, 0x20, 1, 0, 32, .cold, 3, .word, [⟨0, 2, .rov⟩]⟩,
  ⟨0xd02010, 0x100, 0x20, 1, 0, 64, .cold, 0, .word, [⟨0, 38, .rov⟩]⟩,
  ⟨0xd02018, 0x100, 0x20, 1, 0, 64, .cold, 0, .word, [⟨0, 46, .rov⟩]⟩]

/-- The registers of JOB. -/
def regJob : List RegD := [
  ⟨0xe00000, 1, 0, 1, 0, 32, .warm, 0xff, .word, [⟨0, 8, .rov⟩]⟩,
  ⟨0xe00004, 1, 0, 1, 0, 32, .cold, 0xff, .word, [⟨0, 8, .ro⟩]⟩,
  ⟨0xe00100, 8, 0x10, 1, 0, 32, .warm, 0, .word, [⟨0, 2, .rov⟩, ⟨2, 5, .rov⟩, ⟨7, 4, .rov⟩]⟩,
  ⟨0xe00108, 8, 0x10, 1, 0, 64, .warm, 0, .word, [⟨0, 64, .rov⟩]⟩]

/-- The registers of PMU. -/
def regPmu : List RegD := [
  ⟨0x1000000, 1, 0, 1, 0, 32, .warm, 0, .word, [⟨0, 1, .rw⟩, ⟨1, 1, .wo⟩]⟩,
  ⟨0x1000008, 1, 0, 1, 0, 64, .warm, 0, .word, [⟨0, 44, .rov⟩]⟩,
  ⟨0x1001000, 0x2c, 0x200, 1, 0, 32, .warm, 0x3f, .word, [⟨0, 6, .rw⟩]⟩,
  ⟨0x1001004, 0x2c, 0x200, 1, 0, 32, .warm, 0, .word, [⟨0, 1, .rw⟩, ⟨1, 1, .wo⟩, ⟨2, 4, .rw⟩, ⟨6, 8, .rw1c⟩, ⟨14, 6, .rw⟩]⟩,
  ⟨0x1001008, 0x2c, 0x200, 1, 0, 32, .warm, 0, (.list [0, 16, 32, 48, 64, 80, 96, 112, 1, 17, 33, 49, 65, 81, 97, 113, 129, 145, 161, 177, 193, 209, 225, 241, 2, 18, 34, 50, 66, 82, 3, 19, 35, 51, 67, 83, 4, 20, 36, 52, 5, 6, 7, 8]), [⟨0, 4, .ro⟩, ⟨4, 4, .ro⟩]⟩,
  ⟨0x1001010, 0x2c, 0x200, 1, 0, 64, .warm, 0, .word, [⟨0, 64, .rw⟩]⟩,
  ⟨0x1001040, 0x2c, 0x200, 8, 4, 32, .warm, 0, .word, [⟨0, 8, .rw⟩, ⟨8, 3, .rw⟩, ⟨11, 1, .rw⟩, ⟨12, 3, .rw⟩, ⟨15, 1, .rw⟩, ⟨16, 1, .rw⟩]⟩,
  ⟨0x1001080, 0x2c, 0x200, 8, 8, 64, .warm, 0, .word, [⟨0, 48, .rw⟩]⟩,
  ⟨0x1001100, 0x2c, 0x200, 1, 0, 64, .warm, 0, .word, [⟨0, 64, .rov⟩]⟩,
  ⟨0x1001108, 0x2c, 0x200, 8, 8, 64, .warm, 0, .word, [⟨0, 48, .rov⟩]⟩,
  ⟨0x1008000, 0x20, 0x20, 1, 0, 32, .warm, 0x10000, .word, [⟨0, 16, .rw⟩, ⟨16, 3, .rw⟩, ⟨19, 8, .rw⟩, ⟨27, 2, .rw⟩]⟩,
  ⟨0x1008008, 0x20, 0x20, 1, 0, 64, .warm, 0, .word, [⟨0, 32, .rov⟩, ⟨32, 16, .rov⟩, ⟨48, 16, .rov⟩]⟩]

/-- The registers of RING. -/
def regRing : List RegD := [
  ⟨0x1100000, 1, 0, 1, 0, 32, .warm, 0, .word, [⟨0, 3, .rw⟩, ⟨3, 1, .rw⟩]⟩,
  ⟨0x1100100, 8, 0x80, 1, 0, 32, .warm, 0x3f, .word, [⟨0, 6, .rw⟩]⟩,
  ⟨0x1100104, 8, 0x80, 1, 0, 32, .warm, 0, .word, [⟨0, 1, .rw⟩, ⟨1, 7, .rw⟩, ⟨8, 14, .rw⟩, ⟨22, 6, .rw⟩]⟩,
  ⟨0x1100108, 8, 0x80, 1, 0, 64, .warm, 0, .word, [⟨0, 14, .rov⟩, ⟨16, 14, .rw⟩, ⟨32, 14, .rov⟩]⟩,
  ⟨0x1100110, 8, 0x80, 1, 0, 64, .warm, 0, .word, [⟨0, 16, .rov⟩, ⟨16, 8, .rov⟩, ⟨24, 1, .rw1c⟩, ⟨25, 1, .rw1c⟩, ⟨26, 1, .rw1c⟩, ⟨32, 32, .rov⟩]⟩,
  ⟨0x1100118, 8, 0x80, 1, 0, 64, .warm, 0x1d1e000000000000, .word, [⟨0, 64, .rov⟩]⟩,
  ⟨0x1100120, 8, 0x80, 1, 0, 32, .warm, 0, .word, [⟨0, 16, .rov⟩]⟩,
  ⟨0x1100128, 8, 0x80, 1, 0, 64, .warm, 0, .word, [⟨0, 46, .rwl⟩]⟩,
  ⟨0x1100130, 8, 0x80, 1, 0, 32, .warm, 0, .word, [⟨0, 5, .rwl⟩]⟩,
  ⟨0x1100138, 8, 0x80, 1, 0, 64, .warm, 0, .word, [⟨0, 64, .rov⟩]⟩,
  ⟨0x1104000, 8, 0x4000, 0x2000, 2, 16, .warm, 0, .word, [⟨0, 16, .ro⟩]⟩,
  ⟨0x1180000, 8, 0x10000, 0x2000, 8, 64, .warm, 0, .word, [⟨0, 64, .ro⟩]⟩]

/-- The registers of MGT. -/
def regMgt : List RegD := [
  ⟨0x1200000, 1, 0, 1, 0, 32, .cold, 2, .word, [⟨0, 1, .rov⟩, ⟨1, 2, .rov⟩, ⟨3, 1, .rov⟩, ⟨4, 1, .rov⟩, ⟨5, 1, .rov⟩, ⟨6, 16, .rov⟩]⟩,
  ⟨0x1200004, 1, 0, 1, 0, 32, .cold, 0, .word, [⟨0, 32, .rwc⟩]⟩,
  ⟨0x1200008, 1, 0, 1, 0, 32, .cold, 0, .word, [⟨0, 16, .rov⟩, ⟨16, 8, .rov⟩, ⟨24, 8, .rov⟩]⟩,
  ⟨0x120000c, 1, 0, 1, 0, 32, .cold, 0xffffffff, .word, [⟨0, 32, .rwc⟩]⟩,
  ⟨0x1200020, 1, 0, 1, 0, 256, .cold, 0, .word, [⟨0, 256, .rwl⟩]⟩]

/-- The registers of the doorbell pages. -/
def regJdb : List RegD := [
  ⟨0x2000000, 0x20, 0x100000, 0x10, 0x1000, 32, .head, 0, .word, [⟨0, 32, .rw⟩]⟩,
  ⟨0x2000004, 0x20, 0x100000, 0x10, 0x1000, 32, .head, 0, .word, [⟨0, 32, .rov⟩]⟩,
  ⟨0x2000008, 0x20, 0x100000, 0x10, 0x1000, 32, .head, 0, .word, [⟨0, 32, .rw⟩]⟩,
  ⟨0x200000c, 0x20, 0x100000, 0x10, 0x1000, 32, .head, 0, .word, [⟨0, 32, .rov⟩]⟩,
  ⟨0x2000010, 0x20, 0x100000, 0x10, 0x1000, 32, .head, 0, .word, [⟨0, 1, .rw⟩, ⟨1, 1, .rw1s⟩, ⟨2, 5, .rwl⟩, ⟨7, 5, .rwl⟩, ⟨12, 6, .rwl⟩]⟩,
  ⟨0x2000018, 0x20, 0x100000, 0x10, 0x1000, 64, .head, 0, .word, [⟨0, 46, .rwl⟩]⟩,
  ⟨0x2000020, 0x20, 0x100000, 0x10, 0x1000, 64, .head, 0, .word, [⟨0, 46, .rwl⟩]⟩,
  ⟨0x2000028, 0x20, 0x100000, 0x10, 0x1000, 32, .head, 0, .word, [⟨0, 2, .rov⟩, ⟨2, 3, .rov⟩, ⟨5, 3, .rov⟩, ⟨8, 4, .rov⟩]⟩,
  ⟨0x2000030, 0x20, 0x100000, 0x10, 0x1000, 64, .head, 0, .word, [⟨0, 46, .rov⟩, ⟨48, 16, .rov⟩]⟩]

/-- The registers of the port DVSECs. -/
def regPdv : List RegD := [
  ⟨0x800000c, 0x20, 0x1000, 1, 0, 32, .head, 0, .port, [⟨0, 5, .rov⟩, ⟨8, 2, .rov⟩, ⟨10, 5, .rov⟩, ⟨15, 3, .rov⟩, ⟨18, 2, .rov⟩, ⟨20, 1, .rov⟩, ⟨21, 2, .rov⟩, ⟨23, 1, .rov⟩]⟩,
  ⟨0x8000010, 0x20, 0x1000, 1, 0, 32, .head, 0, .word, [⟨0, 2, .rov⟩, ⟨2, 1, .rov⟩, ⟨3, 1, .rov⟩, ⟨4, 1, .rov⟩, ⟨5, 1, .rov⟩, ⟨8, 8, .rov⟩]⟩,
  ⟨0x8000014, 0x20, 0x1000, 1, 0, 32, .head, 0, .word, [⟨0, 16, .rov⟩, ⟨16, 8, .rov⟩, ⟨24, 1, .rw1c⟩, ⟨25, 1, .rw1c⟩]⟩,
  ⟨0x8000100, 0x20, 0x1000, 0x20, 8, 32, .head, 0, .word, [⟨0, 6, .rwl⟩, ⟨6, 1, .rov⟩]⟩,
  ⟨0x8000104, 0x20, 0x1000, 0x20, 8, 32, .head, 0xfac688, .word, [⟨0, 24, .rov⟩, ⟨24, 3, .rov⟩]⟩]

/-- Every complement-checked pair, in offset order. -/
def pairMap : List PairD := [
  ⟨0x100, 0x104, 1, 0⟩,
  ⟨0x100000, 0x100004, 1, 0⟩,
  ⟨0x101000, 0x101400, 0xa0, 4⟩,
  ⟨0x300000, 0x300004, 1, 0⟩,
  ⟨0x401008, 0x40100c, 0x30, 0x40⟩,
  ⟨0x401010, 0x401014, 0x30, 0x40⟩,
  ⟨0x501000, 0x501020, 0x100, 0x40⟩,
  ⟨0x501004, 0x501024, 0x100, 0x40⟩,
  ⟨0x501008, 0x501028, 0x100, 0x40⟩,
  ⟨0x50100c, 0x50102c, 0x100, 0x40⟩,
  ⟨0x501010, 0x501030, 0x100, 0x40⟩,
  ⟨0x501014, 0x501034, 0x100, 0x40⟩,
  ⟨0xa01000, 0xa01010, 0x10, 0x100⟩,
  ⟨0xa01004, 0xa01014, 0x10, 0x100⟩,
  ⟨0xa01008, 0xa01018, 0x10, 0x100⟩,
  ⟨0xa0100c, 0xa0101c, 0x10, 0x100⟩,
  ⟨0x1200004, 0x120000c, 1, 0⟩]

/-- A register of the map at a key: its row and its two indices. -/
structure RegAt where
  r : RegD
  i : Nat
  j : Nat
deriving DecidableEq, Repr

/-- Whether register array r covers offset k, and at which indices; a register wider than 64 bits covers each of its words. -/
def RegD.at? (r : RegD) (k : Nat) : Option RegAt :=
  if k < r.base then none
  else
    let d := k - r.base
    let i := if r.s1 = 0 then 0 else d / r.s1
    let e := if r.s1 = 0 then d else d % r.s1
    let j := if r.s2 = 0 then 0 else e / r.s2
    let x := if r.s2 = 0 then e else e % r.s2
    if i < r.n1 && j < r.n2 && x < r.width / 8 then some ⟨r, i, j⟩ else none

/-- The registers of the block at offset k (Table 1.8), the port DVSECs above BAR2. -/
def blockRegs (k : Nat) : List RegD :=
  let u := k / 0x100000
  if u < 8 then
    if u < 4 then (if u = 0 then regTop else if u = 1 then regFlt else if u = 2 then regPwr else regThm)
    else (if u = 4 then regSlt else if u = 5 then regWin else regHome)
  else if u < 14 then (if u < 10 then regMch else if u = 10 then regSec else if u = 11 then regCdc else if u = 12 then regQos else regPair)
  else if u < 32 then (if u < 16 then regJob else if u = 16 then regPmu else if u = 17 then regRing else if u = 18 then regMgt else [])
  else if u < 64 then regJdb
  else if u < 128 then []
  else regPdv

/-- The register whose bytes hold offset k (R28). -/
def regAt (k : Nat) : Option RegAt := (blockRegs k).findSome? (fun r => r.at? k)

/-- The offset of a register's first byte. -/
def RegAt.key (a : RegAt) : Nat := a.r.base + a.i * a.r.s1 + a.j * a.r.s2

/-- The reset value of a register. -/
def RegAt.reset (a : RegAt) : Nat :=
  match a.r.rst with
  | .word => a.r.word
  | .list l => l.getD a.i 0
  | .react => reactWord a.i
  | .reactC => 0xffffffff - reactWord a.i
  | .srcinfo => srcinfoWord a.i
  | .port => a.r.word + a.i

/-- What a register that the register file does not list holds: its reset value, 0 where no register stands. -/
def resetWord (k : Nat) : Nat :=
  match regAt k with
  | some a => if a.key = k then a.reset else 0
  | none => 0

/-- The reset domain of the register at k, with the port or head that owns it. -/
def domAt (k : Nat) : RDom × Nat :=
  match regAt k with
  | some a => (a.r.dom, a.i)
  | none => (.aon, 0)

end Sys2Proof.Machine
end

