-- ==== Sys2Proof/Machine/Regs.lean ====
section
/-! DEFINITION. The name of every register (its key in the register file) and of every field, from the register
tables of the manual. -/

namespace Sys2Proof.Machine

/-- A field: the key of its register, its low bit, its width. -/
structure Fld where
  reg : Nat
  lo : Nat
  w : Nat
deriving DecidableEq, Repr

/-- TOP_ID: offset of the register. -/
def rTOP_ID : Nat := 0
def fTOP_ID_VENDOR : Fld := ⟨rTOP_ID, 0, 16⟩
def fTOP_ID_DEVICE : Fld := ⟨rTOP_ID, 16, 16⟩
/-- TOP_STEP: offset of the register. -/
def rTOP_STEP : Nat := 4
def fTOP_STEP_STEPPING : Fld := ⟨rTOP_STEP, 0, 8⟩
def fTOP_STEP_CODE : Fld := ⟨rTOP_STEP, 8, 1⟩
/-- TOP_RST_STS: offset of the register. -/
def rTOP_RST_STS : Nat := 8
def fTOP_RST_STS_CAUSE : Fld := ⟨rTOP_RST_STS, 0, 3⟩
def fTOP_RST_STS_FAULT_SEEN : Fld := ⟨rTOP_RST_STS, 3, 1⟩
def fTOP_RST_STS_WARMS : Fld := ⟨rTOP_RST_STS, 4, 16⟩
/-- TOP_CSR_WRGRANT: offset of the register. -/
def rTOP_CSR_WRGRANT : Nat := 0x100
def fTOP_CSR_WRGRANT_HEAD : Fld := ⟨rTOP_CSR_WRGRANT, 0, 32⟩
/-- TOP_CSR_WRGRANT_C: offset of the register. -/
def rTOP_CSR_WRGRANT_C : Nat := 0x104
def fTOP_CSR_WRGRANT_C_HEAD_C : Fld := ⟨rTOP_CSR_WRGRANT_C, 0, 32⟩
/-- FLT_GLOBAL: offset of the register. -/
def rFLT_GLOBAL : Nat := 0x100000
def fFLT_GLOBAL_ESC_US : Fld := ⟨rFLT_GLOBAL, 0, 17⟩
def fFLT_GLOBAL_FN_SEV : Fld := ⟨rFLT_GLOBAL, 17, 3⟩
/-- FLT_GLOBAL_C: offset of the register. -/
def rFLT_GLOBAL_C : Nat := 0x100004
def fFLT_GLOBAL_C_C : Fld := ⟨rFLT_GLOBAL_C, 0, 32⟩
/-- FLT_STS: offset of the register. -/
def rFLT_STS : Nat := 0x100008
def fFLT_STS_BASIC : Fld := ⟨rFLT_STS, 0, 1⟩
def fFLT_STS_FATAL : Fld := ⟨rFLT_STS, 1, 1⟩
def fFLT_STS_HELD : Fld := ⟨rFLT_STS, 2, 7⟩
/-- FLT_CTL: offset of the register. -/
def rFLT_CTL : Nat := 0x10000c
def fFLT_CTL_RING : Fld := ⟨rFLT_CTL, 0, 3⟩
def fFLT_CTL_C_RATE : Fld := ⟨rFLT_CTL, 3, 10⟩
/-- FLT_DROP: offset of the register. -/
def rFLT_DROP : Nat := 0x100010
def fFLT_DROP_RATE : Fld := ⟨rFLT_DROP, 0, 32⟩
def fFLT_DROP_FULL : Fld := ⟨rFLT_DROP, 32, 32⟩
/-- FLT_WDROP: offset of the register. -/
def rFLT_WDROP : Nat := 0x100018
def fFLT_WDROP_COUNT : Fld := ⟨rFLT_WDROP, 0, 64⟩
/-- FLT_NEXT: offset of the register. -/
def rFLT_NEXT : Nat := 0x100020
def fFLT_NEXT_NUM : Fld := ⟨rFLT_NEXT, 0, 64⟩
/-- FLT_REACTk: offset of the register. -/
def rFLT_REACT (k : Nat) : Nat := 0x101000 + k * 4
def fFLT_REACT_SRCS (k : Nat) : Fld := ⟨rFLT_REACT k, 0, 32⟩
/-- FLT_REACTk_C: offset of the register. -/
def rFLT_REACT_C (k : Nat) : Nat := 0x101400 + k * 4
def fFLT_REACT_C_C (k : Nat) : Fld := ⟨rFLT_REACT_C k, 0, 32⟩
/-- FLT_RECk: offset of the register. -/
def rFLT_REC (k : Nat) : Nat := 0x102000 + k * 0x40
def fFLT_REC_RECORD (k : Nat) : Fld := ⟨rFLT_REC k, 0, 448⟩
/-- FLT_RECk_CTL: offset of the register. -/
def rFLT_REC_CTL (k : Nat) : Nat := 0x102038 + k * 0x40
def fFLT_REC_CTL_VALID (k : Nat) : Fld := ⟨rFLT_REC_CTL k, 0, 1⟩
def fFLT_REC_CTL_ACK (k : Nat) : Fld := ⟨rFLT_REC_CTL k, 1, 1⟩
def fFLT_REC_CTL_ESCALATED (k : Nat) : Fld := ⟨rFLT_REC_CTL k, 2, 1⟩
/-- FLT_SRCINFOk: offset of the register. -/
def rFLT_SRCINFO (k : Nat) : Nat := 0x104000 + k * 4
def fFLT_SRCINFO_INFO (k : Nat) : Fld := ⟨rFLT_SRCINFO k, 0, 32⟩
/-- PWR_PSTS: offset of the register. -/
def rPWR_PSTS : Nat := 0x200000
def fPWR_PSTS_CUR : Fld := ⟨rPWR_PSTS, 0, 2⟩
def fPWR_PSTS_TARGET : Fld := ⟨rPWR_PSTS, 2, 2⟩
def fPWR_PSTS_FW_REQ : Fld := ⟨rPWR_PSTS, 4, 2⟩
def fPWR_PSTS_THERM_REQ : Fld := ⟨rPWR_PSTS, 6, 2⟩
def fPWR_PSTS_BASIC_REQ : Fld := ⟨rPWR_PSTS, 8, 1⟩
def fPWR_PSTS_BUSY : Fld := ⟨rPWR_PSTS, 9, 1⟩
/-- PWR_LIMITS: offset of the register. -/
def rPWR_LIMITS : Nat := 0x200004
def fPWR_LIMITS_FASTEST : Fld := ⟨rPWR_LIMITS, 0, 2⟩
def fPWR_LIMITS_SLOWEST : Fld := ⟨rPWR_LIMITS, 2, 2⟩
def fPWR_LIMITS_DEEPEST : Fld := ⟨rPWR_LIMITS, 4, 2⟩
/-- PWR_SLEEP_STS: offset of the register. -/
def rPWR_SLEEP_STS : Nat := 0x200008
def fPWR_SLEEP_STS_STATE : Fld := ⟨rPWR_SLEEP_STS, 0, 2⟩
def fPWR_SLEEP_STS_LAST_WAKE : Fld := ⟨rPWR_SLEEP_STS, 2, 4⟩
def fPWR_SLEEP_STS_BLOCK : Fld := ⟨rPWR_SLEEP_STS, 6, 3⟩
def fPWR_SLEEP_STS_ABORTED : Fld := ⟨rPWR_SLEEP_STS, 9, 1⟩
/-- PWR_WAKE_CTL: offset of the register. -/
def rPWR_WAKE_CTL : Nat := 0x20000c
def fPWR_WAKE_CTL_WAKEN_EN : Fld := ⟨rPWR_WAKE_CTL, 0, 1⟩
def fPWR_WAKE_CTL_SMB_EN : Fld := ⟨rPWR_WAKE_CTL, 1, 1⟩
def fPWR_WAKE_CTL_TIMER_MODE : Fld := ⟨rPWR_WAKE_CTL, 2, 1⟩
/-- PWR_TIMER: offset of the register. -/
def rPWR_TIMER : Nat := 0x200010
def fPWR_TIMER_MS : Fld := ⟨rPWR_TIMER, 0, 32⟩
/-- PWR_DOM_STS: offset of the register. -/
def rPWR_DOM_STS : Nat := 0x200018
def fPWR_DOM_STS_ON : Fld := ⟨rPWR_DOM_STS, 0, 56⟩
/-- PWR_ENTRIES: offset of the register. -/
def rPWR_ENTRIES : Nat := 0x200020
def fPWR_ENTRIES_S1 : Fld := ⟨rPWR_ENTRIES, 0, 16⟩
def fPWR_ENTRIES_S2 : Fld := ⟨rPWR_ENTRIES, 16, 16⟩
def fPWR_ENTRIES_S3 : Fld := ⟨rPWR_ENTRIES, 32, 16⟩
def fPWR_ENTRIES_ABORTS : Fld := ⟨rPWR_ENTRIES, 48, 16⟩
/-- THM_THRESH: offset of the register. -/
def rTHM_THRESH : Nat := 0x300000
def fTHM_THRESH_WARN : Fld := ⟨rTHM_THRESH, 0, 8⟩
def fTHM_THRESH_THROTTLE : Fld := ⟨rTHM_THRESH, 8, 8⟩
def fTHM_THRESH_SHUTDOWN : Fld := ⟨rTHM_THRESH, 16, 8⟩
def fTHM_THRESH_HYST : Fld := ⟨rTHM_THRESH, 24, 4⟩
/-- THM_THRESH_C: offset of the register. -/
def rTHM_THRESH_C : Nat := 0x300004
def fTHM_THRESH_C_C : Fld := ⟨rTHM_THRESH_C, 0, 32⟩
/-- THM_CTL: offset of the register. -/
def rTHM_CTL : Nat := 0x300008
def fTHM_CTL_GRACE_US : Fld := ⟨rTHM_CTL, 0, 14⟩
def fTHM_CTL_STEP_MS : Fld := ⟨rTHM_CTL, 14, 6⟩
def fTHM_CTL_RELAX_MS : Fld := ⟨rTHM_CTL, 20, 7⟩
/-- THM_STS: offset of the register. -/
def rTHM_STS : Nat := 0x30000c
def fTHM_STS_TMAX : Fld := ⟨rTHM_STS, 0, 11⟩
def fTHM_STS_HOT : Fld := ⟨rTHM_STS, 11, 5⟩
def fTHM_STS_STAGE : Fld := ⟨rTHM_STS, 16, 2⟩
def fTHM_STS_WARN : Fld := ⟨rTHM_STS, 18, 1⟩
def fTHM_STS_THROT : Fld := ⟨rTHM_STS, 19, 1⟩
def fTHM_STS_DEVLOAD : Fld := ⟨rTHM_STS, 20, 1⟩
def fTHM_STS_FAST : Fld := ⟨rTHM_STS, 21, 1⟩
def fTHM_STS_VALID : Fld := ⟨rTHM_STS, 22, 6⟩
def fTHM_STS_DIMM_HOT : Fld := ⟨rTHM_STS, 28, 1⟩
/-- THM_SENSk: offset of the register. -/
def rTHM_SENS (k : Nat) : Nat := 0x300100 + k * 4
def fTHM_SENS_TEMP (k : Nat) : Fld := ⟨rTHM_SENS k, 0, 11⟩
def fTHM_SENS_FAILED (k : Nat) : Fld := ⟨rTHM_SENS k, 11, 1⟩
/-- THM_STAGEk: offset of the register. -/
def rTHM_STAGE (k : Nat) : Nat := 0x300200 + k * 4
def fTHM_STAGE_PLEVEL (k : Nat) : Fld := ⟨rTHM_STAGE k, 0, 2⟩
def fTHM_STAGE_CAP_PM (k : Nat) : Fld := ⟨rTHM_STAGE k, 2, 10⟩
/-- THM_LEDGER: offset of the register. -/
def rTHM_LEDGER : Nat := 0x300310
def fTHM_LEDGER_COUNT : Fld := ⟨rTHM_LEDGER, 0, 7⟩
def fTHM_LEDGER_PENDING : Fld := ⟨rTHM_LEDGER, 7, 1⟩
/-- SLT_PRESENT: offset of the register. -/
def rSLT_PRESENT : Nat := 0x400000
def fSLT_PRESENT_SLOTS : Fld := ⟨rSLT_PRESENT, 0, 48⟩
/-- SLT_ON: offset of the register. -/
def rSLT_ON : Nat := 0x400008
def fSLT_ON_SLOTS : Fld := ⟨rSLT_ON, 0, 48⟩
/-- SLTs_STS: offset of the register. -/
def rSLT_STS (s : Nat) : Nat := 0x401000 + s * 0x40
def fSLT_STS_STATE (s : Nat) : Fld := ⟨rSLT_STS s, 0, 3⟩
def fSLT_STS_PWREN (s : Nat) : Fld := ⟨rSLT_STS s, 3, 1⟩
def fSLT_STS_PRESENT (s : Nat) : Fld := ⟨rSLT_STS s, 4, 1⟩
def fSLT_STS_TSNS_OK (s : Nat) : Fld := ⟨rSLT_STS s, 5, 1⟩
def fSLT_STS_CAUSE (s : Nat) : Fld := ⟨rSLT_STS s, 6, 4⟩
/-- SLTs_LIM0: offset of the register. -/
def rSLT_LIM0 (s : Nat) : Nat := 0x401008 + s * 0x40
def fSLT_LIM0_ILIM (s : Nat) : Fld := ⟨rSLT_LIM0 s, 0, 10⟩
def fSLT_LIM0_BRK_MS (s : Nat) : Fld := ⟨rSLT_LIM0 s, 10, 6⟩
def fSLT_LIM0_RAMP_MS (s : Nat) : Fld := ⟨rSLT_LIM0 s, 16, 5⟩
def fSLT_LIM0_TSNS (s : Nat) : Fld := ⟨rSLT_LIM0 s, 21, 1⟩
def fSLT_LIM0_RDS (s : Nat) : Fld := ⟨rSLT_LIM0 s, 22, 8⟩
/-- SLTs_LIM0_C: offset of the register. -/
def rSLT_LIM0_C (s : Nat) : Nat := 0x40100c + s * 0x40
def fSLT_LIM0_C_C (s : Nat) : Fld := ⟨rSLT_LIM0_C s, 0, 32⟩
/-- SLTs_LIM1: offset of the register. -/
def rSLT_LIM1 (s : Nat) : Nat := 0x401010 + s * 0x40
def fSLT_LIM1_RTH (s : Nat) : Fld := ⟨rSLT_LIM1 s, 0, 8⟩
def fSLT_LIM1_TAU_MS (s : Nat) : Fld := ⟨rSLT_LIM1 s, 8, 8⟩
def fSLT_LIM1_TTRIP (s : Nat) : Fld := ⟨rSLT_LIM1 s, 16, 8⟩
def fSLT_LIM1_TCOOL (s : Nat) : Fld := ⟨rSLT_LIM1 s, 24, 8⟩
/-- SLTs_LIM1_C: offset of the register. -/
def rSLT_LIM1_C (s : Nat) : Nat := 0x401014 + s * 0x40
def fSLT_LIM1_C_C (s : Nat) : Fld := ⟨rSLT_LIM1_C s, 0, 32⟩
/-- SLTs_MEAS: offset of the register. -/
def rSLT_MEAS (s : Nat) : Nat := 0x401020 + s * 0x40
def fSLT_MEAS_CURRENT (s : Nat) : Fld := ⟨rSLT_MEAS s, 0, 12⟩
def fSLT_MEAS_VOUT (s : Nat) : Fld := ⟨rSLT_MEAS s, 12, 12⟩
def fSLT_MEAS_TEMP (s : Nat) : Fld := ⟨rSLT_MEAS s, 24, 11⟩
/-- SLTs_EVT: offset of the register. -/
def rSLT_EVT (s : Nat) : Nat := 0x401028 + s * 0x40
def fSLT_EVT_TRIPS (s : Nat) : Fld := ⟨rSLT_EVT s, 0, 8⟩
def fSLT_EVT_ENABLES (s : Nat) : Fld := ⟨rSLT_EVT s, 8, 8⟩
def fSLT_EVT_PRESENCE (s : Nat) : Fld := ⟨rSLT_EVT s, 16, 8⟩
/-- WIN_CTL: offset of the register. -/
def rWIN_CTL : Nat := 0x500000
def fWIN_CTL_MAP_LOCK : Fld := ⟨rWIN_CTL, 0, 1⟩
/-- WIN_STS: offset of the register. -/
def rWIN_STS : Nat := 0x500004
def fWIN_STS_VALID_N : Fld := ⟨rWIN_STS, 0, 9⟩
def fWIN_STS_CMP_ERR : Fld := ⟨rWIN_STS, 9, 1⟩
def fWIN_STS_MISS : Fld := ⟨rWIN_STS, 10, 1⟩
def fWIN_STS_MAP_ERR : Fld := ⟨rWIN_STS, 11, 1⟩
/-- WIN_SHARED_BYTES: offset of the register. -/
def rWIN_SHARED_BYTES : Nat := 0x500008
def fWIN_SHARED_BYTES_BYTES : Fld := ⟨rWIN_SHARED_BYTES, 0, 64⟩
/-- WIN_GEOM: offset of the register. -/
def rWIN_GEOM : Nat := 0x500010
def fWIN_GEOM_DENSITY : Fld := ⟨rWIN_GEOM, 0, 2⟩
def fWIN_GEOM_RANKB : Fld := ⟨rWIN_GEOM, 2, 2⟩
def fWIN_GEOM_DIMMB : Fld := ⟨rWIN_GEOM, 4, 1⟩
def fWIN_GEOM_ROWB : Fld := ⟨rWIN_GEOM, 5, 5⟩
def fWIN_GEOM_AWIDTH : Fld := ⟨rWIN_GEOM, 10, 6⟩
/-- WIN_MISS_DPA: offset of the register. -/
def rWIN_MISS_DPA : Nat := 0x500018
def fWIN_MISS_DPA_DPA : Fld := ⟨rWIN_MISS_DPA, 0, 46⟩
def fWIN_MISS_DPA_HEAD : Fld := ⟨rWIN_MISS_DPA, 59, 5⟩
/-- WIN_BANKHASHk_LO: offset of the register. -/
def rWIN_BANKHASH_LO (k : Nat) : Nat := 0x500100 + k * 8
def fWIN_BANKHASH_LO_MASK_LO (k : Nat) : Fld := ⟨rWIN_BANKHASH_LO k, 0, 32⟩
/-- WIN_BANKHASHk_HI: offset of the register. -/
def rWIN_BANKHASH_HI (k : Nat) : Nat := 0x500104 + k * 8
def fWIN_BANKHASH_HI_MASK_HI (k : Nat) : Fld := ⟨rWIN_BANKHASH_HI k, 0, 16⟩
/-- WIN_ENTn_W0: offset of the register. -/
def rWIN_ENT_W0 (n : Nat) : Nat := 0x501000 + n * 0x40
def fWIN_ENT_W0_VALID (n : Nat) : Fld := ⟨rWIN_ENT_W0 n, 0, 1⟩
def fWIN_ENT_W0_KIND (n : Nat) : Fld := ⟨rWIN_ENT_W0 n, 1, 2⟩
def fWIN_ENT_W0_SHARED (n : Nat) : Fld := ⟨rWIN_ENT_W0 n, 3, 1⟩
def fWIN_ENT_W0_MIRRORED (n : Nat) : Fld := ⟨rWIN_ENT_W0 n, 4, 1⟩
def fWIN_ENT_W0_MMODE (n : Nat) : Fld := ⟨rWIN_ENT_W0 n, 5, 1⟩
def fWIN_ENT_W0_HEADLOSS (n : Nat) : Fld := ⟨rWIN_ENT_W0 n, 6, 1⟩
def fWIN_ENT_W0_KR (n : Nat) : Fld := ⟨rWIN_ENT_W0 n, 8, 4⟩
def fWIN_ENT_W0_INTEG (n : Nat) : Fld := ⟨rWIN_ENT_W0 n, 12, 2⟩
def fWIN_ENT_W0_ALIASES (n : Nat) : Fld := ⟨rWIN_ENT_W0 n, 14, 3⟩
def fWIN_ENT_W0_DCR (n : Nat) : Fld := ⟨rWIN_ENT_W0 n, 17, 3⟩
/-- WIN_ENTn_W1: offset of the register. -/
def rWIN_ENT_W1 (n : Nat) : Nat := 0x501004 + n * 0x40
def fWIN_ENT_W1_BASE (n : Nat) : Fld := ⟨rWIN_ENT_W1 n, 0, 25⟩
/-- WIN_ENTn_W2: offset of the register. -/
def rWIN_ENT_W2 (n : Nat) : Nat := 0x501008 + n * 0x40
def fWIN_ENT_W2_SIZE (n : Nat) : Fld := ⟨rWIN_ENT_W2 n, 0, 25⟩
/-- WIN_ENTn_W3: offset of the register. -/
def rWIN_ENT_W3 (n : Nat) : Nat := 0x50100c + n * 0x40
def fWIN_ENT_W3_HEADS (n : Nat) : Fld := ⟨rWIN_ENT_W3 n, 0, 32⟩
/-- WIN_ENTn_W4: offset of the register. -/
def rWIN_ENT_W4 (n : Nat) : Nat := 0x501010 + n * 0x40
def fWIN_ENT_W4_MBASE (n : Nat) : Fld := ⟨rWIN_ENT_W4 n, 0, 23⟩
/-- WIN_ENTn_W5: offset of the register. -/
def rWIN_ENT_W5 (n : Nat) : Nat := 0x501014 + n * 0x40
def fWIN_ENT_W5_PSHARE (n : Nat) : Fld := ⟨rWIN_ENT_W5 n, 0, 23⟩
/-- WIN_ENTn_W0_C: offset of the register. -/
def rWIN_ENT_W0_C (n : Nat) : Nat := 0x501020 + n * 0x40
def fWIN_ENT_W0_C_C (n : Nat) : Fld := ⟨rWIN_ENT_W0_C n, 0, 32⟩
/-- WIN_ENTn_W1_C: offset of the register. -/
def rWIN_ENT_W1_C (n : Nat) : Nat := 0x501024 + n * 0x40
def fWIN_ENT_W1_C_C (n : Nat) : Fld := ⟨rWIN_ENT_W1_C n, 0, 32⟩
/-- WIN_ENTn_W2_C: offset of the register. -/
def rWIN_ENT_W2_C (n : Nat) : Nat := 0x501028 + n * 0x40
def fWIN_ENT_W2_C_C (n : Nat) : Fld := ⟨rWIN_ENT_W2_C n, 0, 32⟩
/-- WIN_ENTn_W3_C: offset of the register. -/
def rWIN_ENT_W3_C (n : Nat) : Nat := 0x50102c + n * 0x40
def fWIN_ENT_W3_C_C (n : Nat) : Fld := ⟨rWIN_ENT_W3_C n, 0, 32⟩
/-- WIN_ENTn_W4_C: offset of the register. -/
def rWIN_ENT_W4_C (n : Nat) : Nat := 0x501030 + n * 0x40
def fWIN_ENT_W4_C_C (n : Nat) : Fld := ⟨rWIN_ENT_W4_C n, 0, 32⟩
/-- WIN_ENTn_W5_C: offset of the register. -/
def rWIN_ENT_W5_C (n : Nat) : Nat := 0x501034 + n * 0x40
def fWIN_ENT_W5_C_C (n : Nat) : Fld := ⟨rWIN_ENT_W5_C n, 0, 32⟩
/-- HOME_BI_TMO: offset of the register. -/
def rHOME_BI_TMO : Nat := 0x600000
def fHOME_BI_TMO_TMO_US : Fld := ⟨rHOME_BI_TMO, 0, 17⟩
/-- HOME_STS: offset of the register. -/
def rHOME_STS : Nat := 0x600004
def fHOME_STS_DIR_ERR : Fld := ⟨rHOME_STS, 0, 1⟩
def fHOME_STS_BI_TMO : Fld := ⟨rHOME_STS, 1, 1⟩
def fHOME_STS_UNCOMMIT_HELD : Fld := ⟨rHOME_STS, 2, 1⟩
/-- HOME_DEAD: offset of the register. -/
def rHOME_DEAD : Nat := 0x600008
def fHOME_DEAD_HEAD : Fld := ⟨rHOME_DEAD, 0, 32⟩
/-- HOME_SWEEP: offset of the register. -/
def rHOME_SWEEP : Nat := 0x60000c
def fHOME_SWEEP_RATE : Fld := ⟨rHOME_SWEEP, 0, 7⟩
def fHOME_SWEEP_WINDOW : Fld := ⟨rHOME_SWEEP, 8, 8⟩
def fHOME_SWEEP_ACTIVE : Fld := ⟨rHOME_SWEEP, 16, 1⟩
/-- HOME_WDOWN: offset of the register. -/
def rHOME_WDOWN (k : Nat) : Nat := 0x600020 + k * 4
def fHOME_WDOWN_DOWN (k : Nat) : Fld := ⟨rHOME_WDOWN k, 0, 32⟩
/-- HOME_SLICEs_STS: offset of the register. -/
def rHOME_SLICE_STS (s : Nat) : Nat := 0x600100 + s * 0x10
def fHOME_SLICE_STS_PTR (s : Nat) : Fld := ⟨rHOME_SLICE_STS s, 0, 5⟩
def fHOME_SLICE_STS_PINNED (s : Nat) : Fld := ⟨rHOME_SLICE_STS s, 8, 9⟩
def fHOME_SLICE_STS_RQ_N (s : Nat) : Fld := ⟨rHOME_SLICE_STS s, 17, 7⟩
def fHOME_SLICE_STS_RQ_HWM (s : Nat) : Fld := ⟨rHOME_SLICE_STS s, 24, 7⟩
/-- HOME_SLICEs_RQFULL: offset of the register. -/
def rHOME_SLICE_RQFULL (s : Nat) : Nat := 0x600108 + s * 0x10
def fHOME_SLICE_RQFULL_CYCLES (s : Nat) : Fld := ⟨rHOME_SLICE_RQFULL s, 0, 64⟩
/-- HOME_LOSTn: offset of the register. -/
def rHOME_LOST (n : Nat) : Nat := 0x601000 + n * 8
def fHOME_LOST_COUNT (n : Nat) : Fld := ⟨rHOME_LOST n, 0, 37⟩
/-- HOME_HELDh_n: offset of the register. -/
def rHOME_HELD (h : Nat) (n : Nat) : Nat := 0x608000 + h * 0x800 + n * 8
def fHOME_HELD_COUNT (h : Nat) (n : Nat) : Fld := ⟨rHOME_HELD h n, 0, 37⟩
/-- MCHn_CFG: offset of the register. -/
def rMCH_CFG (n : Nat) : Nat := 0x800000 + n * 0x10000
def fMCH_CFG_TYPE (n : Nat) : Fld := ⟨rMCH_CFG n, 0, 1⟩
def fMCH_CFG_DPC (n : Nat) : Fld := ⟨rMCH_CFG n, 1, 1⟩
def fMCH_CFG_RANKS (n : Nat) : Fld := ⟨rMCH_CFG n, 2, 2⟩
def fMCH_CFG_DENSITY (n : Nat) : Fld := ⟨rMCH_CFG n, 4, 1⟩
def fMCH_CFG_RATE (n : Nat) : Fld := ⟨rMCH_CFG n, 5, 8⟩
def fMCH_CFG_TRAINED (n : Nat) : Fld := ⟨rMCH_CFG n, 13, 1⟩
/-- MCHn_SCHED: offset of the register. -/
def rMCH_SCHED (n : Nat) : Nat := 0x800010 + n * 0x10000
def fMCH_SCHED_HWM (n : Nat) : Fld := ⟨rMCH_SCHED n, 0, 7⟩
def fMCH_SCHED_LWM (n : Nat) : Fld := ⟨rMCH_SCHED n, 7, 7⟩
def fMCH_SCHED_HIT_CAP (n : Nat) : Fld := ⟨rMCH_SCHED n, 14, 5⟩
def fMCH_SCHED_META_MIN (n : Nat) : Fld := ⟨rMCH_SCHED n, 19, 5⟩
def fMCH_SCHED_AGE_CAP (n : Nat) : Fld := ⟨rMCH_SCHED n, 24, 8⟩
/-- MCHn_REF: offset of the register. -/
def rMCH_REF (n : Nat) : Nat := 0x800020 + n * 0x10000
def fMCH_REF_MODE (n : Nat) : Fld := ⟨rMCH_REF n, 0, 1⟩
def fMCH_REF_POSTPONE (n : Nat) : Fld := ⟨rMCH_REF n, 1, 3⟩
def fMCH_REF_MR4_MS (n : Nat) : Fld := ⟨rMCH_REF n, 4, 7⟩
/-- MCHn_TRN: offset of the register. -/
def rMCH_TRN (n : Nat) : Nat := 0x800030 + n * 0x10000
def fMCH_TRN_OSC_US (n : Nat) : Fld := ⟨rMCH_TRN n, 0, 14⟩
def fMCH_TRN_ZQ_MS (n : Nat) : Fld := ⟨rMCH_TRN n, 14, 8⟩
def fMCH_TRN_DRIFT_C (n : Nat) : Fld := ⟨rMCH_TRN n, 22, 5⟩
def fMCH_TRN_RETRAIN_NOW (n : Nat) : Fld := ⟨rMCH_TRN n, 27, 1⟩
/-- MCHn_STS: offset of the register. -/
def rMCH_STS (n : Nat) : Nat := 0x800040 + n * 0x10000
def fMCH_STS_DRAIN (n : Nat) : Fld := ⟨rMCH_STS n, 0, 2⟩
def fMCH_STS_REFX (n : Nat) : Fld := ⟨rMCH_STS n, 2, 16⟩
def fMCH_STS_RETRAIN (n : Nat) : Fld := ⟨rMCH_STS n, 18, 8⟩
/-- MCHn_Qs: offset of the register. -/
def rMCH_Q (n : Nat) (s : Nat) : Nat := 0x800048 + n * 0x10000 + s * 8
def fMCH_Q_RDQ (n : Nat) (s : Nat) : Fld := ⟨rMCH_Q n s, 0, 7⟩
def fMCH_Q_WRQ (n : Nat) (s : Nat) : Fld := ⟨rMCH_Q n s, 7, 7⟩
def fMCH_Q_META (n : Nat) (s : Nat) : Fld := ⟨rMCH_Q n s, 14, 8⟩
/-- MCHn_ECC_STS: offset of the register. -/
def rMCH_ECC_STS (n : Nat) : Nat := 0x800060 + n * 0x10000
def fMCH_ECC_STS_UE (n : Nat) : Fld := ⟨rMCH_ECC_STS n, 0, 16⟩
def fMCH_ECC_STS_MARKERS (n : Nat) : Fld := ⟨rMCH_ECC_STS n, 16, 8⟩
def fMCH_ECC_STS_ROWEVT (n : Nat) : Fld := ⟨rMCH_ECC_STS n, 24, 1⟩
def fMCH_ECC_STS_BANKEVT (n : Nat) : Fld := ⟨rMCH_ECC_STS n, 25, 1⟩
def fMCH_ECC_STS_LANEEVT (n : Nat) : Fld := ⟨rMCH_ECC_STS n, 26, 1⟩
/-- MCHn_BRETk: offset of the register. -/
def rMCH_BRET (n : Nat) (k : Nat) : Nat := 0x800080 + n * 0x10000 + k * 4
def fMCH_BRET_VALID (n : Nat) (k : Nat) : Fld := ⟨rMCH_BRET n k, 0, 1⟩
def fMCH_BRET_SUB (n : Nat) (k : Nat) : Fld := ⟨rMCH_BRET n k, 1, 1⟩
def fMCH_BRET_RANK (n : Nat) (k : Nat) : Fld := ⟨rMCH_BRET n k, 2, 3⟩
def fMCH_BRET_BG (n : Nat) (k : Nat) : Fld := ⟨rMCH_BRET n k, 5, 3⟩
def fMCH_BRET_BANK (n : Nat) (k : Nat) : Fld := ⟨rMCH_BRET n k, 8, 2⟩
def fMCH_BRET_ALL (n : Nat) (k : Nat) : Fld := ⟨rMCH_BRET n k, 10, 1⟩
def fMCH_BRET_DEVICE (n : Nat) (k : Nat) : Fld := ⟨rMCH_BRET n k, 11, 4⟩
/-- MCHn_BCNTk: offset of the register. -/
def rMCH_BCNT (n : Nat) (k : Nat) : Nat := 0x801000 + n * 0x10000 + k * 4
def fMCH_BCNT_COUNT (n : Nat) (k : Nat) : Fld := ⟨rMCH_BCNT n k, 0, 16⟩
/-- MCHn_ROWk: offset of the register. -/
def rMCH_ROW (n : Nat) (k : Nat) : Nat := 0x802000 + n * 0x10000 + k * 8
def fMCH_ROW_ROW (n : Nat) (k : Nat) : Fld := ⟨rMCH_ROW n k, 0, 17⟩
def fMCH_ROW_SUB (n : Nat) (k : Nat) : Fld := ⟨rMCH_ROW n k, 17, 1⟩
def fMCH_ROW_RANK (n : Nat) (k : Nat) : Fld := ⟨rMCH_ROW n k, 18, 3⟩
def fMCH_ROW_BG (n : Nat) (k : Nat) : Fld := ⟨rMCH_ROW n k, 21, 3⟩
def fMCH_ROW_BANK (n : Nat) (k : Nat) : Fld := ⟨rMCH_ROW n k, 24, 2⟩
def fMCH_ROW_DEVICE (n : Nat) (k : Nat) : Fld := ⟨rMCH_ROW n k, 26, 4⟩
def fMCH_ROW_MULTIDEV (n : Nat) (k : Nat) : Fld := ⟨rMCH_ROW n k, 30, 1⟩
def fMCH_ROW_VALID (n : Nat) (k : Nat) : Fld := ⟨rMCH_ROW n k, 31, 1⟩
def fMCH_ROW_COUNT (n : Nat) (k : Nat) : Fld := ⟨rMCH_ROW n k, 32, 16⟩
/-- MCH_PTGTp: offset of the register. -/
def rMCH_PTGT (p : Nat) : Nat := 0x808000 + p * 4
def fMCH_PTGT_TGT_NS (p : Nat) : Fld := ⟨rMCH_PTGT p, 0, 16⟩
/-- MCH_POP_STS: offset of the register. -/
def rMCH_POP_STS : Nat := 0x808100
def fMCH_POP_STS_RESULT : Fld := ⟨rMCH_POP_STS, 0, 2⟩
def fMCH_POP_STS_SLOT : Fld := ⟨rMCH_POP_STS, 2, 6⟩
def fMCH_POP_STS_FALLBACK : Fld := ⟨rMCH_POP_STS, 8, 1⟩
/-- MCH_SCRUB_CTL: offset of the register. -/
def rMCH_SCRUB_CTL : Nat := 0x808200
def fMCH_SCRUB_CTL_EN : Fld := ⟨rMCH_SCRUB_CTL, 0, 1⟩
def fMCH_SCRUB_CTL_PERIOD_H : Fld := ⟨rMCH_SCRUB_CTL, 1, 8⟩
def fMCH_SCRUB_CTL_RATE_CAP : Fld := ⟨rMCH_SCRUB_CTL, 9, 8⟩
/-- MCH_SCRUB_STS: offset of the register. -/
def rMCH_SCRUB_STS : Nat := 0x808208
def fMCH_SCRUB_STS_CURSOR : Fld := ⟨rMCH_SCRUB_STS, 0, 44⟩
def fMCH_SCRUB_STS_PASSES : Fld := ⟨rMCH_SCRUB_STS, 44, 16⟩
def fMCH_SCRUB_STS_CANCEL2 : Fld := ⟨rMCH_SCRUB_STS, 60, 4⟩
/-- MCH_SCRUB_RATE: offset of the register. -/
def rMCH_SCRUB_RATE : Nat := 0x808210
def fMCH_SCRUB_RATE_MBPS : Fld := ⟨rMCH_SCRUB_RATE, 0, 15⟩
/-- MCH_ECC_THR: offset of the register. -/
def rMCH_ECC_THR : Nat := 0x808218
def fMCH_ECC_THR_ROW : Fld := ⟨rMCH_ECC_THR, 0, 8⟩
def fMCH_ECC_THR_BANK : Fld := ⟨rMCH_ECC_THR, 8, 12⟩
def fMCH_ECC_THR_LANE : Fld := ⟨rMCH_ECC_THR, 20, 8⟩
/-- MCH_RET_STS: offset of the register. -/
def rMCH_RET_STS : Nat := 0x808220
def fMCH_RET_STS_SPARES_FREE : Fld := ⟨rMCH_RET_STS, 0, 14⟩
def fMCH_RET_STS_RETIRED : Fld := ⟨rMCH_RET_STS, 14, 14⟩
/-- SEC_CTL: offset of the register. -/
def rSEC_CTL : Nat := 0xa00000
def fSEC_CTL_ROT_RATE : Fld := ⟨rSEC_CTL, 0, 7⟩
/-- SEC_STS: offset of the register. -/
def rSEC_STS : Nat := 0xa00004
def fSEC_STS_ROOTS_FREE : Fld := ⟨rSEC_STS, 0, 20⟩
/-- SEC_HALT_STS: offset of the register. -/
def rSEC_HALT_STS : Nat := 0xa00008
def fSEC_HALT_STS_HALTED : Fld := ⟨rSEC_HALT_STS, 0, 1⟩
def fSEC_HALT_STS_CAUSE : Fld := ⟨rSEC_HALT_STS, 1, 3⟩
def fSEC_HALT_STS_KR : Fld := ⟨rSEC_HALT_STS, 4, 4⟩
def fSEC_HALT_STS_SOURCE : Fld := ⟨rSEC_HALT_STS, 8, 3⟩
/-- SEC_HALT_ADDR: offset of the register. -/
def rSEC_HALT_ADDR : Nat := 0xa00010
def fSEC_HALT_ADDR_ADDR : Fld := ⟨rSEC_HALT_ADDR, 0, 46⟩
def fSEC_HALT_ADDR_IS_MPA : Fld := ⟨rSEC_HALT_ADDR, 46, 1⟩
/-- SEC_OVF_CNT: offset of the register. -/
def rSEC_OVF_CNT : Nat := 0xa00018
def fSEC_OVF_CNT_COUNT : Fld := ⟨rSEC_OVF_CNT, 0, 64⟩
/-- SEC_PAIR_STS: offset of the register. -/
def rSEC_PAIR_STS : Nat := 0xa00020
def fSEC_PAIR_STS_GCMFAIL : Fld := ⟨rSEC_PAIR_STS, 0, 16⟩
def fSEC_PAIR_STS_KEY_EPOCH : Fld := ⟨rSEC_PAIR_STS, 16, 16⟩
/-- SEC_KRn_CFG: offset of the register. -/
def rSEC_KR_CFG (n : Nat) : Nat := 0xa01000 + n * 0x100
def fSEC_KR_CFG_VALID (n : Nat) : Fld := ⟨rSEC_KR_CFG n, 0, 1⟩
def fSEC_KR_CFG_MODE (n : Nat) : Fld := ⟨rSEC_KR_CFG n, 1, 2⟩
/-- SEC_KRn_BASE: offset of the register. -/
def rSEC_KR_BASE (n : Nat) : Nat := 0xa01004 + n * 0x100
def fSEC_KR_BASE_BASE (n : Nat) : Fld := ⟨rSEC_KR_BASE n, 0, 25⟩
/-- SEC_KRn_SIZE: offset of the register. -/
def rSEC_KR_SIZE (n : Nat) : Nat := 0xa01008 + n * 0x100
def fSEC_KR_SIZE_SIZE (n : Nat) : Fld := ⟨rSEC_KR_SIZE n, 0, 25⟩
/-- SEC_KRn_ROOTS: offset of the register. -/
def rSEC_KR_ROOTS (n : Nat) : Nat := 0xa0100c + n * 0x100
def fSEC_KR_ROOTS_ROOT_LOG2 (n : Nat) : Fld := ⟨rSEC_KR_ROOTS n, 0, 5⟩
def fSEC_KR_ROOTS_ROOT_BASE (n : Nat) : Fld := ⟨rSEC_KR_ROOTS n, 5, 19⟩
/-- SEC_KRn_CFG_C: offset of the register. -/
def rSEC_KR_CFG_C (n : Nat) : Nat := 0xa01010 + n * 0x100
def fSEC_KR_CFG_C_C (n : Nat) : Fld := ⟨rSEC_KR_CFG_C n, 0, 32⟩
/-- SEC_KRn_BASE_C: offset of the register. -/
def rSEC_KR_BASE_C (n : Nat) : Nat := 0xa01014 + n * 0x100
def fSEC_KR_BASE_C_C (n : Nat) : Fld := ⟨rSEC_KR_BASE_C n, 0, 32⟩
/-- SEC_KRn_SIZE_C: offset of the register. -/
def rSEC_KR_SIZE_C (n : Nat) : Nat := 0xa01018 + n * 0x100
def fSEC_KR_SIZE_C_C (n : Nat) : Fld := ⟨rSEC_KR_SIZE_C n, 0, 32⟩
/-- SEC_KRn_ROOTS_C: offset of the register. -/
def rSEC_KR_ROOTS_C (n : Nat) : Nat := 0xa0101c + n * 0x100
def fSEC_KR_ROOTS_C_C (n : Nat) : Fld := ⟨rSEC_KR_ROOTS_C n, 0, 32⟩
/-- SEC_KRn_STS: offset of the register. -/
def rSEC_KR_STS (n : Nat) : Nat := 0xa01020 + n * 0x100
def fSEC_KR_STS_STATE (n : Nat) : Fld := ⟨rSEC_KR_STS n, 0, 3⟩
def fSEC_KR_STS_EXH (n : Nat) : Fld := ⟨rSEC_KR_STS n, 3, 1⟩
def fSEC_KR_STS_GEN (n : Nat) : Fld := ⟨rSEC_KR_STS n, 4, 1⟩
def fSEC_KR_STS_DEPTH (n : Nat) : Fld := ⟨rSEC_KR_STS n, 5, 4⟩
def fSEC_KR_STS_NEXT_LOADED (n : Nat) : Fld := ⟨rSEC_KR_STS n, 9, 1⟩
def fSEC_KR_STS_KLOST (n : Nat) : Fld := ⟨rSEC_KR_STS n, 10, 1⟩
/-- SEC_KRn_KCV: offset of the register. -/
def rSEC_KR_KCV (n : Nat) : Nat := 0xa01024 + n * 0x100
def fSEC_KR_KCV_KCV (n : Nat) : Fld := ⟨rSEC_KR_KCV n, 0, 24⟩
/-- SEC_KRn_MHW: offset of the register. -/
def rSEC_KR_MHW (n : Nat) : Nat := 0xa01028 + n * 0x100
def fSEC_KR_MHW_MHW (n : Nat) : Fld := ⟨rSEC_KR_MHW n, 0, 64⟩
/-- SEC_KRn_CHW: offset of the register. -/
def rSEC_KR_CHW (n : Nat) : Nat := 0xa01030 + n * 0x100
def fSEC_KR_CHW_CHW (n : Nat) : Fld := ⟨rSEC_KR_CHW n, 0, 56⟩
/-- SEC_KRn_ROTCUR: offset of the register. -/
def rSEC_KR_ROTCUR (n : Nat) : Nat := 0xa01038 + n * 0x100
def fSEC_KR_ROTCUR_CURSOR (n : Nat) : Fld := ⟨rSEC_KR_ROTCUR n, 0, 46⟩
/-- SEC_KRn_TAGBASE: offset of the register. -/
def rSEC_KR_TAGBASE (n : Nat) : Nat := 0xa01040 + n * 0x100
def fSEC_KR_TAGBASE_MPA (n : Nat) : Fld := ⟨rSEC_KR_TAGBASE n, 0, 44⟩
/-- SEC_KRn_TREEBASE: offset of the register. -/
def rSEC_KR_TREEBASE (n : Nat) : Nat := 0xa01048 + n * 0x100
def fSEC_KR_TREEBASE_MPA (n : Nat) : Fld := ⟨rSEC_KR_TREEBASE n, 0, 44⟩
/-- SEC_KRn_EVT: offset of the register. -/
def rSEC_KR_EVT (n : Nat) : Nat := 0xa01050 + n * 0x100
def fSEC_KR_EVT_QUAR (n : Nat) : Fld := ⟨rSEC_KR_EVT n, 0, 16⟩
def fSEC_KR_EVT_WDROP (n : Nat) : Fld := ⟨rSEC_KR_EVT n, 16, 16⟩
/-- CDC_CTL: offset of the register. -/
def rCDC_CTL : Nat := 0xb00000
def fCDC_CTL_LINE_EN : Fld := ⟨rCDC_CTL, 0, 1⟩
def fCDC_CTL_MIG_EN : Fld := ⟨rCDC_CTL, 1, 1⟩
def fCDC_CTL_SWEEP_EN : Fld := ⟨rCDC_CTL, 2, 1⟩
def fCDC_CTL_COMPACT_EN : Fld := ⟨rCDC_CTL, 3, 1⟩
def fCDC_CTL_EFFORT_G : Fld := ⟨rCDC_CTL, 4, 2⟩
def fCDC_CTL_EFFORT_A : Fld := ⟨rCDC_CTL, 6, 2⟩
/-- CDC_STS: offset of the register. -/
def rCDC_STS : Nat := 0xb00004
def fCDC_STS_DEC_ERR : Fld := ⟨rCDC_STS, 0, 1⟩
def fCDC_STS_PMAP_ERR : Fld := ⟨rCDC_STS, 1, 1⟩
def fCDC_STS_FTAB_ERR : Fld := ⟨rCDC_STS, 2, 1⟩
def fCDC_STS_LOSS : Fld := ⟨rCDC_STS, 3, 1⟩
def fCDC_STS_ORPHAN_SWEEP : Fld := ⟨rCDC_STS, 4, 1⟩
/-- CDC_WM: offset of the register. -/
def rCDC_WM : Nat := 0xb00008
def fCDC_WM_AMBER_PM : Fld := ⟨rCDC_WM, 0, 10⟩
def fCDC_WM_RED_PM : Fld := ⟨rCDC_WM, 10, 10⟩
def fCDC_WM_HYST_PM : Fld := ⟨rCDC_WM, 20, 8⟩
/-- CDC_LEVEL: offset of the register. -/
def rCDC_LEVEL : Nat := 0xb0000c
def fCDC_LEVEL_LEVEL : Fld := ⟨rCDC_LEVEL, 0, 2⟩
def fCDC_LEVEL_RSV_ACTIVE : Fld := ⟨rCDC_LEVEL, 2, 1⟩
def fCDC_LEVEL_EXHAUSTED : Fld := ⟨rCDC_LEVEL, 3, 1⟩
/-- CDC_THR: offset of the register. -/
def rCDC_THR : Nat := 0xb00010
def fCDC_THR_PROMOTE_AT : Fld := ⟨rCDC_THR, 0, 6⟩
def fCDC_THR_DEMOTE_BELOW : Fld := ⟨rCDC_THR, 6, 6⟩
def fCDC_THR_AMBER_BELOW : Fld := ⟨rCDC_THR, 12, 6⟩
/-- CDC_MIG: offset of the register. -/
def rCDC_MIG : Nat := 0xb00014
def fCDC_MIG_RATE : Fld := ⟨rCDC_MIG, 0, 7⟩
def fCDC_MIG_SCAN_S : Fld := ⟨rCDC_MIG, 7, 17⟩
/-- CDC_LAYOUTk: offset of the register. -/
def rCDC_LAYOUT (k : Nat) : Nat := 0xb00020 + k * 4
def fCDC_LAYOUT_SIZE (k : Nat) : Fld := ⟨rCDC_LAYOUT k, 0, 23⟩
def fCDC_LAYOUT_SET (k : Nat) : Fld := ⟨rCDC_LAYOUT k, 31, 1⟩
/-- CDC_FREE: offset of the register. -/
def rCDC_FREE : Nat := 0xb00040
def fCDC_FREE_FRAMES : Fld := ⟨rCDC_FREE, 0, 32⟩
/-- CDC_NEAR: offset of the register. -/
def rCDC_NEAR : Nat := 0xb00048
def fCDC_NEAR_FRAMES : Fld := ⟨rCDC_NEAR, 0, 32⟩
/-- CDC_CELLF: offset of the register. -/
def rCDC_CELLF : Nat := 0xb00050
def fCDC_CELLF_FRAMES : Fld := ⟨rCDC_CELLF, 0, 32⟩
/-- CDC_CELLB: offset of the register. -/
def rCDC_CELLB : Nat := 0xb00058
def fCDC_CELLB_BLOCKS : Fld := ⟨rCDC_CELLB, 0, 35⟩
/-- CDC_FRAG: offset of the register. -/
def rCDC_FRAG : Nat := 0xb00060
def fCDC_FRAG_BLOCKS : Fld := ⟨rCDC_FRAG, 0, 35⟩
/-- CDC_RSV_FREE: offset of the register. -/
def rCDC_RSV_FREE : Nat := 0xb00068
def fCDC_RSV_FREE_FRAMES : Fld := ⟨rCDC_RSV_FREE, 0, 32⟩
/-- CDC_SUSPECT: offset of the register. -/
def rCDC_SUSPECT : Nat := 0xb00070
def fCDC_SUSPECT_FRAMES : Fld := ⟨rCDC_SUSPECT, 0, 32⟩
/-- CDC_ORPHAN: offset of the register. -/
def rCDC_ORPHAN : Nat := 0xb00078
def fCDC_ORPHAN_BLOCKS : Fld := ⟨rCDC_ORPHAN, 0, 35⟩
/-- CDC_FVDICTk: offset of the register. -/
def rCDC_FVDICT (k : Nat) : Nat := 0xb00100 + k * 4
def fCDC_FVDICT_VALUE (k : Nat) : Fld := ⟨rCDC_FVDICT k, 0, 32⟩
/-- CDC_WPOLn: offset of the register. -/
def rCDC_WPOL (n : Nat) : Nat := 0xb01000 + n * 0x20
def fCDC_WPOL_MODE (n : Nat) : Fld := ⟨rCDC_WPOL n, 0, 1⟩
def fCDC_WPOL_DROP_AT (n : Nat) : Fld := ⟨rCDC_WPOL n, 1, 1⟩
/-- CDC_WPMAPn: offset of the register. -/
def rCDC_WPMAP (n : Nat) : Nat := 0xb01008 + n * 0x20
def fCDC_WPMAP_MPA (n : Nat) : Fld := ⟨rCDC_WPMAP n, 0, 44⟩
/-- CDC_WUSEn: offset of the register. -/
def rCDC_WUSE (n : Nat) : Nat := 0xb01010 + n * 0x20
def fCDC_WUSE_BLOCKS (n : Nat) : Fld := ⟨rCDC_WUSE n, 0, 35⟩
/-- CDC_WLOSTn: offset of the register. -/
def rCDC_WLOST (n : Nat) : Nat := 0xb01018 + n * 0x20
def fCDC_WLOST_CAPACITY (n : Nat) : Fld := ⟨rCDC_WLOST n, 0, 16⟩
def fCDC_WLOST_DISCARDED (n : Nat) : Fld := ⟨rCDC_WLOST n, 16, 16⟩
/-- QOS_CTL: offset of the register. -/
def rQOS_CTL : Nat := 0xc00000
def fQOS_CTL_BURST_US : Fld := ⟨rQOS_CTL, 0, 3⟩
def fQOS_CTL_AGENT_W : Fld := ⟨rQOS_CTL, 3, 4⟩
def fQOS_CTL_RISE_MS : Fld := ⟨rQOS_CTL, 7, 10⟩
/-- QOS_CAP: offset of the register. -/
def rQOS_CAP : Nat := 0xc00004
def fQOS_CAP_RATED : Fld := ⟨rQOS_CAP, 0, 16⟩
/-- QOS_STS: offset of the register. -/
def rQOS_STS : Nat := 0xc00008
def fQOS_STS_SCALE : Fld := ⟨rQOS_STS, 0, 10⟩
def fQOS_STS_CNOW : Fld := ⟨rQOS_STS, 10, 16⟩
def fQOS_STS_SCALED : Fld := ⟨rQOS_STS, 26, 1⟩
def fQOS_STS_THERM : Fld := ⟨rQOS_STS, 27, 1⟩
/-- QOS_THERM: offset of the register. -/
def rQOS_THERM : Nat := 0xc0000c
def fQOS_THERM_CAP_PM : Fld := ⟨rQOS_THERM, 0, 10⟩
/-- QOS_FACT: offset of the register. -/
def rQOS_FACT : Nat := 0xc00010
def fQOS_FACT_CHANNELS : Fld := ⟨rQOS_FACT, 0, 5⟩
def fQOS_FACT_PLEVEL : Fld := ⟨rQOS_FACT, 5, 2⟩
/-- QOS_CLSc: offset of the register. -/
def rQOS_CLS (c : Nat) : Nat := 0xc00100 + c * 0x10
def fQOS_CLS_KIND (c : Nat) : Fld := ⟨rQOS_CLS c, 0, 1⟩
def fQOS_CLS_WEIGHT (c : Nat) : Fld := ⟨rQOS_CLS c, 1, 4⟩
def fQOS_CLS_WAYS (c : Nat) : Fld := ⟨rQOS_CLS c, 5, 16⟩
/-- QOS_CLSc_SLOT: offset of the register. -/
def rQOS_CLS_SLOT (c : Nat) : Nat := 0xc00104 + c * 0x10
def fQOS_CLS_SLOT_RSV (c : Nat) : Fld := ⟨rQOS_CLS_SLOT c, 0, 8⟩
def fQOS_CLS_SLOT_MAX (c : Nat) : Fld := ⟨rQOS_CLS_SLOT c, 8, 8⟩
/-- QOS_PORTp_CFG: offset of the register. -/
def rQOS_PORT_CFG (p : Nat) : Nat := 0xc01000 + p * 0x40
def fQOS_PORT_CFG_MODE (p : Nat) : Fld := ⟨rQOS_PORT_CFG p, 0, 1⟩
def fQOS_PORT_CFG_WINDOW_US (p : Nat) : Fld := ⟨rQOS_PORT_CFG p, 1, 10⟩
/-- QOS_PORTp_BUDGET: offset of the register. -/
def rQOS_PORT_BUDGET (p : Nat) : Nat := 0xc01004 + p * 0x40
def fQOS_PORT_BUDGET_BYTES (p : Nat) : Fld := ⟨rQOS_PORT_BUDGET p, 0, 32⟩
/-- QOS_PORTp_GBWc: offset of the register. -/
def rQOS_PORT_GBW (p : Nat) (c : Nat) : Nat := 0xc01008 + p * 0x40 + c * 4
def fQOS_PORT_GBW_GBW (p : Nat) (c : Nat) : Fld := ⟨rQOS_PORT_GBW p c, 0, 16⟩
/-- QOS_PORTp_STS: offset of the register. -/
def rQOS_PORT_STS (p : Nat) : Nat := 0xc01028 + p * 0x40
def fQOS_PORT_STS_HELD_REQ (p : Nat) : Fld := ⟨rQOS_PORT_STS p, 0, 9⟩
def fQOS_PORT_STS_HELD_RWD (p : Nat) : Fld := ⟨rQOS_PORT_STS p, 9, 8⟩
def fQOS_PORT_STS_SCALE_P (p : Nat) : Fld := ⟨rQOS_PORT_STS p, 17, 10⟩
def fQOS_PORT_STS_FLOOR (p : Nat) : Fld := ⟨rQOS_PORT_STS p, 27, 1⟩
/-- QOS_PORTp_LATE: offset of the register. -/
def rQOS_PORT_LATE (p : Nat) : Nat := 0xc01030 + p * 0x40
def fQOS_PORT_LATE_COUNT (p : Nat) : Fld := ⟨rQOS_PORT_LATE p, 0, 64⟩
/-- PAIR_CTL: offset of the register. -/
def rPAIR_CTL : Nat := 0xd00000
def fPAIR_CTL_EN : Fld := ⟨rPAIR_CTL, 0, 1⟩
def fPAIR_CTL_RATE_CAP : Fld := ⟨rPAIR_CTL, 1, 1⟩
def fPAIR_CTL_IFACE : Fld := ⟨rPAIR_CTL, 2, 1⟩
def fPAIR_CTL_DROP_EN : Fld := ⟨rPAIR_CTL, 3, 1⟩
/-- PAIR_STS: offset of the register. -/
def rPAIR_STS : Nat := 0xd00004
def fPAIR_STS_STATE : Fld := ⟨rPAIR_STS, 0, 3⟩
def fPAIR_STS_TX_W : Fld := ⟨rPAIR_STS, 3, 5⟩
def fPAIR_STS_RX_W : Fld := ⟨rPAIR_STS, 8, 5⟩
def fPAIR_STS_RATE : Fld := ⟨rPAIR_STS, 13, 1⟩
def fPAIR_STS_KEYPH_TX : Fld := ⟨rPAIR_STS, 14, 1⟩
def fPAIR_STS_KEYPH_RX : Fld := ⟨rPAIR_STS, 15, 1⟩
def fPAIR_STS_DOWN_CAUSE : Fld := ⟨rPAIR_STS, 16, 4⟩
def fPAIR_STS_PRESENT : Fld := ⟨rPAIR_STS, 20, 1⟩
def fPAIR_STS_ROLE : Fld := ⟨rPAIR_STS, 21, 1⟩
/-- PAIR_TMR1: offset of the register. -/
def rPAIR_TMR1 : Nat := 0xd00008
def fPAIR_TMR1_REPLAY_US : Fld := ⟨rPAIR_TMR1, 0, 7⟩
def fPAIR_TMR1_REPLAY_MAX : Fld := ⟨rPAIR_TMR1, 7, 4⟩
def fPAIR_TMR1_CREDIT_US : Fld := ⟨rPAIR_TMR1, 11, 14⟩
/-- PAIR_TMR2: offset of the register. -/
def rPAIR_TMR2 : Nat := 0xd0000c
def fPAIR_TMR2_LOCK_US : Fld := ⟨rPAIR_TMR2, 0, 10⟩
def fPAIR_TMR2_RETRY_MS : Fld := ⟨rPAIR_TMR2, 10, 10⟩
def fPAIR_TMR2_SETUP_S : Fld := ⟨rPAIR_TMR2, 20, 6⟩
/-- PAIR_TMR3: offset of the register. -/
def rPAIR_TMR3 : Nat := 0xd00010
def fPAIR_TMR3_TRAIN_MS : Fld := ⟨rPAIR_TMR3, 0, 8⟩
def fPAIR_TMR3_PAUSE_MS : Fld := ⟨rPAIR_TMR3, 8, 6⟩
def fPAIR_TMR3_WAKE_MS : Fld := ⟨rPAIR_TMR3, 14, 8⟩
/-- PAIR_SEQ: offset of the register. -/
def rPAIR_SEQ : Nat := 0xd00018
def fPAIR_SEQ_NEXT_TX : Fld := ⟨rPAIR_SEQ, 0, 12⟩
def fPAIR_SEQ_ACKED : Fld := ⟨rPAIR_SEQ, 12, 12⟩
def fPAIR_SEQ_OUTSTANDING : Fld := ⟨rPAIR_SEQ, 24, 12⟩
def fPAIR_SEQ_NEXT_RX : Fld := ⟨rPAIR_SEQ, 36, 12⟩
/-- PAIR_VCv: offset of the register. -/
def rPAIR_VC (v : Nat) : Nat := 0xd00020 + v * 4
def fPAIR_VC_LIMIT (v : Nat) : Fld := ⟨rPAIR_VC v, 0, 11⟩
def fPAIR_VC_AVAIL (v : Nat) : Fld := ⟨rPAIR_VC v, 11, 11⟩
/-- PAIR_ERRCNT0: offset of the register. -/
def rPAIR_ERRCNT0 : Nat := 0xd00040
def fPAIR_ERRCNT0_REPLAYS : Fld := ⟨rPAIR_ERRCNT0, 0, 16⟩
def fPAIR_ERRCNT0_DUP : Fld := ⟨rPAIR_ERRCNT0, 16, 16⟩
def fPAIR_ERRCNT0_GAP : Fld := ⟨rPAIR_ERRCNT0, 32, 16⟩
def fPAIR_ERRCNT0_FEC_UNC : Fld := ⟨rPAIR_ERRCNT0, 48, 16⟩
/-- PAIR_ERRCNT1: offset of the register. -/
def rPAIR_ERRCNT1 : Nat := 0xd00048
def fPAIR_ERRCNT1_LANE_DROPS : Fld := ⟨rPAIR_ERRCNT1, 0, 8⟩
def fPAIR_ERRCNT1_DOWNS : Fld := ⟨rPAIR_ERRCNT1, 8, 8⟩
/-- PAIR_LANE: offset of the register. -/
def rPAIR_LANE : Nat := 0xd00050
def fPAIR_LANE_SER_THR : Fld := ⟨rPAIR_LANE, 0, 16⟩
/-- PAIR_LANE_STS: offset of the register. -/
def rPAIR_LANE_STS : Nat := 0xd00054
def fPAIR_LANE_STS_TX_ACTIVE : Fld := ⟨rPAIR_LANE_STS, 0, 16⟩
def fPAIR_LANE_STS_RX_ACTIVE : Fld := ⟨rPAIR_LANE_STS, 16, 16⟩
/-- PAIR_MIR_CTL: offset of the register. -/
def rPAIR_MIR_CTL : Nat := 0xd01000
def fPAIR_MIR_CTL_COPY_RATE : Fld := ⟨rPAIR_MIR_CTL, 0, 7⟩
def fPAIR_MIR_CTL_FENCE_US : Fld := ⟨rPAIR_MIR_CTL, 7, 10⟩
def fPAIR_MIR_CTL_SB_DEAD_MS : Fld := ⟨rPAIR_MIR_CTL, 17, 8⟩
/-- PAIR_MIR_STS: offset of the register. -/
def rPAIR_MIR_STS : Nat := 0xd01004
def fPAIR_MIR_STS_PAIRED : Fld := ⟨rPAIR_MIR_STS, 0, 1⟩
def fPAIR_MIR_STS_SB_ALIVE : Fld := ⟨rPAIR_MIR_STS, 1, 1⟩
def fPAIR_MIR_STS_PEER_HALTED : Fld := ⟨rPAIR_MIR_STS, 2, 1⟩
def fPAIR_MIR_STS_ROLE_CONFLICT : Fld := ⟨rPAIR_MIR_STS, 3, 1⟩
def fPAIR_MIR_STS_BM_FULL : Fld := ⟨rPAIR_MIR_STS, 4, 1⟩
def fPAIR_MIR_STS_REBUILD : Fld := ⟨rPAIR_MIR_STS, 5, 1⟩
def fPAIR_MIR_STS_SHADOW_OLD : Fld := ⟨rPAIR_MIR_STS, 6, 1⟩
/-- PAIR_MIR_OUT: offset of the register. -/
def rPAIR_MIR_OUT : Nat := 0xd01008
def fPAIR_MIR_OUT_SLOTS : Fld := ⟨rPAIR_MIR_OUT, 0, 48⟩
/-- PAIR_MIR_BMAREA: offset of the register. -/
def rPAIR_MIR_BMAREA : Nat := 0xd01010
def fPAIR_MIR_BMAREA_UNITS : Fld := ⟨rPAIR_MIR_BMAREA, 0, 9⟩
def fPAIR_MIR_BMAREA_FREE : Fld := ⟨rPAIR_MIR_BMAREA, 32, 14⟩
/-- PAIR_MIRn_STS: offset of the register. -/
def rPAIR_MIRW_STS (n : Nat) : Nat := 0xd02000 + n * 0x20
def fPAIR_MIRW_STS_STATE (n : Nat) : Fld := ⟨rPAIR_MIRW_STS n, 0, 3⟩
def fPAIR_MIRW_STS_FULL (n : Nat) : Fld := ⟨rPAIR_MIRW_STS n, 3, 1⟩
def fPAIR_MIRW_STS_DIVERGED (n : Nat) : Fld := ⟨rPAIR_MIRW_STS n, 4, 1⟩
def fPAIR_MIRW_STS_VALID (n : Nat) : Fld := ⟨rPAIR_MIRW_STS n, 5, 1⟩
def fPAIR_MIRW_STS_BMLOST (n : Nat) : Fld := ⟨rPAIR_MIRW_STS n, 6, 1⟩
def fPAIR_MIRW_STS_PEER_SET (n : Nat) : Fld := ⟨rPAIR_MIRW_STS n, 7, 1⟩
def fPAIR_MIRW_STS_PEER (n : Nat) : Fld := ⟨rPAIR_MIRW_STS n, 8, 8⟩
def fPAIR_MIRW_STS_CAUSE (n : Nat) : Fld := ⟨rPAIR_MIRW_STS n, 16, 2⟩
/-- PAIR_MIRn_FENCE: offset of the register. -/
def rPAIR_MIRW_FENCE (n : Nat) : Nat := 0xd02008 + n * 0x20
def fPAIR_MIRW_FENCE_RESULT (n : Nat) : Fld := ⟨rPAIR_MIRW_FENCE n, 0, 2⟩
/-- PAIR_MIRn_DIRTY: offset of the register. -/
def rPAIR_MIRW_DIRTY (n : Nat) : Nat := 0xd02010 + n * 0x20
def fPAIR_MIRW_DIRTY_GRANULES (n : Nat) : Fld := ⟨rPAIR_MIRW_DIRTY n, 0, 38⟩
/-- PAIR_MIRn_CURSOR: offset of the register. -/
def rPAIR_MIRW_CURSOR (n : Nat) : Nat := 0xd02018 + n * 0x20
def fPAIR_MIRW_CURSOR_DPA (n : Nat) : Fld := ⟨rPAIR_MIRW_CURSOR n, 0, 46⟩
/-- JOB_CTL: offset of the register. -/
def rJOB_CTL : Nat := 0xe00000
def fJOB_CTL_SLICE_EN : Fld := ⟨rJOB_CTL, 0, 8⟩
/-- JOB_CAP: offset of the register. -/
def rJOB_CAP : Nat := 0xe00004
def fJOB_CAP_PRESENT : Fld := ⟨rJOB_CAP, 0, 8⟩
/-- JOB_SLCs_STS: offset of the register. -/
def rJOB_SLC_STS (s : Nat) : Nat := 0xe00100 + s * 0x10
def fJOB_SLC_STS_STATE (s : Nat) : Fld := ⟨rJOB_SLC_STS s, 0, 2⟩
def fJOB_SLC_STS_HEAD (s : Nat) : Fld := ⟨rJOB_SLC_STS s, 2, 5⟩
def fJOB_SLC_STS_QUEUE (s : Nat) : Fld := ⟨rJOB_SLC_STS s, 7, 4⟩
/-- JOB_SLCs_DONE: offset of the register. -/
def rJOB_SLC_DONE (s : Nat) : Nat := 0xe00108 + s * 0x10
def fJOB_SLC_DONE_JOBS (s : Nat) : Fld := ⟨rJOB_SLC_DONE s, 0, 64⟩
/-- PMU_GCTL: offset of the register. -/
def rPMU_GCTL : Nat := 0x1000000
def fPMU_GCTL_RUN : Fld := ⟨rPMU_GCTL, 0, 1⟩
def fPMU_GCTL_SNAP : Fld := ⟨rPMU_GCTL, 1, 1⟩
/-- PMU_GSTS: offset of the register. -/
def rPMU_GSTS : Nat := 0x1000008
def fPMU_GSTS_ON : Fld := ⟨rPMU_GSTS, 0, 44⟩
/-- PMU_Uu_CLAIM: offset of the register. -/
def rPMU_U_CLAIM (u : Nat) : Nat := 0x1001000 + u * 0x200
def fPMU_U_CLAIM_HOLDER (u : Nat) : Fld := ⟨rPMU_U_CLAIM u, 0, 6⟩
/-- PMU_Uu_CTL: offset of the register. -/
def rPMU_U_CTL (u : Nat) : Nat := 0x1001004 + u * 0x200
def fPMU_U_CTL_EN (u : Nat) : Fld := ⟨rPMU_U_CTL u, 0, 1⟩
def fPMU_U_CTL_SNAP (u : Nat) : Fld := ⟨rPMU_U_CTL u, 1, 1⟩
def fPMU_U_CTL_CHAIN (u : Nat) : Fld := ⟨rPMU_U_CTL u, 2, 4⟩
def fPMU_U_CTL_OVF (u : Nat) : Fld := ⟨rPMU_U_CTL u, 6, 8⟩
def fPMU_U_CTL_VEC (u : Nat) : Fld := ⟨rPMU_U_CTL u, 14, 6⟩
/-- PMU_Uu_ID: offset of the register. -/
def rPMU_U_ID (u : Nat) : Nat := 0x1001008 + u * 0x200
def fPMU_U_ID_TYPE (u : Nat) : Fld := ⟨rPMU_U_ID u, 0, 4⟩
def fPMU_U_ID_INDEX (u : Nat) : Fld := ⟨rPMU_U_ID u, 4, 4⟩
/-- PMU_Uu_CYC: offset of the register. -/
def rPMU_U_CYC (u : Nat) : Nat := 0x1001010 + u * 0x200
def fPMU_U_CYC_COUNT (u : Nat) : Fld := ⟨rPMU_U_CYC u, 0, 64⟩
/-- PMU_Uu_EVSELk: offset of the register. -/
def rPMU_U_EVSEL (u : Nat) (k : Nat) : Nat := 0x1001040 + u * 0x200 + k * 4
def fPMU_U_EVSEL_EVENT (u : Nat) (k : Nat) : Fld := ⟨rPMU_U_EVSEL u k, 0, 8⟩
def fPMU_U_EVSEL_CLASS (u : Nat) (k : Nat) : Fld := ⟨rPMU_U_EVSEL u k, 8, 3⟩
def fPMU_U_EVSEL_CLASS_EN (u : Nat) (k : Nat) : Fld := ⟨rPMU_U_EVSEL u k, 11, 1⟩
def fPMU_U_EVSEL_SUB (u : Nat) (k : Nat) : Fld := ⟨rPMU_U_EVSEL u k, 12, 3⟩
def fPMU_U_EVSEL_SUB_EN (u : Nat) (k : Nat) : Fld := ⟨rPMU_U_EVSEL u k, 15, 1⟩
def fPMU_U_EVSEL_OVF_IRQ (u : Nat) (k : Nat) : Fld := ⟨rPMU_U_EVSEL u k, 16, 1⟩
/-- PMU_Uu_CNTk: offset of the register. -/
def rPMU_U_CNT (u : Nat) (k : Nat) : Nat := 0x1001080 + u * 0x200 + k * 8
def fPMU_U_CNT_COUNT (u : Nat) (k : Nat) : Fld := ⟨rPMU_U_CNT u k, 0, 48⟩
/-- PMU_Uu_SCYC: offset of the register. -/
def rPMU_U_SCYC (u : Nat) : Nat := 0x1001100 + u * 0x200
def fPMU_U_SCYC_COUNT (u : Nat) : Fld := ⟨rPMU_U_SCYC u, 0, 64⟩
/-- PMU_Uu_SCNTk: offset of the register. -/
def rPMU_U_SCNT (u : Nat) (k : Nat) : Nat := 0x1001108 + u * 0x200 + k * 8
def fPMU_U_SCNT_COUNT (u : Nat) (k : Nat) : Fld := ⟨rPMU_U_SCNT u k, 0, 48⟩
/-- SMP_p_CTL: offset of the register. -/
def rSMP_CTL (p : Nat) : Nat := 0x1008000 + p * 0x20
def fSMP_CTL_N (p : Nat) : Fld := ⟨rSMP_CTL p, 0, 16⟩
def fSMP_CTL_RING (p : Nat) : Fld := ⟨rSMP_CTL p, 16, 3⟩
def fSMP_CTL_CLASSMASK (p : Nat) : Fld := ⟨rSMP_CTL p, 19, 8⟩
def fSMP_CTL_KIND (p : Nat) : Fld := ⟨rSMP_CTL p, 27, 2⟩
/-- SMP_p_STS: offset of the register. -/
def rSMP_STS (p : Nat) : Nat := 0x1008008 + p * 0x20
def fSMP_STS_TAKEN (p : Nat) : Fld := ⟨rSMP_STS p, 0, 32⟩
def fSMP_STS_SKIP (p : Nat) : Fld := ⟨rSMP_STS p, 32, 16⟩
def fSMP_STS_LOST (p : Nat) : Fld := ⟨rSMP_STS p, 48, 16⟩
/-- RING_GCTL: offset of the register. -/
def rRING_GCTL : Nat := 0x1100000
def fRING_GCTL_CMD_RING : Fld := ⟨rRING_GCTL, 0, 3⟩
def fRING_GCTL_CMD_EN : Fld := ⟨rRING_GCTL, 3, 1⟩
/-- RING_n_CLAIM: offset of the register. -/
def rRING_CLAIM (n : Nat) : Nat := 0x1100100 + n * 0x80
def fRING_CLAIM_HOLDER (n : Nat) : Fld := ⟨rRING_CLAIM n, 0, 6⟩
/-- RING_n_CTL: offset of the register. -/
def rRING_CTL (n : Nat) : Nat := 0x1100104 + n * 0x80
def fRING_CTL_XEN (n : Nat) : Fld := ⟨rRING_CTL n, 0, 1⟩
def fRING_CTL_CUT (n : Nat) : Fld := ⟨rRING_CTL n, 1, 7⟩
def fRING_CTL_LEVEL (n : Nat) : Fld := ⟨rRING_CTL n, 8, 14⟩
def fRING_CTL_VEC (n : Nat) : Fld := ⟨rRING_CTL n, 22, 6⟩
/-- RING_n_PTR: offset of the register. -/
def rRING_PTR (n : Nat) : Nat := 0x1100108 + n * 0x80
def fRING_PTR_WR (n : Nat) : Fld := ⟨rRING_PTR n, 0, 14⟩
def fRING_PTR_RD (n : Nat) : Fld := ⟨rRING_PTR n, 16, 14⟩
def fRING_PTR_OCC (n : Nat) : Fld := ⟨rRING_PTR n, 32, 14⟩
/-- RING_n_STS: offset of the register. -/
def rRING_STS (n : Nat) : Nat := 0x1100110 + n * 0x80
def fRING_STS_CE (n : Nat) : Fld := ⟨rRING_STS n, 0, 16⟩
def fRING_STS_UE (n : Nat) : Fld := ⟨rRING_STS n, 16, 8⟩
def fRING_STS_RDERR (n : Nat) : Fld := ⟨rRING_STS n, 24, 1⟩
def fRING_STS_XERR (n : Nat) : Fld := ⟨rRING_STS n, 25, 1⟩
def fRING_STS_LVL (n : Nat) : Fld := ⟨rRING_STS n, 26, 1⟩
def fRING_STS_DROPS (n : Nat) : Fld := ⟨rRING_STS n, 32, 32⟩
/-- RING_n_POP: offset of the register. -/
def rRING_POP (n : Nat) : Nat := 0x1100118 + n * 0x80
def fRING_POP_WORD (n : Nat) : Fld := ⟨rRING_POP n, 0, 64⟩
/-- RING_n_POPTAG: offset of the register. -/
def rRING_POPTAG (n : Nat) : Nat := 0x1100120 + n * 0x80
def fRING_POPTAG_TAG (n : Nat) : Fld := ⟨rRING_POPTAG n, 0, 16⟩
/-- RING_n_XBASE: offset of the register. -/
def rRING_XBASE (n : Nat) : Nat := 0x1100128 + n * 0x80
def fRING_XBASE_DPA (n : Nat) : Fld := ⟨rRING_XBASE n, 0, 46⟩
/-- RING_n_XCFG: offset of the register. -/
def rRING_XCFG (n : Nat) : Nat := 0x1100130 + n * 0x80
def fRING_XCFG_XLOG (n : Nat) : Fld := ⟨rRING_XCFG n, 0, 5⟩
/-- RING_n_XCNT: offset of the register. -/
def rRING_XCNT (n : Nat) : Nat := 0x1100138 + n * 0x80
def fRING_XCNT_BYTES (n : Nat) : Fld := ⟨rRING_XCNT n, 0, 64⟩
/-- RING_TAGWIN: offset of the register. -/
def rRING_TAGWIN (n : Nat) (i : Nat) : Nat := 0x1104000 + n * 0x4000 + i * 2
def fRING_TAGWIN_TAG (n : Nat) (i : Nat) : Fld := ⟨rRING_TAGWIN n i, 0, 16⟩
/-- RING_DATAWIN: offset of the register. -/
def rRING_DATAWIN (n : Nat) (i : Nat) : Nat := 0x1180000 + n * 0x10000 + i * 8
def fRING_DATAWIN_WORD (n : Nat) (i : Nat) : Fld := ⟨rRING_DATAWIN n i, 0, 64⟩
/-- MGT_STS: offset of the register. -/
def rMGT_STS : Nat := 0x1200000
def fMGT_STS_READY : Fld := ⟨rMGT_STS, 0, 1⟩
def fMGT_STS_MODE : Fld := ⟨rMGT_STS, 1, 2⟩
def fMGT_STS_SLOT : Fld := ⟨rMGT_STS, 3, 1⟩
def fMGT_STS_FALLBACK : Fld := ⟨rMGT_STS, 4, 1⟩
def fMGT_STS_INJ_UNLOCK : Fld := ⟨rMGT_STS, 5, 1⟩
def fMGT_STS_RESTARTS : Fld := ⟨rMGT_STS, 6, 16⟩
/-- MGT_CMD_GRANT: offset of the register. -/
def rMGT_CMD_GRANT : Nat := 0x1200004
def fMGT_CMD_GRANT_HEAD : Fld := ⟨rMGT_CMD_GRANT, 0, 32⟩
/-- MGT_TCM_STS: offset of the register. -/
def rMGT_TCM_STS : Nat := 0x1200008
def fMGT_TCM_STS_CE : Fld := ⟨rMGT_TCM_STS, 0, 16⟩
def fMGT_TCM_STS_IREPAIR : Fld := ⟨rMGT_TCM_STS, 16, 8⟩
def fMGT_TCM_STS_UE : Fld := ⟨rMGT_TCM_STS, 24, 8⟩
/-- MGT_CMD_GRANT_C: offset of the register. -/
def rMGT_CMD_GRANT_C : Nat := 0x120000c
def fMGT_CMD_GRANT_C_HEAD_C : Fld := ⟨rMGT_CMD_GRANT_C, 0, 32⟩
/-- MGT_PHT: offset of the register. -/
def rMGT_PHT : Nat := 0x1200020
def fMGT_PHT_DIGEST : Fld := ⟨rMGT_PHT, 0, 256⟩
/-- JDB_TAIL: offset of the register. -/
def rJDB_TAIL (h : Nat) (q : Nat) : Nat := 0x2000000 + h * 0x100000 + q * 0x1000
def fJDB_TAIL_COUNT (h : Nat) (q : Nat) : Fld := ⟨rJDB_TAIL h q, 0, 32⟩
/-- JDB_HEAD: offset of the register. -/
def rJDB_HEAD (h : Nat) (q : Nat) : Nat := 0x2000004 + h * 0x100000 + q * 0x1000
def fJDB_HEAD_COUNT (h : Nat) (q : Nat) : Fld := ⟨rJDB_HEAD h q, 0, 32⟩
/-- JDB_CQHEAD: offset of the register. -/
def rJDB_CQHEAD (h : Nat) (q : Nat) : Nat := 0x2000008 + h * 0x100000 + q * 0x1000
def fJDB_CQHEAD_COUNT (h : Nat) (q : Nat) : Fld := ⟨rJDB_CQHEAD h q, 0, 32⟩
/-- JDB_CQTAIL: offset of the register. -/
def rJDB_CQTAIL (h : Nat) (q : Nat) : Nat := 0x200000c + h * 0x100000 + q * 0x1000
def fJDB_CQTAIL_COUNT (h : Nat) (q : Nat) : Fld := ⟨rJDB_CQTAIL h q, 0, 32⟩
/-- JDB_CTL: offset of the register. -/
def rJDB_CTL (h : Nat) (q : Nat) : Nat := 0x2000010 + h * 0x100000 + q * 0x1000
def fJDB_CTL_EN (h : Nat) (q : Nat) : Fld := ⟨rJDB_CTL h q, 0, 1⟩
def fJDB_CTL_RESUME (h : Nat) (q : Nat) : Fld := ⟨rJDB_CTL h q, 1, 1⟩
def fJDB_CTL_QLOG (h : Nat) (q : Nat) : Fld := ⟨rJDB_CTL h q, 2, 5⟩
def fJDB_CTL_CLOG (h : Nat) (q : Nat) : Fld := ⟨rJDB_CTL h q, 7, 5⟩
def fJDB_CTL_VEC (h : Nat) (q : Nat) : Fld := ⟨rJDB_CTL h q, 12, 6⟩
/-- JDB_DQBASE: offset of the register. -/
def rJDB_DQBASE (h : Nat) (q : Nat) : Nat := 0x2000018 + h * 0x100000 + q * 0x1000
def fJDB_DQBASE_DPA (h : Nat) (q : Nat) : Fld := ⟨rJDB_DQBASE h q, 0, 46⟩
/-- JDB_CQBASE: offset of the register. -/
def rJDB_CQBASE (h : Nat) (q : Nat) : Nat := 0x2000020 + h * 0x100000 + q * 0x1000
def fJDB_CQBASE_DPA (h : Nat) (q : Nat) : Fld := ⟨rJDB_CQBASE h q, 0, 46⟩
/-- JDB_STS: offset of the register. -/
def rJDB_STS (h : Nat) (q : Nat) : Nat := 0x2000028 + h * 0x100000 + q * 0x1000
def fJDB_STS_STATE (h : Nat) (q : Nat) : Fld := ⟨rJDB_STS h q, 0, 2⟩
def fJDB_STS_CAUSE (h : Nat) (q : Nat) : Fld := ⟨rJDB_STS h q, 2, 3⟩
def fJDB_STS_CLASS (h : Nat) (q : Nat) : Fld := ⟨rJDB_STS h q, 5, 3⟩
def fJDB_STS_INFLIGHT (h : Nat) (q : Nat) : Fld := ⟨rJDB_STS h q, 8, 4⟩
/-- JDB_HALTINFO: offset of the register. -/
def rJDB_HALTINFO (h : Nat) (q : Nat) : Nat := 0x2000030 + h * 0x100000 + q * 0x1000
def fJDB_HALTINFO_DPA (h : Nat) (q : Nat) : Fld := ⟨rJDB_HALTINFO h q, 0, 46⟩
def fJDB_HALTINFO_SLOT (h : Nat) (q : Nat) : Fld := ⟨rJDB_HALTINFO h q, 48, 16⟩
/-- PDV_PORT_STS: offset of the register. -/
def rPDV_PORT_STS (port : Nat) : Nat := 0x800000c + port * 0x1000
def fPDV_PORT_STS_PORT (port : Nat) : Fld := ⟨rPDV_PORT_STS port, 0, 5⟩
def fPDV_PORT_STS_FORMED (port : Nat) : Fld := ⟨rPDV_PORT_STS port, 8, 2⟩
def fPDV_PORT_STS_WIDTH (port : Nat) : Fld := ⟨rPDV_PORT_STS port, 10, 5⟩
def fPDV_PORT_STS_RATE (port : Nat) : Fld := ⟨rPDV_PORT_STS port, 15, 3⟩
def fPDV_PORT_STS_FLIT (port : Nat) : Fld := ⟨rPDV_PORT_STS port, 18, 2⟩
def fPDV_PORT_STS_MEM_READY (port : Nat) : Fld := ⟨rPDV_PORT_STS port, 20, 1⟩
def fPDV_PORT_STS_IDE_MEM (port : Nat) : Fld := ⟨rPDV_PORT_STS port, 21, 2⟩
def fPDV_PORT_STS_IDE_REQUIRED (port : Nat) : Fld := ⟨rPDV_PORT_STS port, 23, 1⟩
/-- PDV_DEVLOAD: offset of the register. -/
def rPDV_DEVLOAD (port : Nat) : Nat := 0x8000010 + port * 0x1000
def fPDV_DEVLOAD_LEVEL (port : Nat) : Fld := ⟨rPDV_DEVLOAD port, 0, 2⟩
def fPDV_DEVLOAD_FLOOR_ESC (port : Nat) : Fld := ⟨rPDV_DEVLOAD port, 2, 1⟩
def fPDV_DEVLOAD_FLOOR_AMBER (port : Nat) : Fld := ⟨rPDV_DEVLOAD port, 3, 1⟩
def fPDV_DEVLOAD_FLOOR_RED (port : Nat) : Fld := ⟨rPDV_DEVLOAD port, 4, 1⟩
def fPDV_DEVLOAD_FLOOR_THERM (port : Nat) : Fld := ⟨rPDV_DEVLOAD port, 5, 1⟩
def fPDV_DEVLOAD_RATIO (port : Nat) : Fld := ⟨rPDV_DEVLOAD port, 8, 8⟩
/-- PDV_LNK_ERR: offset of the register. -/
def rPDV_LNK_ERR (port : Nat) : Nat := 0x8000014 + port * 0x1000
def fPDV_LNK_ERR_REPLAYS (port : Nat) : Fld := ⟨rPDV_LNK_ERR port, 0, 16⟩
def fPDV_LNK_ERR_RATE_DROPS (port : Nat) : Fld := ⟨rPDV_LNK_ERR port, 16, 8⟩
def fPDV_LNK_ERR_IDE_FAIL (port : Nat) : Fld := ⟨rPDV_LNK_ERR port, 24, 1⟩
def fPDV_LNK_ERR_UNCLAIMED (port : Nat) : Fld := ⟨rPDV_LNK_ERR port, 25, 1⟩
/-- PDV_ALIAS_CTLn: offset of the register. -/
def rPDV_ALIAS_CTL (port : Nat) (n : Nat) : Nat := 0x8000100 + port * 0x1000 + n * 8
def fPDV_ALIAS_CTL_STRIDE_SHIFT (port : Nat) (n : Nat) : Fld := ⟨rPDV_ALIAS_CTL port n, 0, 6⟩
def fPDV_ALIAS_CTL_ERR (port : Nat) (n : Nat) : Fld := ⟨rPDV_ALIAS_CTL port n, 6, 1⟩
/-- PDV_ALIAS_MAPn: offset of the register. -/
def rPDV_ALIAS_MAP (port : Nat) (n : Nat) : Nat := 0x8000104 + port * 0x1000 + n * 8
def fPDV_ALIAS_MAP_CLASSMAP (port : Nat) (n : Nat) : Fld := ⟨rPDV_ALIAS_MAP port n, 0, 24⟩
def fPDV_ALIAS_MAP_ALIAS_N (port : Nat) (n : Nat) : Fld := ⟨rPDV_ALIAS_MAP port n, 24, 3⟩

end Sys2Proof.Machine
end

