-- ==== Sys2Proof/Machine/State.lean ====
section
/-! DEFINITION. The state of the block as plain data: the register file, every FIFO, buffer, table and counter the
manual names, the DRAM, the OTP fuses, and the queue of waiting commands. A field whose default is written here has
that value after reset (State.reset). -/

namespace Sys2Proof.Machine

/-- DRAM contents: data bytes of a line at its MPA; check symbol j of MPA line L at 2^44 + 16 L + j (R134). A byte that
is not listed reads 0 (log entry 1). -/
abbrev Mem := Tbl Byte

/-- The S2M responses (Table 4.3, R93): NDR completions by the state they grant, DRS data with a poison reason (0:
none) and its MetaValue (0 I, 1 A, 2 S, 3 E). -/
inductive Rsp where
  | cmp
  | cmpS
  | cmpE
  | cmpM
  | data (line : LineData) (poison : Nat) (mv : Nat)
deriving DecidableEq, Repr

/-- The three Back-Invalidate snoops (R96, R21). -/
inductive SnpKind where
  | inv
  | data
  | cur
deriving DecidableEq, Repr

/-- Poison reason codes (Table 0.6). -/
def poisonMedia : Nat := 1
def poisonLostOwner : Nat := 2
def poisonTreeMedia : Nat := 3
def poisonCapacity : Nat := 4
def poisonDiscarded : Nat := 5
def poisonMirrorLost : Nat := 6
def poisonHalt : Nat := 7

/-- What the block sends out (log entry 5). -/
inductive Out where
  /-- An S2M response on the link of a head, with its tag and DevLoad (R58). -/
  | rsp (head tag : Nat) (r : Rsp) (devLoad : Nat)
  /-- A Back-Invalidate snoop to a head, for an HPA line (R96). -/
  | bisnp (head : Nat) (hpaLine : Nat) (k : SnpKind)
  /-- BIConflictAck with its DevLoad (R99, R57). -/
  | biConflictAck (head : Nat) (hpaLine : Nat) (devLoad : Nat)
  /-- Viral signalled on the link of a head (R107, R374, R189). -/
  | viral (head : Nat)
  /-- Completion of a configuration request: CRS, or the value read (R39). -/
  | cfgCrs (port : Nat)
  | cfgValue (port : Nat) (value : Nat)
  /-- Completion of a read of a decoder in the HDM Decoder Capability (R42): base, size, DPA skip, ways, log2 of the granularity,
  Back-Invalidate, Lock On Commit, Committed, Error Not Committed. -/
  | hdmDecoder (port n : Nat) (image : List Nat)
  /-- A correctable error of a head's link, signalled through AER and the CXL RAS capability (R59): 0 replay, 1 FEC; how many. -/
  | correctable (port kind count : Nat)
  /-- Data of a register read by a head. -/
  | csrValue (head : Nat) (value : Nat)
  /-- MSI-X vector of a head. -/
  | msix (head vec : Nat)
  /-- Interrupt to the management processor. -/
  | mgmtInt
  /-- CXL event record of a head that carries a fault record (R368): log 0 informational, 1 warning, 2 failure, 3 fatal. -/
  | faultEvent (head log : Nat) (words : List Nat)
  /-- General Media event record: DPA (or first DPA of a range) and poison reason (R141, R107, R376). -/
  | mediaEvent (head dpa reason : Nat)
  /-- DRAM event record (R148). -/
  | dramEvent (head : Nat) (words : List Nat)
  /-- Dynamic Capacity event: 0 add, 1 release (R49 to R51, R73), the tag that names a SHARED window (R49), and the extents. -/
  | dcEvent (head kind : Nat) (tag : Option Nat) (exts : List (Nat × Nat))
  /-- CDAT change notification (R52). -/
  | cdatChange (head : Nat)
  /-- A reply packet (Table 13.2): transport 0 mailbox, 1 SMBus or I3C, 2 VDM, 3 session; head or endpoint; bytes. -/
  | reply (transport who : Nat) (bytes : List Byte)
  /-- Mailbox return code (R325, R334): 0 success, 1 background command started, 2 invalid payload length, 3 busy,
  4 invalid input, 5 invalid extent list (R50), 6 resources exhausted (log entry 69). -/
  | mailboxRc (head code : Nat)
  /-- SPDM response: response code and the numbered content the responder chooses. -/
  | spdm (doe : Option Nat) (code : Nat) (body : List Nat)
  /-- A DDR command to a rank or bank: kind, channel, subchannel, arguments. Kind 9 is self-refresh entry, 10 a precharge, 11 an
  activate (R117). -/
  | ddr (kind chan sub : Nat) (args : List Nat)
  /-- A pair-link frame (R231): its 256 bytes. -/
  | frame (bytes : List Byte)
  /-- A codeword of the frame stream (R229): each active lane with the symbols it carries, in order. -/
  | codeword (lanes : List (Nat × List Nat))
  /-- An alignment slot (R229): the active lanes, each of which carries its own number, with the direction's width and the stripe epoch. -/
  | alignSlot (lanes : List Nat) (width epoch : Nat)
  /-- The wake pattern, the TRAIN pattern or a restripe slot on the pair link (R246, R250, R252). -/
  | pairPattern (kind : Nat)
  /-- A sideband message (R271): type, flags, argument, CRC-16. -/
  | sideband (ty flags arg crc : Nat)
  /-- An IDE_KM answer (R53): 0 acknowledge, 1 refused. -/
  | ideKm (port code : Nat)
deriving DecidableEq, Repr

/-- A fault event before it becomes a record (R366): source, severity, cause code, object, address and its kind, head. -/
structure Ev where
  src : Nat
  sev : Nat
  code : Nat := 0
  obj : Nat := 0
  addr : Nat := 0
  akind : Nat := 0
  head : Option Nat := none
  aux0 : Nat := 0
  aux1 : Nat := 0
  inj : Bool := false
  /-- Words 3 to 6 of the record where the source is an MCH error source (R366). -/
  raw : Option (List Nat) := none
deriving DecidableEq, Repr

/-- A pending fault injection (R382, R383): checker, target, uses left. -/
structure Inj where
  checker : Nat
  target : Nat
  count : Nat
deriving DecidableEq, Repr

/-- The fault hub beyond its registers: severity-C records per group in the running millisecond, escalations waiting to
be applied in this step, injections pending, FAULT_N and ALERT_N are functions of the table. -/
structure FltS where
  cRate : Tbl Nat := []
  cRateMs : Nat := 0
  escBasic : Bool := false
  escFatal : Bool := false
  basicStep : Nat := 0
  inj : List Inj := []
  /-- Entries of the record table that firmware has not logged yet (R357, R371). -/
  toLog : List Nat := []
  /-- The hub's last use of FLT_GLOBAL failed: it acts on the reset values (R369). -/
  globalBad : Bool := false
deriving DecidableEq, Repr

/-- The gap state of one notice ring (R433): drops pending, and the KIND mask of them. -/
structure RingS where
  pendDrops : Nat := 0
  pendMask : Nat := 0
deriving DecidableEq, Repr

/-- A request that a sampler follows (R428): tag, and words 0 to 2 and the flags of its packet, with bit 8 of the model's own: the escapement
held it. -/
structure Follow where
  tag : Nat
  time : Nat
  hpa : Nat
  alias_ : Nat
  cls : Nat
  dpa : Nat
  win : Nat
  opc : Nat
  mv : Nat
  flags : Nat
deriving DecidableEq, Repr

/-- A port sampler (R427): requests counted in the period, the offset drawn for it, the followed request. -/
structure SmpS where
  cnt : Nat := 0
  offset : Nat := 0
  fol : Option Follow := none
deriving DecidableEq, Repr

/-- A record of the event log (Table 14.5), its CRC left to the read. -/
structure LogRec where
  seq : Nat
  boot : Nat
  time : Nat
  kind : Nat
  sev : Nat
  flags : Nat
  source : Nat
  data : Nat
deriving DecidableEq, Repr

/-- An image slot of flash as the boot chain sees it (R346, R347): the image bytes received, whether a transfer is
complete, whether it verified before. -/
structure ImgSlot where
  bytes : List Byte := []
  complete : Bool := false
  verified : Bool := false
deriving DecidableEq, Repr

/-- The configuration record (R336): register images by key and the complements of those held in pairs, link configuration bytes,
Dynamic Capacity regions (base, length, block code), metadata layout set, pairing record (role, digest), targets (t, n), tier limits, and
the SMBus address that it names (R361). An image of a window entry or key range has its complements after its words. -/
structure CfgRec where
  regs : Tbl Nat := []
  comps : Tbl Nat := []
  link : List Nat := []
  dc : Tbl (Nat × Nat × Nat) := []
  wins : Tbl (List Nat) := []
  krs : Tbl (List Nat) := []
  pairing : Option (Nat × Nat) := none
  targets : Tbl Nat := []
  tierLim : List Nat := []
  layout : List Nat := []
  bmUnits : Nat := 0
  smbAddr : Nat := 0x62
deriving DecidableEq, Repr

/-- A copy of a block in flash (R345): its sequence number, what it holds, its trailing CRC-32C. -/
structure Copy (α : Type) where
  seq : Nat
  body : α
  crc : Nat
deriving DecidableEq, Repr

/-- The boot-select block (Table 14.1): the active slot, TRY, and the slots that have been confirmed. -/
structure BootSel where
  active : Nat := 0
  try_ : Bool := false
  confirmed : List Nat := []
deriving DecidableEq, Repr

/-- SPI flash (Table 14.1): the boot-select block and the configuration record as firmware works on them, and the two copies of each
that flash holds. -/
structure Flash where
  sel : BootSel := {}
  selA : Option (Copy BootSel) := none
  selB : Option (Copy BootSel) := none
  recA : Option (Copy CfgRec) := none
  recB : Option (Copy CfgRec) := none
  slotA : ImgSlot := {}
  slotB : ImgSlot := {}
  cfg : CfgRec := {}
  log : List LogRec := []
  logNext : Nat := 0
  retire : List (Nat × Nat) := []
  hardRepair : List (List Nat) := []
  banks : List (List Nat) := []
  coldBoots : Nat := 0
  /-- The cached alias certificate (Table 14.1): the measurement blocks 1 to 4 it names, and its signature by the device key (R353). -/
  aliasCert : Option (List Nat × List Nat) := none
  /-- The certificate of the device identity key (Table 14.1), as Slojor made it. -/
  devCert : List Byte := Config.deviceCertificate
deriving DecidableEq, Repr

/-- A command in progress (R334): its opcode, the carrier of its reply (0 mailbox, 1 SMBus or I3C, 2 VDM, 3 session, 4 none:
discarded), its head or endpoint, its tag, its arguments, whether it runs in the foreground (its reply leaves when it ends), over MCTP its
endpoint (1 and the number on SMBus or I3C, 2 and the head of a link), the head whose link its reply takes, and once it has ended its
status, detail and reply body. -/
structure BgCmd where
  op : Nat
  tr : Nat
  who : Nat
  tag : Nat
  arg : List Nat
  fg : Bool
  mctp : Option (Nat × Nat) := none
  link : Option Nat := none
  done : Bool := false
  status : Nat := 0
  detail : Nat := 0xffffffff
  body : List Byte := []
deriving DecidableEq, Repr

/-- A packet that waits in the management queue (R333): its opcode, the packet, and whether its reply will be discarded (R335). -/
structure QPkt where
  op : Nat
  pkt : Pkt
  mute : Bool := false
deriving DecidableEq, Repr

/-- An SPDM responder session (R354): its number, what carries it, mutual authentication, owner-rooted chain, and whether FINISH has ended
its handshake. -/
structure Session where
  id : Nat
  via : SpdmVia
  mutAuth : Bool
  ownerRooted : Bool
  fin : Bool := false
deriving DecidableEq, Repr

/-- The management processor (R341 to R363). -/
structure MgtS where
  /-- Firmware has entered and runs (Table 14.3 step 7), outside a restart. -/
  fwRun : Bool := false
  /-- A management restart is in progress (R344). -/
  restart : Bool := false
  /-- READY has been set since the last COLD or WARM reset: the boot has completed (R39). -/
  booted : Bool := false
  romDone : Bool := false
  /-- Commands in progress by a running number, and the next number. -/
  bg : Tbl BgCmd := []
  nextBg : Nat := 0
  /-- The queue of R333, of 64 entries: packets that wait for a command in the foreground to end; and while one of them is taken up,
  whether its reply is discarded. -/
  cmdq : List QPkt := []
  taking : Option Bool := none
  /-- The Background Command Status register of each mailbox (R334): the opcode and number of its last background command. -/
  bgStat : Tbl (Nat × Nat) := []
  sessions : List Session := []
  nextSession : Nat := 0
  activatePending : Bool := false
  tierLim : List Nat := [0, 63, 0, 63, 0, 63, 0, 3, 0, 3]
  linkCfg : List Nat := []
  bootKind : Nat := 0
  /-- The device identity public key and the alias private key, as the boot ROM derived them (R353), and whether the device seed can be
  read (Table 14.3 step 7). -/
  devicePub : BitVec 256 := 0
  aliasKey : BitVec 384 := 0
  seedOpen : Bool := true
  /-- The instruction and data TCMs as the boot ROM loaded them (R341, Table 14.3 step 5); a byte beyond a list is 0. -/
  itcm : List Byte := []
  dtcm : List Byte := []
  /-- Pages of the instruction TCM with the device time of their last uncorrectable fetch (R342). -/
  fetchAt : Tbl Nat := []
  /-- Management restarts since COLD reset (Table 14.6). -/
  restarts : Nat := 0
  /-- The dynamic address of the I3C target, once assigned (R361). -/
  i3cAddr : Option (BitVec 7) := none
deriving DecidableEq, Repr

/-- A committed HDM decoder of a head (R42, R75): HPA base, size and DPA base in bytes, interleave ways, log2 of the
granularity, Back-Invalidate enabled, Lock On Commit. -/
structure Decoder where
  base : Nat
  size : Nat
  dpaBase : Nat
  ways : Nat
  gran : Nat
  bi : Bool
  lock : Bool
deriving DecidableEq, Repr

/-- A CXL.mem request as the slices see it (Table 4.3). -/
inductive ROp where
  | rd (m : Meta)
  | rdData
  | inv (m : Meta)
  | invNT
  | clnEvct
  | wr (m : Meta) (data : LineData) (poison : Bool)
  | wrPtl (m : Meta) (data : LineData) (mask : BitVec 64) (poison : Bool)
deriving DecidableEq, Repr

/-- Who issued a request that a home slice orders (R16, R306). -/
inductive Origin where
  | host
  | jobRead (slice : Nat)
  | jobWrite (slice : Nat)
  | fetch (head queue : Nat)
  | record (head queue : Nat)
  | copy (win : Nat)
  | apply
  | partnerRead
  | export_ (ring : Nat)
  | dirRebuild
deriving DecidableEq, Repr

/-- A request on its way: the head, its HPA line as received, its tag, the operation, and once resolved its alias,
class, DPA line, window entry, whether it is conforming (R310), and the rival ports of the same cycle (R86). -/
structure Req where
  org : Origin := .host
  head : Nat
  hpa : Nat := 0
  tag : Nat := 0
  op : ROp
  alias_ : Nat := 0
  cls : Nat := 0
  dpa : Nat := 0
  win : Nat := 0
  conf : Bool := false
  rivals : Nat := 0
  /-- The request has passed alias resolution. -/
  res : Bool := false
  /-- A write that is the data of an open snoop of its head (R98). -/
  sd : Bool := false
  /-- The common-slot arbiter has granted it its slot (R314). -/
  gr : Bool := false
  /-- The group of requests of one cycle that it arrived in, 0 for none (R86). -/
  grp : Nat := 0
deriving DecidableEq, Repr

/-- An IDE stream (R53): its keys by direction and key set (2 * set + 1 for transmit), and the directions that run. -/
structure IdeS where
  keys : Tbl (BitVec 256) := []
  tx : Bool := false
  rx : Bool := false
deriving DecidableEq, Repr

/-- A port and its head beyond the DVSEC registers. -/
structure PortS where
  /-- HEAD_PERST_N is low. -/
  perst : Bool := true
  /-- Link in L0. -/
  up : Bool := false
  /-- CXL negotiated at 8 GT/s or above (R37). -/
  cxl : Bool := false
  inL1 : Bool := false
  /-- Advertised rate code, rate cap code, SRIS (R34, R35, R339). -/
  adv : Nat := 6
  cap : Nat := 6
  sris : Bool := false
  eqFails : Nat := 0
  memEn : Bool := false
  restored : Bool := false
  /-- The head has sent viral (R61). -/
  viral : Bool := false
  /-- CXL.mem stopped after a MAC failure (R56). -/
  macStop : Bool := false
  /-- Since a MAC failure, no new CXL.mem keys have taken effect (R56). -/
  needKeys : Bool := false
  /-- Requests whose IDE epoch has not verified yet (R54), in arrival order. -/
  epoch : List Req := []
  /-- IDE streams: 0 CXL.io link, 1 and 2 CXL.io selective, 3 CXL.mem (R53). -/
  ide : Tbl IdeS := []
  /-- Correctable-error status of AER and CXL RAS (R59): bit 0 CRC errors recovered by replay, bit 1 FEC corrections. -/
  aer : Nat := 0
  /-- Reads completed in the running 1 µs interval, and the sum of their latencies in ns (R58). -/
  reads : Nat := 0
  latSum : Nat := 0
  decoders : Tbl Decoder := []
  /-- Decoders whose last commit failed: Error Not Committed (R43). -/
  decErr : Nat := 0
  /-- The receive buffer: requests held by R62 or by the escapement (R312), in arrival order. -/
  rx : List Req := []
  /-- Tokens in bytes per class (R310). -/
  tokens : Tbl Nat := []
  /-- Bytes passed in the COMPAT window (R316). -/
  compat : Nat := 0
  heldThis : Bool := false
  heldQuiet : Nat := 4
  lowRuns : Nat := 0
  /-- Dynamic Capacity: extents held and offered (start, length in 2 MiB units, window, region). -/
  extents : List (Nat × Nat × Nat) := []
  offers : List (Nat × Nat × Nat) := []
  cdat : List Nat := []
deriving DecidableEq, Repr

/-- The empty port. -/
def PortS.empty : PortS := {}

/-- A window-table change in progress (R71 to R73): the old and the new image, the held requests, whether fills are
outstanding, whether this is a create, modify or remove, and the background command it answers. -/
structure WinChg where
  win : Nat
  img : List Nat
  filling : Bool
  kind : Nat
  bg : Option Nat := none
  held : List Req := []
  /-- Leaves of 2 KiB that the zero fill has written (R72). -/
  done : Nat := 0
deriving DecidableEq, Repr

/-- Windows and Dynamic Capacity beyond the WIN registers. -/
structure WinS where
  chg : List WinChg := []
  /-- Entries that failed their check and are not served until rewritten (R74). -/
  faulted : List Nat := []
  /-- Tiered windows being removed while extents remain (R73). -/
  removing : List Nat := []
  /-- Dynamic Capacity regions: base and length in 256 MiB units, block code (R48). -/
  dc : Tbl (Nat × Nat × Nat) := []
  /-- Directory segment of each SHARED window: MPA and bytes (R89). -/
  dirSeg : Tbl (Nat × Nat) := []
deriving DecidableEq, Repr

/-- An open snoop of one head (R96, R98): the alias numbers whose BIRsp is still awaited, the kind, the least-invalid answer
so far, the MetaValue of a writeback that came as the snoop's data, and how many such writebacks still wait to be accepted. -/
structure Snoop where
  head : Nat
  wait : List Nat
  kind : SnpKind
  ans : BiRsp := .i
  wb : Option Meta := none
  owe : Nat := 0
deriving DecidableEq, Repr

/-- Which transaction slot a transaction holds (R313). -/
inductive SlotKind where
  | write | agent | rsv (c : Nat) | common (c : Nat)
deriving DecidableEq, Repr

/-- What an open transaction waits for (R85): its snoops, a DRAM read, a sub-block decode, a read-modify-write of the
line in progress, read-through data, or a directory rebuild. -/
inductive TWait where
  | snoops | dram | decode | merge | readThrough (msg : Nat) | rebuild
deriving DecidableEq, Repr

/-- An open transaction of a home slice. -/
structure Trans where
  line : Nat
  req : Req
  snoops : List Snoop := []
  wait : TWait
  slot : SlotKind
  /-- MetaValue of the data response. -/
  mv : Nat := 0
deriving DecidableEq, Repr

/-- A line in the line buffer (R17, R18): the newest accepted data, its poison reason, writes of it that have not
reached DRAM, and the bytes of a partial write whose merge is in progress (R142). -/
structure LBuf where
  data : LineData
  poison : Nat := 0
  pend : Nat := 0
  part : Option (BitVec 64) := none
deriving DecidableEq, Repr

/-- A directory cache entry (R90). -/
structure DirEnt where
  line : Nat
  ent : Nat
  dirty : Bool
deriving DecidableEq, Repr

/-- A RECLAIM sweep (R108): the lost head, the windows still to sweep, the next entry of the first. -/
structure Sweep where
  head : Nat
  wins : List Nat
  cur : Nat := 0
deriving DecidableEq, Repr

/-- The sixteen home slices. -/
structure HomeS where
  trans : List Trans := []
  /-- Wait lists and the writeback lane's waiting writes, in arrival order (R85, R93). -/
  waits : List Req := []
  retry : List Req := []
  xbar : List Req := []
  lbuf : Tbl LBuf := []
  dcache : Tbl DirEnt := []
  plru : Tbl Nat := []
  victims : List DirEnt := []
  sweeps : List Sweep := []
  /-- Mem_Enable and covered windows latched at a WARM reset (R110). -/
  latched : List (Nat × List Nat) := []
  /-- Virtual times of each arbiter and class (R314): key arbiter * 16 + class. -/
  vt : Tbl Nat := []
  /-- BIConflicts waiting for earlier completions (R99): head, HPA line, DPA line, tags of the requests still owed. -/
  biConf : List (Nat × Nat × Nat × List Nat) := []
  /-- Lines that agents have had read or snooped for them and have not used yet (R95, R267): agent, line, and the data and poison
  reason where they came with it. -/
  got : List (Origin × Nat × Option (LineData × Nat)) := []
  /-- Writes of agents that their slices have applied, and their agents have not been told of yet (R95): agent, line, whether the write
  was lost with its page (R221), and the mirror message whose MACK it must wait for. -/
  wrote : List (Origin × Nat × Bool × Option Nat) := []
  /-- Requests of one CORE cycle for a line (R86): the ports in take-up order, the mask of those still to come, and the group's number. -/
  cyc : Tbl (List Nat × Nat × Nat) := []
  /-- The number of the last such group. -/
  grpN : Nat := 0
  /-- The pointer of a slice at the start of the cycle whose requests are still arriving (R86). -/
  cyc0 : Tbl Nat := []
  /-- Lines whose directory entry is unknown and not rebuilt yet (R111). -/
  dirBad : List Nat := []
  /-- Store lines (DPA line / 8) under rebuild of which an entry has become L (R111). -/
  dirL : List Nat := []
  /-- Top-down slots that each slice has retired or wasted since the last tick (R426, log entry 8). -/
  taken : Tbl Nat := []
deriving DecidableEq, Repr

/-- What a DRAM request continues when it is done. -/
inductive DPurp where
  /-- The data write of an accepted line. -/
  | line (dpa : Nat)
  /-- The read of an open transaction. -/
  | host (dpa : Nat)
  /-- The read of a read-modify-write (R142). -/
  | rmw (dpa : Nat)
  /-- A sweep read, with the number of the attempt (R145). -/
  | scrub (attempt : Nat) (inject : Option (Nat × Nat))
  /-- A conditional corrective or marker write (R126), with the attempt, the codeword that the scrubber's read found, and the command
  and count of the injection it answers (R383). -/
  | corrective (attempt : Nat) (marker : Bool) (was : Codeword) (inject : Option (Nat × Nat))
  /-- An access to metadata, to a cell's line or by an agent, whose data moved when the access was made (log entry 80). -/
  | access
deriving DecidableEq, Repr

/-- A request at a subchannel (Table 5.3): number, MPA line, codeword of a write, source row, purpose, urgency, class
(8 is QA), conforming, the head whose age it takes, whether a newer write overtook it (R126), whether it has opened its row, whether it
stands in its queue, and the codeword of a queued write that serves it (R125). -/
structure DReq where
  id : Nat
  mpa : Nat
  wr : Option Codeword := none
  source : Nat
  purp : DPurp
  urg : Nat := 0
  cls : Nat := 8
  conf : Bool := false
  port : Option Nat := none
  stale : Bool := false
  act : Bool := false
  entered : Bool := false
  served : Option Codeword := none
deriving DecidableEq, Repr

/-- One subchannel scheduler. The first 64 of rq and 96 of wq, and 4 of each bank of mq, stand in its queues; the rest
wait upstream in order (R116). -/
structure SubS where
  rq : List DReq := []
  wq : List DReq := []
  mq : List DReq := []
  issued : List DReq := []
  ptr : Nat := 0
  /-- Open rows by rank, bank group and bank, with the run of column commands (R119), and whether metadata opened it (R121). -/
  rows : Tbl (Nat × Nat × Bool) := []
  /-- The last column commands, newest first: metadata or not (R120). -/
  cols : List Bool := []
  /-- Banks blocked by a soft repair (R152): rank * 32 + bank group * 4 + bank. -/
  blocked : List Nat := []
  /-- Classes that had a candidate at the last pick (R314). -/
  had : List Nat := []
  /-- Refresh intervals postponed, and refresh commands forced and not issued yet, by rank (R127). -/
  post : Tbl Nat := []
  forced : Tbl Nat := []
deriving DecidableEq, Repr

/-- One rank (key channel * 8 + rank). -/
structure RankS where
  retrain : Bool := false
  trainTemp : Option Int := none
  hot : Bool := false
  calm : Nat := 0
  laneRetrainAt : Option Nat := none
deriving DecidableEq, Repr

/-- A correction seen on a lane (R147): rank key, subchannel, device, DQ bit, row of a bank, time. -/
structure LaneHit where
  rank : Nat
  sub : Nat
  dev : Nat
  dq : Nat
  row : Nat
  time : Nat
deriving DecidableEq, Repr

/-- The channels, the scrubber, retirement and repair. -/
structure MchS where
  sub : Tbl SubS := []
  rank : Tbl RankS := []
  nextId : Nat := 0
  pop : List (Option Spd) := []
  /-- MPA lines that demand reads corrected (R138). -/
  scrubQ : List Nat := []
  scrubBusy : Bool := false
  lanes : List LaneHit := []
  /-- Uncorrectable lines of a rank: rank key, row, time (R379). -/
  ues : List (Nat × Nat × Nat) := []
  /-- Redirected frame to spare frame (R149). -/
  redirect : Tbl Nat := []
  /-- Spare frames taken. -/
  spares : List Nat := []
  /-- Frame retirement in progress (R150): the frame to copy, the spare, the number of the first request that is held, the reply. -/
  retiring : Option (Nat × Nat × Nat × Option Nat) := none
  /-- Soft repair in progress of a channel (R152): subchannel, rank, bank group, bank, device, row, command; and the lines as they were
  read and as they are held. -/
  ppr : Tbl (List Nat) := []
  pprBuf : Tbl (List (Codeword × Codeword)) := []
  /-- Repairs made (R152): channel, subchannel, rank, bank group, bank, device, row, and 1 if hard. -/
  pprUsed : List (List Nat) := []
  /-- Ranks of a channel still to retrain in turn (RETRAIN_NOW). -/
  retrainQ : List (Nat × Nat) := []
  /-- Failed slots out of service (R269, R379). -/
  out : List Nat := []
  initDone : Bool := false
  /-- Lines rewritten by an injection, and what they hold since (R383). -/
  inj : List (Nat × Codeword) := []
  trained : Bool := false
deriving DecidableEq, Repr

/-- The empty subchannel and rank. -/
def SubS.empty : SubS := {}
def RankS.empty : RankS := {}

/-- A node of a counter tree held in the counter cache (R174): range, level, index, the 64 bytes, dirty. -/
structure CNode where
  n : Nat
  level : Nat
  idx : Nat
  data : Nat
  dirty : Bool
deriving DecidableEq, Repr

/-- A line of the tag cache or of the tier map cache: which cache (0 tags, 1 page map), the line, dirty. -/
structure MLine where
  kind : Nat
  data : Nat
  dirty : Bool
deriving DecidableEq, Repr

/-- A minor overflow in progress (R177): range, leaf, DPA of its first line, the triggering write. -/
structure Ovf where
  n : Nat
  leaf : Nat
  base : Nat
  req : Req
deriving DecidableEq, Repr

/-- A quarantined subtree being rebuilt (R186): range, level and index of the lost node, next level and node, the counter and the
MAJOR that its nodes take, and whether the pages in cell form under it have still to be lost (R185). -/
structure Quar where
  n : Nat
  level : Nat
  idx : Nat
  curLevel : Nat
  curIdx : Nat
  ctr : Nat := 0
  maj : Nat := 0
  new : Bool := true
deriving DecidableEq, Repr

/-- An allotment of the metadata region (Table 8.6): structure (0 directory, 1 tag table, 2 tree, 3 page map, 4 frame
table), object, first 2 MiB unit of MPA, units. -/
structure Allot where
  kind : Nat
  obj : Nat
  base : Nat
  units : Nat
deriving DecidableEq, Repr

/-- Keys, root store, metadata caches. -/
structure SecS where
  /-- Key slots: key 2n + s of range n, slot s (0 CURRENT, 1 NEXT). -/
  keys : Tbl Nat := []
  roots : Tbl Nat := []
  nodes : Tbl CNode := []
  mlines : Tbl MLine := []
  /-- High-water marks collected for the new key during a rotation: MHW, CHW. -/
  newHw : Tbl (Nat × Nat) := []
  ovf : List Ovf := []
  quar : List Quar := []
  allot : List Allot := []
  /-- KEY_LOAD of CURRENT initializing the tree (R159). -/
  init : List Nat := []
  /-- The key of the root-spill CMAC, held in the crock (R191). -/
  spillKey : Nat := 0
  /-- The copies of the key slots in the crock during S2 and S3 (R191, R192). -/
  crockKeys : Tbl Nat := []
  /-- The SEC domains have lost the key slots to the crock (R191, R192). -/
  away : Bool := false
  /-- Leaves that stand QUAR after their rebuild: range and leaf (R185, R186). -/
  qleaf : List (Nat × Nat) := []
  /-- A security halt that the settling of this command enters (R189): cause, key range, source, address, whether the address is MPA. -/
  haltPend : Option (Nat × Nat × Nat × Nat × Bool) := none
deriving DecidableEq, Repr

/-- An entry of the hot-line cache (R207): sub-block number, its 16 lines, valid, dirty and poison masks, poison reason. -/
structure HEnt where
  x : Nat
  lines : List LineData
  valid : BitVec 16
  dirty : BitVec 16
  poison : BitVec 16 := 0
  reason : Nat := 0
deriving DecidableEq, Repr

/-- A stored cell (R200): the page it holds, its class 1..8, the effort that coded it, and the 64 lines that were coded: a field of the
model's own, by which a stream that reads back as it was written decodes to what it codes (log entry 12). -/
structure Cell where
  page : Nat
  cls : Nat
  eff : Nat
  lines : List LineData
deriving DecidableEq, Repr

/-- Tiering. -/
structure TierS where
  /-- Frame table by frame number: role (0 FREE, 1 NEAR, 2 CELLS, 3 BUSY, 4 SUSPECT) and mask of used blocks (R217). -/
  frames : Tbl (Nat × Nat) := []
  /-- Cells by first 512 B block. -/
  cells : Tbl Cell := []
  hlc : Tbl HEnt := []
  plru : Tbl Nat := []
  /-- Sub-block decodes in progress (R22). -/
  decoding : List Nat := []
  /-- Dirty victims queued for re-encoding (R209). -/
  reQ : List HEnt := []
  promoQ : List Nat := []
  /-- Time of the last counted access of a page (R212). -/
  lastAcc : Tbl Nat := []
  /-- Requests that wait for an allocation (R226) or for room in a re-encode queue (R209). -/
  waits : List Req := []
  rebuild : Bool := false
deriving DecidableEq, Repr

/-- A mirror message or other pair-link message: type, payload, and for VC0 its number, window and granule, whether it is
a copy, and the host completion that waits for its MACK. -/
structure PMsg where
  mtype : Nat
  payload : List Byte
  num : Nat := 0
  win : Nat := 0
  granule : Nat := 0
  copy : Bool := false
  cpl : Option (Nat × Nat × Rsp) := none
deriving DecidableEq, Repr

/-- A pending read-through (R267): tag, DPA line, whether it serves a slot rebuild. -/
structure RtPend where
  tag : Nat
  line : Nat
  win : Nat
  rebuild : Bool
  sent : Bool := true
deriving DecidableEq, Repr

/-- An RTRD held at the partner side (R268). -/
structure RtHeld where
  win : Nat
  line : Nat
  tag : Nat
  num : Nat
deriving DecidableEq, Repr

/-- Mirroring. -/
structure MirS where
  /-- Pairing record in force: ROLE and partner digest (R254). -/
  pairing : Option (Nat × Nat) := none
  /-- Partner shadow: windows (GEN, W0..W5), key ranges (GEN, CFG, BASE, SIZE), mirror states (STATE, flags, PEER). -/
  shWin : Tbl (List Nat) := []
  shKr : Tbl (List Nat) := []
  shMst : Tbl (List Nat) := []
  /-- An SACK has arrived since the entry to UP, so the partner's first SREC and MSTATE records are in the shadow (log entry 32). -/
  shGot : Bool := false
  /-- The link has been UP since it last went down: the shadow has been current (R257). -/
  shCur : Bool := false
  gens : Tbl Nat := []
  /-- Next VC0 number, applied count. -/
  nextNum : Nat := 0
  applied : Nat := 0
  /-- VC0 messages accepted and not yet covered by a MACK, in number order. -/
  unacked : List PMsg := []
  /-- Messages of VC0 handed to the home slices and not yet applied. -/
  apply : List PMsg := []
  /-- Writes waiting for mirror-queue room (R261). -/
  waits : List Req := []
  rtPend : List RtPend := []
  rtHeld : List RtHeld := []
  nextRt : Nat := 0
  /-- Held fence reads: head, window, last covered number (R262). -/
  fences : List (Nat × Nat × Nat) := []
  /-- Dirty granules: window * 2^40 + granule. -/
  dirty : Tbl Bool := []
  /-- Bitmap blocks allotted: window * 2^40 + block. -/
  blocks : List Nat := []
  /-- Slot rebuild (R270): slot, then the windows and granules still to visit. -/
  rebuild : List (Nat × Nat × Nat) := []
  /-- A promotion waiting for the sideband answer (R272): target, window, reply. -/
  claim : Option (Nat × Nat × Option Nat) := none
  /-- Flags of the partner's last sideband message. -/
  sbFlags : Nat := 0
  /-- Lines that a rebuild has had from the partner, with their poison reasons (R270). -/
  rbGot : List (Nat × LineData × Nat) := []
deriving DecidableEq, Repr

/-- Service classes beyond the QOS registers. -/
structure QosS where
  /-- Class settings that take effect at the next interval boundary (R308): class, KIND, WEIGHT, RSV, MAX, WAYS, GBW of each port. -/
  pend : List (List Nat) := []
  /-- Bytes left in the excess bucket, and what fills it in 1 µs (R320). -/
  excess : Nat := 0
  excessRate : Nat := 0
  /-- C_now in 0.1 GB/s, s, and s_p of each port in force, as fractions (R319, R320). -/
  cap : Nat × Nat := (0, 1)
  scale : Nat × Nat := (1, 1)
  scaleP : Tbl (Nat × Nat) := []
  rise : Bool := false
  applied : List Nat := []
deriving DecidableEq, Repr
/-- A DATA frame that is outstanding (R237): its SEQ, virtual channel and key phase, and its bytes as first sent (R243). -/
structure PFrame where
  seq : Nat
  vc : Nat
  ph : Nat
  bytes : List Byte
deriving DecidableEq, Repr

/-- A direction key of the pair link: 256-bit key and 96-bit IV base (R193). -/
structure PKey where
  key : Nat
  iv : Nat
deriving DecidableEq, Repr

/-- The transmit stream under its coding (R229): bits not yet in a codeword, how many, the place in the round robin over the active
lanes, payload codewords since the last alignment slot, and the stripe epoch. -/
structure TxStream where
  bits : Nat := 0
  len : Nat := 0
  lane : Nat := 0
  words : Nat := 0
  epoch : Nat := 0
deriving DecidableEq, Repr

/-- The pair link beyond the PAIR registers (chapter 9). -/
structure PairS where
  /-- Messages that wait for each virtual channel, oldest first. -/
  txq : Tbl (List PMsg) := []
  /-- Outstanding frames, oldest first. -/
  outst : List PFrame := []
  /-- SEQ numbers still to resend of the replay in progress. -/
  replay : List Nat := []
  /-- Consecutive expiries without progress (R243). -/
  expiries : Nat := 0
  /-- The DOWN retry timer has expired (R248). -/
  retryOk : Bool := true
  /-- The link stays DOWN until COLD reset after an own halt (R248), or until the ROLE conflict ends (R254). -/
  held : Bool := false
  /-- GCM count of the next frame sent, and highest verified count of the receive phase and of the old phase. -/
  txCnt : Nat := 0
  rxH : Nat := 0
  rxAny : Bool := false
  rxOldH : Nat := 0
  /-- The keys of the current phase of each direction; none while the link holds none (R246, R247). -/
  txKey : Option PKey := none
  rxKey : Option PKey := none
  /-- Keys of the old phase that the receiver and the transmitter still hold, and of the new phase that the receiver holds (R244). -/
  rxOld : Option PKey := none
  txOld : Option PKey := none
  rxNew : Option PKey := none
  /-- The key of a completed update of the transmit direction, which the next first-sent frame uses. -/
  txNext : Option PKey := none
  /-- The SPDM message whose fragments arrive (R235). -/
  spdmIn : Option (List Byte) := none
  /-- What the lanes carry (R229). -/
  str : TxStream := {}
  /-- Session keys in place. -/
  session : Bool := false
  setupTx : Bool := false
  setupRx : Bool := false
  /-- CRTOT last applied and freed totals, by virtual channel. -/
  ret : Tbl Nat := []
  freed : Tbl Nat := []
  crvc : Nat := 0
  /-- DATA frames sent since the last one of VC0 (R236). -/
  sinceVc0 : Nat := 0
  /-- Receive buffers: frames of messages not yet taken, by virtual channel. -/
  rx : Tbl (List (List PMsg)) := []
  /-- A pause: 0 none, 1 requested here, 2 served for the partner, 3 acknowledged by the partner; its width and rate; its command. -/
  pause : Nat := 0
  pauseW : Nat := 16
  pauseR : Nat := 0
  pauseBg : Option Nat := none
  /-- SEQ of the frame that carried PAUSE_ACK; the credits that stand while PAUSED (R249). -/
  pauseSeq : Option Nat := none
  credits : Tbl Nat := []
  /-- SLEEP_REQ sent and its answer; SLEEP_ACK 0 sent. -/
  sleepReq : Bool := false
  sleepOk : Bool := false
  sleepAcked : Bool := false
  /-- HALT message waits to be sent, with its cause. -/
  halt : Option Nat := none
  /-- Receive lanes marked failed and waiting for the restripe; a restripe slot to send for a transmit lane. -/
  rxDrop : List Nat := []
  txRestripe : List Nat := []
  /-- The wake pattern is being sent. -/
  waking : Bool := false
  /-- Failed trainings at 106.25 Gbit/s (R228). -/
  trainFails : Nat := 0
  /-- Times of the GCM failures of the last millisecond (R194). -/
  gcmTimes : List Nat := []
deriving DecidableEq, Repr

/-- A job in flight (R278): its queue, the count at which it was fetched, its descriptor, its place (0 descriptor store,
1 running on a slice, 2 staged at a slice, 3 ended), the slice, and once ended its status, failing slot, bytes out, result
and time; the last mirror message its writes queued in a SYNC window; whether its record carries HALT; the shards it works on by
number and DPA (R296); whether its reads are done; and the writes it has still to make: DPA line, data, byte mask. -/
structure JobE where
  head : Nat
  queue : Nat
  seq : Nat
  desc : List Byte
  place : Nat := 0
  slice : Nat := 255
  status : Nat := 0
  opidx : Nat := 255
  bytes : Nat := 0
  result : Nat := 0
  time : Nat := 0
  msg : Option Nat := none
  halt : Bool := false
  shards : List (Nat × Nat) := []
  ready : Bool := false
  todo : List (Nat × LineData × BitVec 64) := []
deriving DecidableEq, Repr

/-- The job engines beyond their registers. -/
structure JobS where
  jobs : List JobE := []
  /-- Queues (head * 16 + queue) with a descriptor fetch on its way. -/
  fetching : List Nat := []
  /-- Poisoned queues that halt when their jobs have ended: cause, DPA, slot (R302, R304). -/
  halting : Tbl (Nat × Nat × Nat) := []
  /-- Round-robin place over head, then queue (R286), and the virtual times of the classes. -/
  rr : Nat := 0
  vt : Tbl Nat := []
  /-- Queues that halted on a doorbell and have had no consistent count written since (Table 11.9). -/
  badCount : List Nat := []
deriving DecidableEq, Repr

/-- A slot controller beyond the SLT registers (R408 to R411): the phase of the ramp (0 none, 1 ramping, 2 gate-rise check
passed, 3 VOUT reached), the phase of an ordered turn-off (0 none, 1 PWREN low, 2 gate falling) with its cause, and the
temperature of the FET model in millionths of a degree. -/
structure SlotS where
  ramp : Nat := 0
  fall : Nat := 0
  fallCause : Nat := 0
  model : Int := 85000000
  /-- The running time, in 10 µs samples, of BREAKER and of the ramp is the environment's: BREAKER_TRIP, RAMP_TIMEOUT. -/
  spd : Option Spd := none
deriving DecidableEq, Repr

/-- A slot at COLD reset: its temperature stands at its TCOOL (R408), whose reset value is 85. -/
def SlotS.empty : SlotS := {}

/-- Power, clocks and thermal control beyond their registers. -/
structure PwrS where
  /-- VDD_CORE in mV (Table 16.2). -/
  vdd : Nat := 800
  /-- The step of the V/F sequencer in progress: 0 none, 1 clock switch, 2 slew; and the level it moves to. -/
  vf : Nat := 0
  vfTo : Nat := 0
  /-- A sleep request whose conditions do not hold yet: the state, and the background command it answers (R392). -/
  sleepReq : Option (Nat × Option Nat) := none
  /-- A sleep entry in progress (R393): the state being entered and its background command. -/
  entering : Option (Nat × Option Nat) := none
  /-- A sleep exit in progress (R396). -/
  exiting : Bool := false
  /-- The state left by the exit in progress. -/
  exitFrom : Nat := 0
  /-- The timer wake of LEVEL mode is active (R394). -/
  timerWake : Bool := false
  /-- Stage 2 is held until a COLD reset: eight sensors failed (R399). -/
  hold2 : Bool := false
  /-- The throttle condition of TMAX alone (R400). -/
  throt : Bool := false
  /-- SHUTDOWN condition set, and the crock's thermal shutdown record with its counted mark (R404, R405). -/
  shutdown : Bool := false
  shutRec : Option (List Nat) := none
  shutCounted : Bool := false
  /-- CMAC of the root spill in the crock (R191). -/
  spillMac : Nat := 0
deriving DecidableEq, Repr

/-- Reset and power pins, and the progress of resets (R440 to R445). -/
structure PinS where
  /-- SYS_RST_N is low. -/
  sysRst : Bool := true
  /-- The AON rails are up. -/
  aon : Bool := true
  /-- PWR_MAIN_EN, MAIN_PWRGD, and the main domains released from reset. -/
  mainEn : Bool := false
  mainOk : Bool := false
  mainUp : Bool := false
  /-- The controller stays as though SYS_RST_N were low (R441). -/
  mainFault : Bool := false
  /-- A WARM reset in progress: 0 none, 1 flushing, 2 domains reset, 3 waits for a sleep exit. -/
  warm : Nat := 0
  /-- THERMTRIP_N is low. -/
  thermtrip : Bool := false
  /-- PAIR_PRESENT_N is low. -/
  pairPresent : Bool := false
  /-- The MGMT reset is released. -/
  mgmtUp : Bool := false
  /-- Initialization has completed since COLD reset (R445). -/
  initSince : Bool := false
deriving DecidableEq, Repr


/-- The device: everything but DRAM, OTP and the command queue. -/
structure Dev where
  /-- The register file: every register that does not hold its reset value, by key (RegMap). -/
  csr : Tbl Nat := []
  /-- Device time in ns since COLD reset (Table 6.5). -/
  now : Nat := 0
  /-- Number of the next free value: the MODEL'S own counter (log entry 4). -/
  freeN : Nat := 0
  /-- What the block has sent out, newest last (log entry 5). -/
  out : List Out := []
  /-- The part is NLH-7324-AB (Table 0.2; log entry 3). -/
  ab : Bool := false
  /-- The fault hub. -/
  flt : FltS := {}
  /-- The notice rings' gap state. -/
  rings : Tbl RingS := []
  /-- The port samplers. -/
  smp : Tbl SmpS := []
  /-- The management processor. -/
  mgt : MgtS := {}
  /-- SPI flash. -/
  flash : Flash := {}
  /-- Event-log region of the crock (R358). -/
  crockLog : List LogRec := []
  /-- Ports and heads. -/
  port : Tbl PortS := []
  /-- The window table beyond its registers. -/
  win : WinS := {}
  /-- The home slices. -/
  home : HomeS := {}
  /-- The channels. -/
  mch : MchS := {}
  /-- Keys and integrity metadata. -/
  sec : SecS := {}
  /-- Tiering. -/
  tier : TierS := {}
  /-- Mirroring. -/
  mir : MirS := {}
  /-- Service classes. -/
  qos : QosS := {}
  /-- The pair link. -/
  pair : PairS := {}
  /-- The job engines. -/
  job : JobS := {}
  /-- The slot controllers. -/
  slot : Tbl SlotS := []
  /-- Power, clocks and thermal control. -/
  pwr : PwrS := {}
  /-- Reset and power pins. -/
  pin : PinS := {}
deriving DecidableEq, Repr

/-- OTP (R341, R352, R353, R405): fuses of the anti-rollback counter and of the thermal shutdown ledger, and the device seed. -/
structure Otp where
  rollback : Nat := 0
  ledger : Nat := 0
  seed : BitVec 256 := Config.deviceSeed
deriving DecidableEq, Repr

/-- The state of the block: the device, its DRAM, its OTP, and the commands that wait, first in, first out. -/
structure State where
  dev : Dev
  dram : Mem
  otp : Otp
  pending : List Instr
deriving DecidableEq, Repr

/-- The block raises no fault: a detected error is a fault record in the state (R364 to R371). -/
inductive Fault where
  /-- No command raises it; safe. -/
  | none
deriving DecidableEq, Repr

/-- A command without a meaning. -/
inductive Refusal where
  /-- Raised by an arm of exec that is not modelled; safe. -/
  | notModelled (mnemonic : String)
deriving DecidableEq, Repr

/-- The block right after AON power-on with SYS_RST_N low: every register at its reset value, TOP_RST_STS.CAUSE at AON
power-on (R439), memory and queue empty (log entries 1 to 5). -/
def State.reset : State :=
  { dev := {}, dram := [], otp := {}, pending := [] }

end Sys2Proof.Machine
end

