-- ==== Sys2Proof/Machine/Ops.lean ====
section
/-! DEFINITION. The named operations over the state: the register file, the outbox, free values, DRAM lines, and the
three ways a command's effect is lifted to the whole state. -/

namespace Sys2Proof.Machine

/-- The outcome of a step. -/
abbrev Result := Host.Outcome State Fault Refusal

/-! ### Registers -/

/-- The value of the register at key k. -/
def Dev.rd (d : Dev) (k : Nat) : Nat := tget resetWord d.csr k

/-- The register at key k takes value v. -/
def Dev.wr (d : Dev) (k v : Nat) : Dev := { d with csr := tset resetWord d.csr k v }

/-- A field of a register word. -/
def wordField (w lo n : Nat) : Nat := w / 2 ^ lo % 2 ^ n

/-- A register word with one field replaced. -/
def wordPut (w lo n v : Nat) : Nat := w - wordField w lo n * 2 ^ lo + v % 2 ^ n * 2 ^ lo

/-- The value of a field. -/
def Dev.get (d : Dev) (f : Fld) : Nat := wordField (d.rd f.reg) f.lo f.w

/-- A field takes value v, cut to its width; the register's other bits stay. -/
def Dev.set (d : Dev) (f : Fld) (v : Nat) : Dev := d.wr f.reg (wordPut (d.rd f.reg) f.lo f.w v)

/-- A one-bit field. -/
def Dev.flag (d : Dev) (f : Fld) : Bool := d.get f != 0

/-- A one-bit field takes value b. -/
def Dev.setFlag (d : Dev) (f : Fld) (b : Bool) : Dev := d.set f b.toNat

/-- A saturating count. -/
def Dev.bumpSat (d : Dev) (f : Fld) (n : Nat) : Dev := d.set f (min (d.get f + n) (2 ^ f.w - 1))

/-- A count that wraps. -/
def Dev.bump (d : Dev) (f : Fld) (n : Nat) : Dev := d.set f (d.get f + n)

/-- A count falls, not below 0. -/
def Dev.drop (d : Dev) (f : Fld) (n : Nat) : Dev := d.set f (d.get f - n)

/-- Bit i of a mask field. -/
def Dev.bit (d : Dev) (f : Fld) (i : Nat) : Bool := (d.get f).testBit i

/-- Bit i of a mask field takes value b. -/
def Dev.setBit (d : Dev) (f : Fld) (i : Nat) (b : Bool) : Dev :=
  let v := d.get f
  d.set f (if b then v ||| 2 ^ i else v - (v &&& 2 ^ i))

/-- A complement-checked register takes value v, its partner the complement (R9). -/
def Dev.wrPair (d : Dev) (k kc v : Nat) : Dev := (d.wr k v).wr kc (0xffffffff - v)

/-- R9: whether REG and REG_C match. -/
def Dev.pairMatch (d : Dev) (k kc : Nat) : Bool := d.rd k + d.rd kc == 0xffffffff

/-- The registers of the domains that p selects return to their reset values (R10). -/
def Dev.resetRegs (d : Dev) (p : RDom → Nat → Bool) : Dev :=
  { d with csr := tdrop (fun k => let x := domAt k; p x.1 x.2) d.csr }

/-! ### Messages out, free values, time -/

/-- A message leaves the block. -/
def Dev.emit (d : Dev) (o : Out) : Dev := { d with out := d.out ++ [o] }

/-- Messages leave the block in order. -/
def Dev.emits (d : Dev) (l : List Out) : Dev := { d with out := d.out ++ l }

/-- A fresh free value (log entry 4). -/
def Dev.free (d : Dev) : Nat × Dev := ((Config.freeValue d.freeN).toNat, { d with freeN := d.freeN + 1 })

/-- An MSI-X vector of a head is raised. -/
def Dev.msix (d : Dev) (h vec : Nat) : Dev := d.emit (.msix h vec)

/-! ### Ports -/

/-- The port or head p. -/
def Dev.portOf (d : Dev) (p : Nat) : PortS := (tfind d.port p).getD PortS.empty

/-- The port p becomes f of it. -/
def Dev.updPort (d : Dev) (p : Nat) (f : PortS → PortS) : Dev := { d with port := tins d.port p (f (d.portOf p)) }

/-- Host software has set Mem_Enable of head h. -/
def Dev.memEn (d : Dev) (h : Nat) : Bool := (d.portOf h).memEn

/-- R37: the link of head h runs without CXL, so that its port offers configuration space only. -/
def Dev.cfgOnly (d : Dev) (h : Nat) : Bool := (d.portOf h).up && !(d.portOf h).cxl

/-- The heads 0 to 31. -/
def heads : List Nat := List.range 32

/-! ### DRAM -/

/-- The byte at a data MPA. -/
def Mem.byte (m : Mem) (a : Nat) : Byte := tget (fun _ => 0) m a

/-- The key of check symbol j of line l. -/
def chkKey (l j : Nat) : Nat := 2 ^ 44 + 16 * l + j

/-- The keys of the 80 symbols of line l, in symbol order (Table 6.1). -/
def lineKeys (l : Nat) : List Nat := (List.range 64).map (fun i => 64 * l + i) ++ (List.range 16).map (chkKey l)

/-- The number whose base-256 digits, least significant first, are l. -/
def ofBytes : List Nat → Nat
  | [] => 0
  | b :: t => b + 256 * ofBytes t

/-- The first n base-256 digits of v, least significant first. -/
def toBytes : Nat → Nat → List Nat
  | 0, _ => []
  | n + 1, v => v % 256 :: toBytes n (v / 256)

/-- The codeword stored at MPA line l. -/
def Mem.line (m : Mem) (l : Nat) : Codeword := BitVec.ofNat 640 (ofBytes ((lineKeys l).map (fun k => (m.byte k).toNat)))

/-- One byte is stored; storing what an unlisted byte reads as removes the entry. -/
def Mem.put (m : Mem) (a : Nat) (b : Byte) : Mem := tset (fun _ => 0) m a b

/-- Bytes are stored at their keys. -/
def Mem.puts (m : Mem) : List (Nat × Nat) → Mem
  | [] => m
  | e :: t => Mem.puts (m.put e.1 (BitVec.ofNat 8 e.2)) t

/-- A codeword is stored at MPA line l. -/
def Mem.putLine (m : Mem) (l : Nat) (c : Codeword) : Mem := m.puts ((lineKeys l).zip (toBytes 80 c.toNat))

/-- The memory's canonical form. -/
def Mem.wf (m : Mem) : Bool := tcanon (fun _ => (0 : Byte)) m

/-- What a command stores to DRAM: one line, or the all-zero codeword to the lines lo to hi - 1. -/
inductive MemOp where
  | line (l : Nat) (c : Codeword)
  | zero (lo hi : Nat)
deriving DecidableEq, Repr

/-- Whether key k holds a symbol of a line in [lo, hi). -/
def keyIn (lo hi k : Nat) : Bool :=
  if k < 2 ^ 44 then lo * 64 ≤ k && k < hi * 64 else chkKey lo 0 ≤ k && k < chkKey hi 0

/-- One store. -/
def Mem.apply (m : Mem) : MemOp → Mem
  | .line l c => m.putLine l c
  | .zero lo hi => tdrop (keyIn lo hi) m

/-- The stores of a command, in order. -/
def Mem.commit (m : Mem) : List MemOp → Mem
  | [] => m
  | o :: t => Mem.commit (m.apply o) t

/-- What a DRAM request serves (R115, R306): the head whose age it takes, the class and whether it is conforming. -/
structure Serve where
  port : Option Nat := none
  cls : Nat := 8
  conf : Bool := false

/-- A command at work on DRAM: the device, the DRAM as the command found it, the stores it has made, newest first, and the request
that its accesses to metadata serve. -/
structure Acc where
  dev : Dev
  base : Mem
  log : List MemOp
  srv : Serve := {}

/-- A command begins its work on DRAM. -/
def State.acc (s : State) : Acc := { dev := s.dev, base := s.dram, log := [] }

/-- The newest store that covers line l, if the command made one. -/
def logFind : List MemOp → Nat → Option Codeword
  | [], _ => none
  | .line k c :: t, l => if k = l then some c else logFind t l
  | .zero lo hi :: t, l => if lo ≤ l ∧ l < hi then some 0 else logFind t l

/-- The codeword at MPA line l as the command sees it: its own stores first. -/
def Acc.line (a : Acc) (l : Nat) : Codeword := (logFind a.log l).getD (a.base.line l)

/-- The command stores a codeword. -/
def Acc.store (a : Acc) (l : Nat) (c : Codeword) : Acc := { a with log := .line l c :: a.log }

/-- The command stores the all-zero codeword to lines lo to hi - 1. -/
def Acc.zero (a : Acc) (lo hi : Nat) : Acc := { a with log := .zero lo hi :: a.log }

/-- The command's effect on the device. -/
def Acc.upd (a : Acc) (f : Dev → Dev) : Acc := { a with dev := f a.dev }

/-- The head of a host's request. -/
def Req.hostHead (q : Req) : Option Nat := if q.org = .host then some q.head else none

/-- What follows serves request q. -/
def Acc.serving (a : Acc) (q : Req) : Acc := { a with srv := ⟨q.hostHead, q.cls, q.conf⟩ }

/-! ### Agents (R95) -/

/-- Agents that p selects give up their accesses: their transactions, their waiting requests, and what they have collected. -/
def Dev.agentsGone (d : Dev) (p : Origin → Bool) : Dev :=
  let keep := fun (q : Req) => !p q.org
  { d with home := { d.home with got := d.home.got.filter (fun g => !p g.1), wrote := d.home.wrote.filter (fun g => !p g.1)
                                 trans := d.home.trans.filter (fun t => keep t.req)
                                 waits := d.home.waits.filter keep, retry := d.home.retry.filter keep, xbar := d.home.xbar.filter keep }
           tier := { d.tier with waits := d.tier.waits.filter keep }
           mir := { d.mir with waits := d.mir.waits.filter keep } }

/-! ### Lifting -/

/-- The effect of a command that touches the device only. -/
def onDev (f : Dev → Dev) (s : State) : Result := .next { s with dev := f s.dev }

/-- The effect of a command that reads DRAM and touches the device only. -/
def onRead (f : Mem → Dev → Dev) (s : State) : Result := .next { s with dev := f s.dram s.dev }

/-- The stores that f makes from state s, oldest first. -/
def storesOf (f : Acc → Acc) (s : State) : List MemOp := (f s.acc).log.reverse

/-- The effect of a command that stores to DRAM. -/
def onAcc (f : Acc → Acc) (s : State) : Result :=
  .next { s with dev := (f s.acc).dev, dram := s.dram.commit (storesOf f s) }

/-- The effect of a command that touches the device and the OTP. -/
def onOtp (f : Dev → Otp → Dev × Otp) (s : State) : Result :=
  .next { s with dev := (f s.dev s.otp).1, otp := (f s.dev s.otp).2 }

/-- Apply f when the condition of a command holds; a command whose condition fails does not occur (log entry 6). -/
def Dev.when (d : Dev) (c : Bool) (f : Dev → Dev) : Dev := if c then f d else d

/-- As Dev.when, for a command that stores. -/
def Acc.when (a : Acc) (c : Bool) (f : Acc → Acc) : Acc := if c then f a else a

end Sys2Proof.Machine
end

