-- ==== Sys2Proof/Machine/Ecc.lean ====
section
/-! DEFINITION. The stored-line code RS(80,64) with its poison markers (06_memory_protection.md R134 to R140), the
erasure code and checksums of the job engines (11_job_engines.md), and CRC-16 of the sideband (R271). -/

namespace Sys2Proof.Machine

/-! ### GF(2^8) with polynomial 0x11D -/

/-- Multiplication by α = 0x02. -/
def gfDouble (a : Nat) : Nat := if a < 128 then 2 * a else (2 * a) ^^^ 0x11D

/-- The product of a and the low n bits of b. -/
def gfMulN : Nat → Nat → Nat → Nat
  | 0, _, _ => 0
  | n + 1, a, b => (if b % 2 = 1 then a else 0) ^^^ gfMulN n (gfDouble a) (b / 2)

/-- The product in the field. -/
def gfMul (a b : Nat) : Nat := if a = 0 ∨ b = 0 then 0 else gfMulN 8 a b

/-- α^n. -/
def gfExp : Nat → Nat
  | 0 => 1
  | n + 1 => gfDouble (gfExp n)

/-- a^n. -/
def gfPow (a : Nat) : Nat → Nat
  | 0 => 1
  | n + 1 => gfMul a (gfPow a n)

/-- The inverse, 0 for 0. -/
def gfInv (a : Nat) : Nat :=
  let a2 := gfMul a a
  let a4 := gfMul a2 a2
  let a8 := gfMul a4 a4
  let a16 := gfMul a8 a8
  let a32 := gfMul a16 a16
  let a64 := gfMul a32 a32
  let a128 := gfMul a64 a64
  gfMul a2 (gfMul a4 (gfMul a8 (gfMul a16 (gfMul a32 (gfMul a64 a128)))))

/-- The value at x of the polynomial with coefficients l, highest degree first. -/
def gfHorner (x : Nat) (l : List Nat) : Nat := l.foldl (fun s c => gfMul s x ^^^ c) 0

/-- The value at x of the polynomial with coefficients l, lowest degree first. -/
def gfEval (x : Nat) : List Nat → Nat
  | [] => 0
  | c :: t => c ^^^ gfMul x (gfEval x t)

/-- The product of polynomials, lowest degree first, cut to n coefficients. -/
def gfPolyMul (n : Nat) (a b : List Nat) : List Nat :=
  (List.range n).map (fun k => (List.range (k + 1)).foldl (fun s i => s ^^^ gfMul (a.getD i 0) (b.getD (k - i) 0)) 0)

/-! ### RS(80,64): symbol j is the coefficient of x^(79-j) (log entry 7) -/

/-- The 80 symbols of a codeword. -/
def symbols (c : Codeword) : List Nat := toBytes 80 c.toNat

/-- The 16 syndromes, at α^0 to α^15 (R134). -/
def syndromes (l : List Nat) : List Nat := (List.range 16).map (fun k => gfHorner (gfExp k) l)

/-- The generator polynomial with roots α^0 to α^15, lowest degree first. -/
def rsGen : List Nat :=
  (List.range 16).foldl (fun g k => gfPolyMul (k + 2) g [gfExp k, 1]) [1]

/-- The check symbols of 64 data symbols: the remainder of m(x) x^16, highest degree first. -/
def rsChecks (data : List Nat) : List Nat :=
  let g := (rsGen.take 16).reverse
  data.foldl (fun r b =>
    let f := b ^^^ r.headD 0
    (r.drop 1 ++ [0]).zipWith (fun a c => a ^^^ gfMul f c) g) (List.replicate 16 0)

/-- The codeword of 64 stored bytes (R134); the all-zero line's is all zero. -/
def rsEncode (data : Nat) : Codeword :=
  if data % 2 ^ 512 = 0 then 0
  else BitVec.ofNat 640 (data % 2 ^ 512 + 2 ^ 512 * ofBytes (rsChecks (toBytes 64 data)))

/-- The marker of reason r (R139). -/
def markerWord (r : Nat) : Codeword := BitVec.ofNat 640 (2 ^ 512 * ofBytes (List.replicate 16 (0xA0 + r)))

/-- What the decoder makes of a line (R135): clean, a marker, corrected (with data, device, its corrupt symbols, every device with corrupt
symbols and the DQ bits of it that they touch, and whether a marked bank was solved), or uncorrectable. -/
inductive Decoded where
  | clean (data : Nat)
  | marker (reason : Nat)
  | corrected (data dev mask : Nat) (devs : List (Nat × Nat)) (marked : Bool)
  | bad
deriving DecidableEq, Repr

/-- The symbol numbers of device d (Table 6.1). -/
def devSyms (d : Nat) : List Nat := (List.range 8).map (fun j => 8 * d + j)

/-- The locator of symbol j. -/
def symLoc (j : Nat) : Nat := gfExp (79 - j)

/-- The polynomial with a factor (1 - X z) for each locator X, lowest degree first. -/
def locPoly (xs : List Nat) : List Nat := xs.foldl (fun g x => gfPolyMul (g.length + 1) g [1, x]) [1]

/-- The syndromes multiplied by a locator polynomial. -/
def modSyn (s g : List Nat) : List Nat := gfPolyMul 16 s g

/-- An error confined to the symbols with these locators produces the syndromes: the modified syndromes beyond the
number of locators vanish. -/
def confined (s : List Nat) (xs : List Nat) : Bool := ((modSyn s (locPoly xs)).drop xs.length).all (· == 0)

/-- Forney's error values at the locators xs. -/
def forney (s : List Nat) (xs : List Nat) : List Nat :=
  let g := locPoly xs
  let om := gfPolyMul xs.length s g
  let dg := g.mapIdx (fun i c => if i % 2 = 1 then c else 0) |>.drop 1
  xs.map (fun x => gfMul x (gfMul (gfEval (gfInv x) om) (gfInv (gfEval (gfInv x) dg))))

/-- Symbols with error values added at positions. -/
def addErrs (l : List Nat) (pos vals : List Nat) : List Nat :=
  (pos.zip vals).foldl (fun l e => l.modify e.1 (fun b => b ^^^ e.2)) l

/-- The mask of nonzero values. -/
def nzMask (vals : List Nat) : Nat := (vals.mapIdx (fun i v => if v = 0 then 0 else 2 ^ i)).sum

/-- The DQ bits of a device that error values touch: bits [3:0] are the even beat, bits [7:4] the odd one (Table 6.1). -/
def dqMask (vals : List Nat) : Nat := vals.foldl (fun a v => a ||| (v % 16 ||| v / 16)) 0

/-- The devices whose symbols at the positions have error values, with the DQ bits touched. -/
def devErrs (pos vals : List Nat) : List (Nat × Nat) :=
  (List.range 10).filterMap (fun d =>
    let v := dqMask (((pos.zip vals).filter (fun e => e.1 / 8 == d)).map (·.2))
    if v = 0 then none else some (d, v))

/-- The locators of at most two further errors beside the erasures, found from the modified syndromes (R135). -/
def furtherErrs (u : List Nat) (cand : List Nat) : Option (List Nat) :=
  let at_ := fun i => u.getD i 0
  if u.all (· == 0) then some []
  else
    let x1 := gfMul (at_ 1) (gfInv (at_ 0))
    if at_ 0 != 0 && cand.contains x1 && (List.range 7).all (fun i => at_ (i + 1) == gfMul x1 (at_ i)) then some [x1]
    else
      let det := gfMul (at_ 1) (at_ 1) ^^^ gfMul (at_ 0) (at_ 2)
      if det = 0 then none
      else
        let s1 := gfMul (gfMul (at_ 0) (at_ 3) ^^^ gfMul (at_ 1) (at_ 2)) (gfInv det)
        let s2 := gfMul (gfMul (at_ 1) (at_ 3) ^^^ gfMul (at_ 2) (at_ 2)) (gfInv det)
        if (List.range 6).all (fun i => at_ (i + 2) == (gfMul s1 (at_ (i + 1)) ^^^ gfMul s2 (at_ i))) then
          let roots := cand.filter (fun x => (gfMul x x ^^^ gfMul s1 x ^^^ s2) == 0)
          if roots.length = 2 then some roots else none
        else none

/-- R135: decode a line, whose bank may be marked with a device. A correction in a marked bank names the marked device and its symbols, also
where other symbols were corrupt (DESIGN CHOICE, log entry 85: Table 6.5 does not say which device it names). -/
def rsDecode (c : Codeword) (marked : Option Nat) : Decoded :=
  if c = 0 then .clean 0
  else
    let l := symbols c
    let s := syndromes l
    if s.all (· == 0) then .clean (c.toNat % 2 ^ 512)
    else
      match (List.range 7).find? (fun r => s == syndromes (symbols (markerWord (r + 1)))) with
      | some r => .marker (r + 1)
      | none =>
        match marked with
        | some m =>
          let er := devSyms m
          let ex := er.map symLoc
          let other := (List.range 80).filter (fun j => !er.contains j)
          match furtherErrs ((modSyn s (locPoly ex)).drop 8) (other.map symLoc) with
          | none => .bad
          | some xs =>
            let pos := er ++ other.filter (fun j => xs.contains (symLoc j))
            let vals := forney s (pos.map symLoc)
            let l' := addErrs l pos vals
            if (syndromes l').all (· == 0) then .corrected (ofBytes (l'.take 64)) m (nzMask (vals.take 8)) (devErrs pos vals) true else .bad
        | none =>
          match (List.range 10).filter (fun d => confined s ((devSyms d).map symLoc)) with
          | [d] =>
            let vals := forney s ((devSyms d).map symLoc)
            .corrected (ofBytes ((addErrs l (devSyms d) vals).take 64)) d (nzMask vals) (devErrs (devSyms d) vals) false
          | _ => .bad

/-! ### Checksums -/

/-- One byte into a reflected CRC of width w with polynomial p. -/
def crcByteR (p : Nat) (c b : Nat) : Nat :=
  (List.range 8).foldl (fun c _ => if c % 2 = 1 then (c / 2) ^^^ p else c / 2) (c ^^^ b)

/-- CRC-32C (Castagnoli, reflected, initial and final all ones). -/
def crc32c (l : List Nat) : Nat := (l.foldl (crcByteR 0x82F63B78) 0xffffffff) ^^^ 0xffffffff

/-- One byte into an unreflected CRC-16 with polynomial 0x1021. -/
def crc16Byte (c b : Nat) : Nat :=
  (List.range 8).foldl (fun c _ => if c < 32768 then 2 * c else (2 * c % 65536) ^^^ 0x1021) (c ^^^ (b * 256))

/-- CRC-16 of the sideband (R271): polynomial 0x1021, initial value 0xFFFF. -/
def crc16 (l : List Nat) : Nat := l.foldl crc16Byte 0xffff

end Sys2Proof.Machine
end

