-- ==== Sys2Proof/Machine/Codec.lean ====
section
/-! DEFINITION. What the stream decoders of the object preparation engines share (11_job_engines.md R293, R294): errors, bytes and bits
taken from a stream, matches copied from the output, and the checksums of the formats. -/

namespace Sys2Proof.Machine

/-- A decode: its result, or the number of its error in Table 11.6 and the offset of the byte being consumed (R294). -/
abbrev Dec (α : Type) := Except (Nat × Nat) α

/-- The errors of Table 11.6, in its order. -/
def dHeader : Nat := 0
def dCode : Nat := 1
def dDist : Nat := 2
def dLen : Nat := 3
def dEnd : Nat := 4
def dWindow : Nat := 5
def dSum : Nat := 6

/-- A stream from a byte on: its bytes, the offset of the first, and the error that its end is: TRUNCATED for the operation's input,
LEN_OVERRUN for a block of a declared size (log entry 35). -/
structure Inp where
  bytes : List Nat
  off : Nat
  fail : Nat
deriving DecidableEq, Repr

/-- A condition on the byte at an offset. -/
def need (p : Bool) (e off : Nat) : Dec Unit := if p then .ok () else .error (e, off)

/-- The next n bytes. -/
def Inp.take (n : Nat) (i : Inp) : Dec (List Nat × Inp) :=
  let l := i.bytes.take n
  if l.length = n then .ok (l, { i with bytes := i.bytes.drop n, off := i.off + n }) else .error (i.fail, i.off + l.length)

/-- The next n bytes as a number, the first the least significant. -/
def Inp.num (n : Nat) (i : Inp) : Dec (Nat × Inp) := (i.take n).map (fun x => (ofBytes x.1, x.2))

/-- The next n bytes as a stream of its own, which ends with LEN_OVERRUN. -/
def Inp.sub (n : Nat) (i : Inp) : Dec (Inp × Inp) := (i.take n).map (fun x => (⟨x.1, i.off, dLen⟩, x.2))

/-- A stream read bit by bit, the least significant bit of a byte first: as Inp, with the bits of the first byte that are used. -/
structure BitIn where
  src : Inp
  bit : Nat
deriving DecidableEq, Repr

/-- The offset of the byte that held the last bit. -/
def BitIn.last (b : BitIn) : Nat := if b.bit = 0 then b.src.off - 1 else b.src.off

/-- The next bit. -/
def BitIn.one (b : BitIn) : Dec (Nat × BitIn) :=
  match b.src.bytes with
  | [] => .error (b.src.fail, b.src.off)
  | x :: t =>
    .ok (x / 2 ^ b.bit % 2, if b.bit = 7 then ⟨{ b.src with bytes := t, off := b.src.off + 1 }, 0⟩ else { b with bit := b.bit + 1 })

/-- The next n bits, the first the least significant. -/
def BitIn.take : Nat → BitIn → Dec (Nat × BitIn)
  | 0, b => .ok (0, b)
  | n + 1, b => do
    let x ← b.one
    let y ← BitIn.take n x.2
    return (x.1 + 2 * y.1, y.2)

/-- The stream from the next whole byte on. -/
def BitIn.align (b : BitIn) : Inp :=
  if b.bit = 0 then b.src else { b.src with bytes := b.src.bytes.drop 1, off := b.src.off + 1 }

/-- A match of n bytes at a distance, copied to an output that is held newest byte first. -/
def copyBack (dist : Nat) : Nat → List Nat → List Nat
  | 0, out => out
  | n + 1, out => copyBack dist n (out.getD (dist - 1) 0 :: out)

/-! ### Checksums -/

/-- CRC-32 of gzip and Adler-32 of zlib (RFC 1952, RFC 1950). -/
def crc32Of (l : List Nat) : Nat := (l.foldl (crcByteR 0xEDB88320) 0xffffffff) ^^^ 0xffffffff
def adler32 (l : List Nat) : Nat :=
  let r := l.foldl (fun (s : Nat × Nat) b => let a := (s.1 + b) % 65521; (a, (s.2 + a) % 65521)) (1, 0)
  r.2 * 65536 + r.1

/-- Pieces of n bytes, at most k of them. -/
def pieces (n : Nat) (l : List Nat) : Nat → List (List Nat)
  | 0 => []
  | k + 1 => l.take n :: pieces n (l.drop n) k

/-- A rotation of a w-bit word to the left. -/
def rotl (w r x : Nat) : Nat := x * 2 ^ r % 2 ^ w + x / 2 ^ (w - r)

/-- The five primes of xxHash-32. -/
def xx32 (i : Nat) : Nat := [0x9E3779B1, 0x85EBCA77, 0xC2B2AE3D, 0x27D4EB2F, 0x165667B1].getD (i - 1) 0

/-- xxHash-32 of bytes with seed 0, as LZ4 frames use it. -/
def xxh32 (l : List Nat) : Nat :=
  let m := fun x => x % 2 ^ 32
  let round := fun (a w : Nat) => m (rotl 32 13 (m (a + w * xx32 2)) * xx32 1)
  let n := l.length / 16
  let v := (pieces 16 l n).foldl (fun (v : List Nat) s => v.zipWith round ((pieces 4 s 4).map ofBytes))
    [m (xx32 1 + xx32 2), xx32 2, 0, 2 ^ 32 - xx32 1]
  let h := if n = 0 then xx32 5
    else rotl 32 1 (v.getD 0 0) + rotl 32 7 (v.getD 1 0) + rotl 32 12 (v.getD 2 0) + rotl 32 18 (v.getD 3 0)
  let t := l.drop (16 * n)
  let k := t.length / 4
  let h := (pieces 4 t k).foldl (fun h s => m (rotl 32 17 (m (h + ofBytes s * xx32 3)) * xx32 4)) (m (h + l.length))
  let h := (t.drop (4 * k)).foldl (fun h b => m (rotl 32 11 (m (h + b * xx32 5)) * xx32 1)) h
  let h := m ((h ^^^ (h / 2 ^ 15)) * xx32 2)
  let h := m ((h ^^^ (h / 2 ^ 13)) * xx32 3)
  h ^^^ (h / 2 ^ 16)

/-- The five primes of xxHash-64. -/
def xx64 (i : Nat) : Nat :=
  [0x9E3779B185EBCA87, 0xC2B2AE3D27D4EB4F, 0x165667B19E3779F9, 0x85EBCA77C2B2AE63, 0x27D4EB2F165667C5].getD (i - 1) 0

/-- xxHash-64 of bytes with seed 0, as Zstandard frames use it. -/
def xxh64 (l : List Nat) : Nat :=
  let m := fun x => x % 2 ^ 64
  let round := fun (a w : Nat) => m (rotl 64 31 (m (a + w * xx64 2)) * xx64 1)
  let n := l.length / 32
  let v := (pieces 32 l n).foldl (fun (v : List Nat) s => v.zipWith round ((pieces 8 s 4).map ofBytes))
    [m (xx64 1 + xx64 2), xx64 2, 0, 2 ^ 64 - xx64 1]
  let merge := fun (h x : Nat) => m ((h ^^^ round 0 x) * xx64 1 + xx64 4)
  let h := if n = 0 then xx64 5
    else v.foldl merge (m (rotl 64 1 (v.getD 0 0) + rotl 64 7 (v.getD 1 0) + rotl 64 12 (v.getD 2 0) + rotl 64 18 (v.getD 3 0)))
  let t := l.drop (32 * n)
  let k := t.length / 8
  let h := (pieces 8 t k).foldl (fun h s => m (rotl 64 27 (h ^^^ round 0 (ofBytes s)) * xx64 1 + xx64 4)) (m (h + l.length))
  let t := t.drop (8 * k)
  let j := t.length / 4
  let h := (pieces 4 t j).foldl (fun h s => m (rotl 64 23 (h ^^^ m (ofBytes s * xx64 1)) * xx64 2 + xx64 3)) h
  let h := (t.drop (4 * j)).foldl (fun h b => m (rotl 64 11 (h ^^^ m (b * xx64 5)) * xx64 1)) h
  let h := m ((h ^^^ (h / 2 ^ 33)) * xx64 2)
  let h := m ((h ^^^ (h / 2 ^ 29)) * xx64 3)
  h ^^^ (h / 2 ^ 32)

end Sys2Proof.Machine
end

