-- ==== Sys2Proof/Machine/Inflate.lean ====
section
/-! DEFINITION. The decoders of DEFLATE (RFC 1951), zlib (RFC 1950) and gzip (RFC 1952) streams (11_job_engines.md R293, R294). -/

namespace Sys2Proof.Machine

/-! ### Huffman codes -/

/-- A canonical code: how many codes have each length 0..15, and the symbols in the order of their codes. -/
structure Huff where
  counts : List Nat
  syms : List Nat
deriving DecidableEq, Repr

/-- The code of a list of lengths. -/
def huffOf (lens : List Nat) : Huff :=
  { counts := (List.range 16).map (fun l => lens.count l)
    syms := (List.range 15).flatMap (fun l => (List.range lens.length).filter (fun s => lens.getD s 0 == l + 1)) }

/-- The share of the code space that a list of lengths uses, in 2^-15. -/
def kraft (lens : List Nat) : Nat := ((lens.filter (· != 0)).map (fun l => 2 ^ (15 - l))).sum

/-- A code is complete, or a single code of one bit. -/
def huffOk (lens : List Nat) : Bool := kraft lens == 2 ^ 15 || lens.filter (· != 0) == [1]

/-- The symbol of the next code: the bits so far, the first code of their length, and the symbols of shorter codes. -/
def Huff.walk (h : Huff) : Nat → Nat → Nat → Nat → Nat → BitIn → Dec (Nat × BitIn)
  | 0, _, _, _, _, b => .error (dCode, b.last)
  | f + 1, len, code, first, idx, b => do
    let x ← b.one
    let code := code + x.1
    let c := h.counts.getD len 0
    if code < first + c then return (h.syms.getD (idx + (code - first)) 0, x.2)
    else Huff.walk h f (len + 1) (2 * code) (2 * (first + c)) (idx + c) x.2

/-- The next symbol. -/
def Huff.sym (h : Huff) (b : BitIn) : Dec (Nat × BitIn) := h.walk 15 1 0 0 0 b

/-! ### Blocks of DEFLATE -/

/-- Base and extra bits of the length symbols 257 to 285. -/
def lenCodes : List (Nat × Nat) :=
  [(3, 0), (4, 0), (5, 0), (6, 0), (7, 0), (8, 0), (9, 0), (10, 0), (11, 1), (13, 1), (15, 1), (17, 1), (19, 2), (23, 2), (27, 2)] ++
  [(31, 2), (35, 3), (43, 3), (51, 3), (59, 3), (67, 4), (83, 4), (99, 4), (115, 4), (131, 5), (163, 5), (195, 5), (227, 5), (258, 0)]

/-- Base and extra bits of distance symbol s below 30. -/
def distCode (s : Nat) : Nat × Nat := if s < 4 then (s + 1, 0) else ((2 + s % 2) * 2 ^ (s / 2 - 1) + 1, s / 2 - 1)

/-- The symbols of a compressed block, up to its end: win is the window, out the member so far, newest byte first. -/
def inflCodes (lit dist : Huff) (win : Nat) : Nat → BitIn → List Nat → Dec (List Nat × BitIn)
  | 0, b, _ => .error (dEnd, b.src.off)
  | f + 1, b, out => do
    let s ← lit.sym b
    if s.1 < 256 then inflCodes lit dist win f s.2 (s.1 :: out)
    else if s.1 = 256 then return (out, s.2)
    else
      need (s.1 < 286) dCode s.2.last
      let c := lenCodes.getD (s.1 - 257) (0, 0)
      let x ← s.2.take c.2
      let d ← dist.sym x.2
      need (d.1 < 30) dCode d.2.last
      let e := distCode d.1
      let y ← d.2.take e.2
      need (e.1 + y.1 ≤ min win out.length) dDist y.2.last
      inflCodes lit dist win f y.2 (copyBack (e.1 + y.1) (c.1 + x.1) out)

/-- The code lengths of a dynamic block, newest first, n in all. -/
def inflLens (h : Huff) (n : Nat) : Nat → BitIn → List Nat → Dec (List Nat × BitIn)
  | 0, b, _ => .error (dCode, b.last)
  | f + 1, b, l =>
    if n ≤ l.length then .ok (l, b)
    else do
      let s ← h.sym b
      if s.1 < 16 then inflLens h n f s.2 (s.1 :: l)
      else
        need (s.1 != 16 || l != []) dCode s.2.last
        let x ← s.2.take (if s.1 = 16 then 2 else if s.1 = 17 then 3 else 7)
        let k := x.1 + (if s.1 = 18 then 11 else 3)
        need (l.length + k ≤ n) dCode x.2.last
        inflLens h n f x.2 (List.replicate k (if s.1 = 16 then l.headD 0 else 0) ++ l)

/-- The places of the code length code. -/
def lensOrder : List Nat := [16, 17, 18, 0, 8, 7, 9, 6, 10, 5, 11, 4, 12, 3, 13, 2, 14, 1, 15]

/-- k lengths of 3 bits. -/
def inflThrees : Nat → BitIn → Dec (List Nat × BitIn)
  | 0, b => .ok ([], b)
  | k + 1, b => do
    let x ← b.take 3
    let r ← inflThrees k x.2
    return (x.1 :: r.1, r.2)

/-- The codes of a dynamic block. -/
def inflDynamic (b : BitIn) : Dec ((Huff × Huff) × BitIn) := do
  let hl ← b.take 5
  need (hl.1 ≤ 29) dCode hl.2.last
  let hd ← hl.2.take 5
  let hc ← hd.2.take 4
  let t ← inflThrees (hc.1 + 4) hc.2
  let cl := (List.range 19).map (fun s => t.1.getD (lensOrder.idxOf s) 0)
  need (huffOk cl) dCode t.2.last
  let n := hl.1 + 257
  let l ← inflLens (huffOf cl) (n + hd.1 + 1) (n + hd.1 + 2) t.2 []
  let lens := l.1.reverse
  let ll := lens.take n
  let dl := lens.drop n
  need (huffOk ll && (huffOk dl || kraft dl == 0)) dCode l.2.last
  return ((huffOf ll, huffOf dl), l.2)

/-- The fixed codes. -/
def fixedLit : Huff := huffOf (List.replicate 144 8 ++ List.replicate 112 9 ++ List.replicate 24 7 ++ List.replicate 8 8)
def fixedDist : Huff := huffOf (List.replicate 32 5)

/-- The blocks of a stream, up to its final one. -/
def inflBlocks (win : Nat) : Nat → BitIn → List Nat → Dec (List Nat × BitIn)
  | 0, b, _ => .error (dEnd, b.src.off)
  | f + 1, b, out => do
    let fin ← b.one
    let ty ← fin.2.take 2
    let r ←
      if ty.1 = 0 then do
        let n ← ty.2.align.num 2
        let c ← n.2.num 2
        need (n.1 + c.1 == 65535) dCode (c.2.off - 1)
        let x ← c.2.take n.1
        pure (x.1.reverse ++ out, (⟨x.2, 0⟩ : BitIn))
      else if ty.1 = 1 then inflCodes fixedLit fixedDist win (8 * b.src.bytes.length + 8) ty.2 out
      else do
        need (ty.1 == 2) dCode ty.2.last
        let h ← inflDynamic ty.2
        inflCodes h.1.1 h.1.2 win (8 * b.src.bytes.length + 8) h.2 out
    if fin.1 = 1 then return r else inflBlocks win f r.2 r.1

/-- A DEFLATE stream: its bytes, and what follows it from the next whole byte on. -/
def inflate (win : Nat) (i : Inp) : Dec (List Nat × Inp) := do
  let r ← inflBlocks win (8 * i.bytes.length + 8) ⟨i, 0⟩ []
  return (r.1.reverse, r.2.align)

/-- R293: nothing may follow a raw DEFLATE or a zlib stream. -/
def noRest (r : List Nat × Inp) : Dec (List Nat) := if r.2.bytes.isEmpty then .ok r.1 else .error (dHeader, r.2.off)

/-- A raw DEFLATE stream. -/
def unDeflate (win : Nat) (l : List Nat) : Dec (List Nat) := inflate win ⟨l, 0, dEnd⟩ >>= noRest

/-- A zlib stream; its Adler-32 is always checked. -/
def unZlib (win : Nat) (l : List Nat) : Dec (List Nat) := do
  let a ← Inp.num 1 ⟨l, 0, dEnd⟩
  need (a.1 % 16 == 8 && a.1 / 16 ≤ 7) dHeader 0
  let b ← a.2.num 1
  need ((a.1 * 256 + b.1) % 31 == 0 && b.1 / 32 % 2 == 0) dHeader 1
  need (a.1 / 16 + 8 ≤ win) dWindow 0
  let r ← inflate (2 ^ (a.1 / 16 + 8)) b.2
  let c ← r.2.take 4
  need (ofBytes c.1.reverse == adler32 r.1) dSum (c.2.off - 1)
  noRest (r.1, c.2)

/-- A field of a gzip header that ends with a zero byte: what follows it. -/
def skipName : List Nat → Nat → Nat → Dec Inp
  | [], off, fail => .error (fail, off)
  | x :: t, off, fail => if x = 0 then .ok ⟨t, off + 1, fail⟩ else skipName t (off + 1) fail

/-- A member of a gzip stream; its CRC-32 and ISIZE are always checked, the header's CRC where it is there. -/
def gzMember (win : Nat) (i : Inp) : Dec (List Nat × Inp) := do
  let a ← i.num 1
  need (a.1 == 0x1F) dHeader i.off
  let b ← a.2.num 1
  need (b.1 == 0x8B) dHeader a.2.off
  let cm ← b.2.num 1
  need (cm.1 == 8) dHeader b.2.off
  let fl ← cm.2.num 1
  need (fl.1 < 32) dHeader cm.2.off
  let t ← fl.2.take 6
  let x ← if fl.1.testBit 2 then (t.2.num 2 >>= fun n => (n.2.take n.1).map Prod.snd) else .ok t.2
  let x ← if fl.1.testBit 3 then skipName x.bytes x.off x.fail else .ok x
  let x ← if fl.1.testBit 4 then skipName x.bytes x.off x.fail else .ok x
  let x ← if fl.1.testBit 1 then (do
      let c ← x.num 2
      need (c.1 == crc32Of (i.bytes.take (x.off - i.off)) % 65536) dSum (c.2.off - 1)
      pure c.2)
    else .ok x
  let r ← inflate (2 ^ win) x
  let c ← r.2.num 4
  need (c.1 == crc32Of r.1) dSum (c.2.off - 1)
  let n ← c.2.num 4
  need (n.1 == r.1.length % 2 ^ 32) dSum (n.2.off - 1)
  return (r.1, n.2)

/-- The members of a gzip stream, one after the other. -/
def gzMembers (win : Nat) : Nat → Inp → Dec (List Nat)
  | 0, i => .error (dEnd, i.off)
  | f + 1, i => do
    let r ← gzMember win i
    if r.2.bytes.isEmpty then return r.1 else (gzMembers win f r.2).map (r.1 ++ ·)

/-- A gzip stream. -/
def unGzip (win : Nat) (l : List Nat) : Dec (List Nat) := gzMembers win (l.length + 1) ⟨l, 0, dEnd⟩

end Sys2Proof.Machine
end

