-- ==== Sys2Proof/Machine/Crypto.lean ====
section
/-! DEFINITION. The primitives the manual names: AES-256 (FIPS 197), XTS with ciphertext stealing (R163), AES-CMAC and
the counter-mode KDF (R160, R165), GCM (R193), SHA-256 and CRC-64 (R295), and the erasure code of the job engines (R296). Bytes are
numbers below 256. -/

namespace Sys2Proof.Machine

/-! ### AES-256 -/

/-- Multiplication by x in the AES field. -/
def xtime (a : Nat) : Nat := if a < 128 then 2 * a else (2 * a) ^^^ 0x11B

/-- The product of a and the low n bits of b in the AES field. -/
def aesMulN : Nat → Nat → Nat → Nat
  | 0, _, _ => 0
  | n + 1, a, b => (if b % 2 = 1 then a else 0) ^^^ aesMulN n (xtime a) (b / 2)

def aesMul (a b : Nat) : Nat := aesMulN 8 a b

/-- a^254, the inverse; 0 for 0. -/
def aesInv (a : Nat) : Nat :=
  let a2 := aesMul a a
  let a4 := aesMul a2 a2
  let a8 := aesMul a4 a4
  let a16 := aesMul a8 a8
  let a32 := aesMul a16 a16
  let a64 := aesMul a32 a32
  let a128 := aesMul a64 a64
  aesMul a2 (aesMul a4 (aesMul a8 (aesMul a16 (aesMul a32 (aesMul a64 a128)))))

/-- A byte rotated left by n. -/
def rotB (a n : Nat) : Nat := (a * 2 ^ n) % 256 + a * 2 ^ n / 256

/-- The S-box and its inverse. -/
def sbox (a : Nat) : Nat := let b := aesInv a; b ^^^ rotB b 1 ^^^ rotB b 2 ^^^ rotB b 3 ^^^ rotB b 4 ^^^ 0x63
def invSbox (a : Nat) : Nat := aesInv (rotB a 1 ^^^ rotB a 3 ^^^ rotB a 6 ^^^ 0x05)

/-- The S-boxes as tables. -/
def sboxTab : Array Nat := (Array.range 256).map sbox
def invSboxTab : Array Nat := (Array.range 256).map invSbox

def sub1 (a : Nat) : Nat := sboxTab.getD a 0
def invSub1 (a : Nat) : Nat := invSboxTab.getD a 0

/-- Byte-wise XOR. -/
def xorL (a b : List Nat) : List Nat := a.zipWith Nat.xor b

/-- The 60 words of the key schedule of a 32-byte key. -/
def aesSchedule (key : List Nat) : List (List Nat) :=
  let w0 := (List.range 8).map (fun i => (key.drop (4 * i)).take 4)
  (List.range 52).foldl (fun w k =>
    let i := k + 8
    let t := w.getD (i - 1) []
    let t := if i % 8 = 0 then xorL ((t.drop 1 ++ t.take 1).map sub1) [(List.range (i / 8 - 1)).foldl (fun r _ => xtime r) 1, 0, 0, 0]
      else if i % 8 = 4 then t.map sub1 else t
    w ++ [xorL (w.getD (i - 8) []) t]) w0

/-- The 15 round keys. -/
def roundKeys (key : List Nat) : List (List Nat) :=
  let w := aesSchedule key
  (List.range 15).map (fun r => (w.drop (4 * r)).take 4 |>.flatten)

def shiftRows (s : List Nat) : List Nat := (List.range 16).map (fun i => s.getD ((i + 4 * (i % 4)) % 16) 0)
def invShiftRows (s : List Nat) : List Nat := (List.range 16).map (fun i => s.getD ((i + 12 * (i % 4)) % 16) 0)

/-- Each column multiplied by the circulant matrix whose first row is m. -/
def mixCols (m : List Nat) (s : List Nat) : List Nat :=
  (List.range 16).map (fun i =>
    (List.range 4).foldl (fun a k => a ^^^ aesMul (s.getD (i / 4 * 4 + k) 0) (m.getD ((k + 4 - i % 4) % 4) 0)) 0)

/-- AES-256 encryption of one block. -/
def aesEnc (rk : List (List Nat)) (b : List Nat) : List Nat :=
  let s := (List.range 13).foldl (fun s r => xorL (mixCols [2, 3, 1, 1] (shiftRows (s.map sub1))) (rk.getD (r + 1) []))
    (xorL b (rk.getD 0 []))
  xorL (shiftRows (s.map sub1)) (rk.getD 14 [])

/-- AES-256 decryption of one block. -/
def aesDec (rk : List (List Nat)) (b : List Nat) : List Nat :=
  let s := (List.range 13).foldl (fun s r =>
      mixCols [14, 11, 13, 9] (xorL ((invShiftRows s).map invSub1) (rk.getD (13 - r) [])))
    (xorL b (rk.getD 14 []))
  xorL ((invShiftRows s).map invSub1) (rk.getD 0 [])

/-! ### XTS -/

/-- Multiplication of the tweak by α (IEEE 1619): a 128-bit little-endian number. -/
def xtsDouble (t : List Nat) : List Nat :=
  let v := 2 * ofBytes t
  toBytes 16 (if v < 2 ^ 128 then v else (v - 2 ^ 128) ^^^ 0x87)

/-- The tweak of block j. -/
def xtsTweak (k2 : List (List Nat)) (t : Nat) (j : Nat) : List Nat :=
  (List.range j).foldl (fun x _ => xtsDouble x) (aesEnc k2 (toBytes 16 t))

/-- One block under a tweak, encrypted or decrypted. -/
def xtsBlock (enc : Bool) (k1 : List (List Nat)) (x b : List Nat) : List Nat :=
  xorL x ((if enc then aesEnc else aesDec) k1 (xorL x b))

/-- Block j of a byte list. -/
def blk (l : List Nat) (j : Nat) : List Nat := (l.drop (16 * j)).take 16

/-- XTS-AES-256 of a data unit of at least one block: its last partial block is stolen (R163). -/
def xts (enc : Bool) (kd kt : List Nat) (t : Nat) (p : List Nat) : List Nat :=
  let k1 := roundKeys kd
  let k2 := roundKeys kt
  let n := p.length / 16
  let r := p.length % 16
  if r = 0 then ((List.range n).map (fun j => xtsBlock enc k1 (xtsTweak k2 t j) (blk p j))).flatten
  else
    let head := ((List.range (n - 1)).map (fun j => xtsBlock enc k1 (xtsTweak k2 t j) (blk p j))).flatten
    let j1 := if enc then n - 1 else n
    let j2 := if enc then n else n - 1
    let cc := xtsBlock enc k1 (xtsTweak k2 t j1) (blk p (n - 1))
    let tail := (p.drop (16 * n)).take r
    head ++ xtsBlock enc k1 (xtsTweak k2 t j2) (tail ++ cc.drop r) ++ cc.take r

/-! ### CMAC and KDF -/

/-- Doubling of a big-endian block (CMAC subkeys). -/
def cmacDouble (b : List Nat) : List Nat :=
  let v := 2 * ofBytes b.reverse
  (toBytes 16 (if v < 2 ^ 128 then v else (v - 2 ^ 128) ^^^ 0x87)).reverse

/-- AES-256-CMAC. -/
def cmac (key msg : List Nat) : List Nat :=
  let rk := roundKeys key
  let k1 := cmacDouble (aesEnc rk (List.replicate 16 0))
  let n := if msg.length = 0 then 1 else (msg.length + 15) / 16
  let last := (msg.drop (16 * (n - 1))).take 16
  let last := if last.length = 16 then xorL last k1
    else xorL (last ++ 128 :: List.replicate (15 - last.length) 0) (cmacDouble k1)
  let c := (List.range (n - 1)).foldl (fun c j => aesEnc rk (xorL c (blk msg j))) (List.replicate 16 0)
  aesEnc rk (xorL c last)

/-- The leftmost n bytes of a MAC as a number. -/
def leftBytes (n : Nat) (m : List Nat) : Nat := ofBytes (m.take n).reverse

/-- An ASCII string as bytes. -/
def ascii (s : String) : List Nat := s.toList.map Char.toNat

/-- R160: the subkey of a label: SP 800-108 counter mode, 32-bit counter and length fields (PRESUMED, log entry 13). -/
def kdf (key : List Nat) (label : String) (n : Nat) : List Nat :=
  let one := fun i => cmac key ([0, 0, 0, i] ++ ascii label ++ [0, n] ++ [0, 0, 1, 0])
  one 1 ++ one 2

/-! ### GCM (SP 800-38D) -/

/-- The product in GHASH's field; the most significant bit of a block is the coefficient of x^0. -/
def gcmMul (x y : Nat) : Nat :=
  ((List.range 128).foldl (fun (zv : Nat × Nat) i =>
    (if x.testBit (127 - i) then zv.1 ^^^ zv.2 else zv.1, if zv.2 % 2 = 1 then (zv.2 / 2) ^^^ (0xE1 * 2 ^ 120) else zv.2 / 2)) (0, y)).1

/-- A byte list in blocks, the last one filled with zeros. -/
def gcmBlocks (l : List Nat) : List (List Nat) :=
  (List.range ((l.length + 15) / 16)).map (fun j => let b := blk l j; b ++ List.replicate (16 - b.length) 0)

def ghash (h : Nat) (bs : List (List Nat)) : Nat := bs.foldl (fun y b => gcmMul (y ^^^ ofBytes b.reverse) h) 0

/-- AES-256-GCM under a 12-byte nonce: encryption and decryption of a byte list. -/
def gcmCrypt (key nonce p : List Nat) : List Nat :=
  let rk := roundKeys key
  xorL p ((List.range ((p.length + 15) / 16)).map (fun i => aesEnc rk (nonce ++ (toBytes 4 (i + 2)).reverse))).flatten

/-- The 16-byte tag of additional data and a ciphertext. -/
def gcmTag (key nonce aad c : List Nat) : List Nat :=
  let rk := roundKeys key
  let h := ofBytes (aesEnc rk (List.replicate 16 0)).reverse
  let len := (toBytes 8 (8 * aad.length)).reverse ++ (toBytes 8 (8 * c.length)).reverse
  xorL (toBytes 16 (ghash h (gcmBlocks aad ++ gcmBlocks c ++ [len]))).reverse (aesEnc rk (nonce ++ [0, 0, 0, 1]))

/-! ### SHA-256 -/

/-- The integer cube and square roots behind the SHA-256 constants: the largest r with r^e at most v, below 2^n. -/
def rootFloor (e v : Nat) : Nat → Nat
  | 0 => 0
  | n + 1 =>
    let h := rootFloor' e v (2 ^ n) n
    h
where
  rootFloor' (e v acc : Nat) : Nat → Nat
    | 0 => if acc ^ e ≤ v then acc else acc - 1
    | n + 1 => if acc ^ e ≤ v then rootFloor' e v (acc + 2 ^ n) n else rootFloor' e v (acc - 2 ^ n) n

/-- The first n primes. -/
def primes (n : Nat) : List Nat :=
  ((List.range 320).filter (fun p => 2 ≤ p && (List.range p).all (fun q => q < 2 || p % q != 0))).take n

/-- The first 32 bits of the fractional parts of the cube roots of the first 64 primes, and of the square roots of the first 8. -/
def shaK : List Nat := (primes 64).map (fun p => rootFloor 3 (p * 2 ^ 96) 36 % 2 ^ 32)
def shaH0 : List Nat := (primes 8).map (fun p => rootFloor 2 (p * 2 ^ 64) 38 % 2 ^ 32)

/-- A 32-bit word rotated right. -/
def rotR (a n : Nat) : Nat := a / 2 ^ n + a * 2 ^ (32 - n) % 2 ^ 32

/-- The 64 words of a block's message schedule. -/
def shaSchedule (b : List Nat) : List Nat :=
  let w0 := (List.range 16).map (fun i => ofBytes ((b.drop (4 * i)).take 4).reverse)
  (List.range 48).foldl (fun w k =>
    let at_ := fun j => w.getD (k + 16 - j) 0
    let s0 := rotR (at_ 15) 7 ^^^ rotR (at_ 15) 18 ^^^ at_ 15 / 8
    let s1 := rotR (at_ 2) 17 ^^^ rotR (at_ 2) 19 ^^^ at_ 2 / 1024
    w ++ [(at_ 16 + s0 + at_ 7 + s1) % 2 ^ 32]) w0

/-- One block into the hash. -/
def shaBlock (h : List Nat) (b : List Nat) : List Nat :=
  let r := ((shaSchedule b).zip shaK).foldl (fun v wk =>
    let g := fun i => v.getD i 0
    let s1 := rotR (g 4) 6 ^^^ rotR (g 4) 11 ^^^ rotR (g 4) 25
    let ch := (g 4 &&& g 5) ^^^ ((2 ^ 32 - 1 - g 4) &&& g 6)
    let t1 := g 7 + s1 + ch + wk.2 + wk.1
    let s0 := rotR (g 0) 2 ^^^ rotR (g 0) 13 ^^^ rotR (g 0) 22
    let mj := (g 0 &&& g 1) ^^^ (g 0 &&& g 2) ^^^ (g 1 &&& g 2)
    [(t1 + s0 + mj) % 2 ^ 32, g 0, g 1, g 2, (g 3 + t1) % 2 ^ 32, g 4, g 5, g 6]) h
  h.zipWith (fun a c => (a + c) % 2 ^ 32) r

/-- SHA-256 of a byte list, as 32 bytes (FIPS 180-4). -/
def sha256 (m : List Nat) : List Nat :=
  let z := (119 - m.length % 64) % 64
  let p := m ++ 128 :: List.replicate z 0 ++ (toBytes 8 (8 * m.length)).reverse
  let h := (List.range (p.length / 64)).foldl (fun h j => shaBlock h ((p.drop (64 * j)).take 64)) shaH0
  (h.map (fun w => (toBytes 4 w).reverse)).flatten

/-! ### CRC-64 and erasure code -/

/-- CRC-64/NVME continued from a seed (R295): the register starts at the seed XOR the final XOR. -/
def crc64 (seed : Nat) (l : List Nat) : Nat :=
  (l.foldl (crcByteR 0x9A6C9329AC4BC9B5) (seed ^^^ (2 ^ 64 - 1))) ^^^ (2 ^ 64 - 1)

/-- CRC-32C continued from a seed. -/
def crc32cFrom (seed : Nat) (l : List Nat) : Nat :=
  (l.foldl (crcByteR 0x82F63B78) (seed ^^^ 0xffffffff)) ^^^ 0xffffffff

/-- R296: the coefficient c(j, i) = 1 / (j XOR (M + i)). -/
def ecCoef (m j i : Nat) : Nat := gfInv (j ^^^ (m + i))

/-- R296: parity shard j of the data shards. -/
def ecParity (m j : Nat) (data : List (List Nat)) : List Nat :=
  (data.mapIdx (fun i s => s.map (gfMul (ecCoef m j i)))).foldl (fun a s => if a.isEmpty then s else xorL a s) []

/-- The row of the generator matrix for shard s: a unit row for a data shard, the Cauchy row for a parity shard. -/
def ecRow (k m s : Nat) : List Nat :=
  (List.range k).map (fun i => if s < k then (if i = s then 1 else 0) else ecCoef m (s - k) i)

/-- Gauss-Jordan elimination over the field of rows with their right-hand shards: column c, with rows done so far. -/
def ecElim : Nat → Nat → List (List Nat × List Nat) → List (List Nat × List Nat) → List (List Nat × List Nat)
  | 0, _, done, _ => done
  | n + 1, c, done, rest =>
    match takeFirst (fun r => r.1.getD c 0 != 0) rest with
    | none => done
    | some (p, rest') =>
      let v := gfInv (p.1.getD c 0)
      let p := (p.1.map (gfMul v), p.2.map (gfMul v))
      let clr := fun (r : List Nat × List Nat) =>
        let f := r.1.getD c 0
        (xorL r.1 (p.1.map (gfMul f)), xorL r.2 (p.2.map (gfMul f)))
      ecElim n (c + 1) (done.map clr ++ [p]) (rest'.map clr)

/-- R296: the data shards from K present shards, given with their numbers. -/
def ecSolve (k m : Nat) (present : List (Nat × List Nat)) : List (List Nat) :=
  (ecElim k 0 [] (present.map (fun s => (ecRow k m s.1, s.2)))).map (·.2)

end Sys2Proof.Machine
end

