-- ==== Sys2Proof/Machine/Flags.lean ====
section
/-! DEFINITION. Status, flags and notices that commands share: the monitor counters (18_telemetry.md), the notice rings,
the event log (14_management.md), and the fault hub with its records, pins and escalations (15_faults.md). -/

namespace Sys2Proof.Machine

/-! ### Modes in force -/

/-- The security halt is in force (R190). -/
def Dev.halted (d : Dev) : Bool := d.flag fSEC_HALT_STS_HALTED

/-- The fatal stop is in force (R374). -/
def Dev.fatal (d : Dev) : Bool := d.flag fFLT_STS_FATAL

/-- Home slices take new requests: not in the fatal stop (R374), nor from the entry into a sleep state to the end of its exit (R393, R396). -/
def Dev.slicesRun (d : Dev) : Bool :=
  !d.fatal && d.get fPWR_SLEEP_STS_STATE == 0 && !d.pwr.exiting && d.pwr.entering.isNone

/-- Basic service is in force (R375). -/
def Dev.basic (d : Dev) : Bool := d.flag fFLT_STS_BASIC

/-- Management firmware runs (R371). -/
def Dev.fwUp (d : Dev) : Bool := d.mgt.fwRun && !d.mgt.restart

/-- Flash can be written (R358): not before firmware runs, in S2 and S3, during a management restart, after the security halt, or at a
thermal shutdown. -/
def Dev.flashUp (d : Dev) : Bool := d.fwUp && !d.halted && d.get fPWR_SLEEP_STS_STATE < 2 && !d.pin.thermtrip

/-! ### Monitor counters (R420 to R425) -/

/-- Events of Table 18.2 whose filter is S. -/
def pmuHasSub (code : Nat) : Bool :=
  (0x10 ≤ code && code ≤ 0x18) || (0x30 ≤ code && code ≤ 0x3A) || (0x40 ≤ code && code ≤ 0x45) ||
  (0x58 ≤ code && code ≤ 0x5A) || code == 0x60 || code == 0x64 || (0x70 ≤ code && code ≤ 0x74)

/-- Events of Table 18.2 whose filter is C. -/
def pmuHasClass (code : Nat) : Bool :=
  code == 0x10 || code == 0x11 || code == 0x17 || code == 0x18 || code == 0x20 || code == 0x21 || code == 0x26 ||
  code == 0x27 || code == 0x2B || code == 0x58 || code == 0x59

/-- The unit counts: powered, and RUN and EN both 1 (R421). -/
def Dev.pmuOn (d : Dev) (u : Nat) : Bool :=
  d.flag fPMU_GCTL_RUN && d.flag (fPMU_U_CTL_EN u) && d.bit fPMU_GSTS_ON u

/-- The interrupt of unit u's holder, or of the management processor. -/
def Dev.pmuIrq (d : Dev) (u : Nat) : Dev :=
  let h := d.get (fPMU_U_CLAIM_HOLDER u)
  if h < 32 then d.msix h (d.get (fPMU_U_CTL_VEC u)) else d.emit .mgmtInt

/-- R422: an unchained counter, or the odd counter of a chain, counts; a wrap sets OVF and may interrupt. -/
def Dev.pmuLast (d : Dev) (u k inc : Nat) : Dev :=
  let c := d.get (fPMU_U_CNT_COUNT u k) + inc
  let d := d.set (fPMU_U_CNT_COUNT u k) c
  if c < 2 ^ 48 then d
  else
    let d := d.setBit (fPMU_U_CTL_OVF u) k true
    if d.flag (fPMU_U_EVSEL_OVF_IRQ u k) then d.pmuIrq u else d

/-- R422: counter k counts; the even counter of a chain carries into the odd one. -/
def Dev.pmuAdd (d : Dev) (u k inc : Nat) : Dev :=
  if k % 2 = 0 ∧ d.bit (fPMU_U_CTL_CHAIN u) (k / 2) = true then
    let c := d.get (fPMU_U_CNT_COUNT u k) + inc
    let d := d.set (fPMU_U_CNT_COUNT u k) c
    if c < 2 ^ 48 then d else d.pmuLast u (k + 1) 1
  else d.pmuLast u k inc

/-- Counter k of unit u selects the event (R421, R425). -/
def Dev.pmuSel (d : Dev) (u k code sub cls : Nat) : Bool :=
  d.get (fPMU_U_EVSEL_EVENT u k) == code &&
  !(k % 2 == 1 && d.bit (fPMU_U_CTL_CHAIN u) (k / 2)) &&
  (!(pmuHasSub code && d.flag (fPMU_U_EVSEL_SUB_EN u k)) || d.get (fPMU_U_EVSEL_SUB u k) == sub) &&
  (!(pmuHasClass code && d.flag (fPMU_U_EVSEL_CLASS_EN u k)) || d.get (fPMU_U_EVSEL_CLASS u k) == cls)

/-- An event of Table 18.2 occurs inc times in unit u. -/
def Dev.pmu (d : Dev) (u code sub cls inc : Nat) : Dev :=
  if d.pmuOn u then
    (List.range 8).foldl (fun d k => if d.pmuSel u k code sub cls then d.pmuAdd u k inc else d) d
  else d

/-- An event of each cycle in which any of the instances named has it (R421): n such cycles pass. -/
def Dev.pmuCyc (d : Dev) (u code : Nat) (subs : List Nat) (n : Nat) : Dev :=
  if d.pmuOn u then
    (List.range 8).foldl (fun d k => if subs.any (fun x => d.pmuSel u k code x 8) then d.pmuAdd u k n else d) d
  else d

/-- Events of a lane block, a home slice, a channel group, a SEC domain (Table 18.1). -/
def Dev.pmuLnk (d : Dev) (p code cls inc : Nat) : Dev := d.pmu (p / 4) code (p % 4) cls inc
def Dev.pmuHome (d : Dev) (s code cls : Nat) : Dev := d.pmu (8 + s) code 0 cls 1
def Dev.pmuMch (d : Dev) (ch sub code : Nat) : Dev := d.pmu (24 + ch / 4) code (2 * (ch % 4) + sub) 0 1
def Dev.pmuSec (d : Dev) (ch code : Nat) : Dev := d.pmu (30 + ch / 4) code (ch % 4) 0 1

/-! ### Notice rings (R430 to R437) -/

/-- Occupancy of ring n (R431). -/
def Dev.ringOcc (d : Dev) (n : Nat) : Nat :=
  (d.get (fRING_PTR_WR n) + 16384 - d.get (fRING_PTR_RD n)) % 16384

/-- The tag word of a packet's first entry (Table 18.4). -/
def ringTag (kind len : Nat) : Nat := 1 + 2 * kind + 16 * (len - 1)

/-- Entries are written from WR onward, and WR advances past them. -/
def Dev.ringWrite (d : Dev) (n : Nat) : List (Nat × Nat) → Dev
  | [] => d
  | e :: t =>
    let wr := d.get (fRING_PTR_WR n)
    let d := d.set (fRING_DATAWIN_WORD n (wr % 8192)) e.1
    let d := d.set (fRING_TAGWIN_TAG n (wr % 8192)) e.2
    Dev.ringWrite (d.set (fRING_PTR_WR n) (wr + 1)) n t

/-- OCC follows the pointers, and a crossing of LEVEL upward interrupts (R435). -/
def Dev.ringSettle (d : Dev) (n before : Nat) : Dev :=
  let occ := d.ringOcc n
  let d := d.set (fRING_PTR_OCC n) occ
  let l := d.get (fRING_CTL_LEVEL n)
  if l != 0 && before < l && l ≤ occ then
    let d := d.setFlag (fRING_STS_LVL n) true
    let h := d.get (fRING_CLAIM_HOLDER n)
    if h < 32 then d.msix h (d.get (fRING_CTL_VEC n)) else d.emit .mgmtInt
  else d

/-- A GAP word (R433). -/
def gapWord (mask count : Nat) : Nat := 0x1D1F * 2 ^ 48 + mask * 2 ^ 40 + min count 0xffffffff

/-- The gap state of ring n. -/
def Dev.ringOf (d : Dev) (n : Nat) : RingS := (tfind d.rings n).getD {}

/-- R433: a drop is counted and marked by a gap word, or held pending. -/
def Dev.ringDrop (d : Dev) (n kind : Nat) : Dev :=
  let d := d.bumpSat (fRING_STS_DROPS n) 1
  let d := d.pmu 43 0x7C 0 8 1
  let occ := d.ringOcc n
  let last := (d.get (fRING_PTR_WR n) + 16383) % 16384 % 8192
  if occ != 0 && d.get (fRING_TAGWIN_TAG n last) == ringTag 7 1 then
    let w := d.get (fRING_DATAWIN_WORD n last)
    d.set (fRING_DATAWIN_WORD n last) (gapWord (wordField w 40 8 ||| 2 ^ kind) (wordField w 0 32 + 1))
  else if occ < 8192 then
    (d.ringWrite n [(gapWord (2 ^ kind) 1, ringTag 7 1)]).ringSettle n occ
  else
    let r := d.ringOf n
    { d with rings := tins d.rings n { r with pendDrops := r.pendDrops + 1, pendMask := r.pendMask ||| 2 ^ kind } }

/-- R432, R437: a packet is written whole, or dropped; in S3 the rings have no power. -/
def Dev.ringPut (d : Dev) (n kind : Nat) (words : List Nat) : Dev :=
  let occ := d.ringOcc n
  if d.get fPWR_SLEEP_STS_STATE = 3 then d
  else if words.length ≤ 8192 - occ then
    (d.ringWrite n (words.mapIdx (fun i w => (w, if i = 0 then ringTag kind words.length else 0)))).ringSettle n occ
  else d.ringDrop n kind

/-- R433 step 3: once an entry frees, the pending drops are written as one GAP word. -/
def Dev.ringFreed (d : Dev) (n : Nat) : Dev :=
  let r := d.ringOf n
  let occ := d.ringOcc n
  if r.pendDrops != 0 && occ < 8192 then
    let d := { d with rings := tdel d.rings n }
    (d.ringWrite n [(gapWord r.pendMask r.pendDrops, ringTag 7 1)]).ringSettle n occ
  else d.set (fRING_PTR_OCC n) occ

/-- R436: export of ring n stops on its own: XEN clears, and XERR is set. -/
def Dev.exportStop (d : Dev) (n : Nat) : Dev :=
  if d.flag (fRING_CTL_XEN n) then
    ((d.agentsGone (fun o => decide (o = .export_ n))).setFlag (fRING_CTL_XEN n) false).setFlag (fRING_STS_XERR n) true
  else d

/-- The fatal stop and the security halt stop every export (R436). -/
def Dev.exportStopAll (d : Dev) : Dev := (List.range 8).foldl Dev.exportStop d

/-! ### Event log (R357, R358) -/

/-- A record enters the flash log; a full log erases its oldest sector first. -/
def logPush (l : List LogRec) (r : LogRec) : List LogRec :=
  (if 65536 ≤ l.length then l.drop 1024 else l) ++ [r]

/-- R358: a record enters the crock region of 256; once it is full, its last place holds the newest record and the place before it a gap
record that counts those dropped (DEDUCED, log entry 119). -/
def crockPush (l : List LogRec) (r : LogRec) : List LogRec :=
  if l.length < 256 then l ++ [r]
  else
    let n := match l[254]? with
      | some g => if g.kind = 10 then g.data + 1 else 2
      | none => 2
    l.take 254 ++ [{ r with kind := 10, sev := 0, source := 0, data := n }, r]

/-- A log record is written: to flash, or to the crock while flash cannot be written. -/
def Dev.logPut (d : Dev) (kind sev source data : Nat) : Dev :=
  if d.flashUp then
    let r : LogRec := ⟨d.flash.logNext, d.flash.coldBoots, d.now, kind, sev, 0, source, data⟩
    { d with flash := { d.flash with log := logPush d.flash.log r, logNext := (d.flash.logNext + 1) % 2 ^ 32 } }
  else
    { d with crockLog := crockPush d.crockLog ⟨0, d.flash.coldBoots, d.now, kind, sev, 0, source, data⟩ }

/-! ### The fault hub (R364 to R372) -/

/-- R383: a pending injection of a checker and target, its use consumed. -/
def takeInj (l : List Inj) (checker target : Nat) : Bool × List Inj :=
  match takeFirst (fun i => i.checker == checker && i.target == target) l with
  | some (i, r) => (true, if i.count ≤ 1 then r else { i with count := i.count - 1 } :: r)
  | none => (false, l)

/-- R378: a transfer of crossbar s: whether an injected parity error hits its first transmission (checker 3 of Table 15.9). -/
def Dev.crossed (d : Dev) (s : Nat) : Bool × Dev :=
  let r := takeInj d.flt.inj 3 s
  if r.1 then (true, { d with flt := { d.flt with inj := r.2 } }) else (false, d)

/-- The source number of index i of group g (R364). -/
def src (g i : Nat) : Nat := 64 * g + i

/-- Sources by their rules (Tables 15.1 and 15.10). -/
def srcPort (p k : Nat) : Nat := src (p / 4) (3 * (p % 4) + k)
def srcHome (s k : Nat) : Nat := src 9 (2 * s + k)
def srcMch (ch k : Nat) : Nat := src (11 + ch / 4) (8 * (ch % 4) + k)
def srcCompl : Nat := src 39 3

/-- R369: FN_SEV as the hub uses it: its reset value while the pair does not match, or where the hub's last use of it failed. -/
def Dev.fnSev (d : Dev) : Nat :=
  if d.pairMatch rFLT_GLOBAL rFLT_GLOBAL_C && !d.flt.globalBad then d.get fFLT_GLOBAL_FN_SEV else 3

/-- The seven words of a record (Table 15.3) as one number, REPEAT and ESCALATED 0. -/
def recordOf (e : Ev) (num time react : Nat) : Nat :=
  let w2 := e.src + e.sev * 2 ^ 16 + react * 2 ^ 19 + e.inj.toNat * 2 ^ 21
  let hd := match e.head with | some h => h * 2 ^ 48 + 2 ^ 53 | none => 0
  let tail := match e.raw with
    | some l => l
    | none => [e.addr + e.akind * 2 ^ 46 + hd, e.obj % 2 ^ 16 + e.code % 2 ^ 16 * 2 ^ 16, e.aux0, e.aux1]
  ([num, time, w2] ++ tail).foldr (fun w a => w % 2 ^ 64 + 2 ^ 64 * a) 0

/-- The words of a record. -/
def recWords (r : Nat) : List Nat := (List.range 7).map (fun i => r / 2 ^ (64 * i) % 2 ^ 64)

/-- Fields of record k of the table. -/
def Dev.recSrc (d : Dev) (k : Nat) : Nat := wordField (d.rd (rFLT_REC k)) 128 16
def Dev.recSev (d : Dev) (k : Nat) : Nat := wordField (d.rd (rFLT_REC k)) 144 3
def Dev.recReact (d : Dev) (k : Nat) : Nat := wordField (d.rd (rFLT_REC k)) 147 2
def Dev.recNum (d : Dev) (k : Nat) : Nat := wordField (d.rd (rFLT_REC k)) 0 64
def Dev.recHead (d : Dev) (k : Nat) : Option Nat :=
  if wordField (d.rd (rFLT_REC k)) 245 1 = 1 then some (wordField (d.rd (rFLT_REC k)) 240 5) else none
def Dev.recValid (d : Dev) (k : Nat) : Bool := d.flag (fFLT_REC_CTL_VALID k)
def Dev.recAcked (d : Dev) (k : Nat) : Bool := d.flag (fFLT_REC_CTL_ACK k)

/-- The controller is held in reset, or its domains are being reset. -/
def Dev.inReset (d : Dev) : Bool := d.pin.sysRst || d.pin.mainFault || d.pin.warm == 2

/-- R372: FAULT_N is low while a held record is at or above FN_SEV; in reset it floats. -/
def Dev.faultLow (d : Dev) : Bool := !d.inReset && (List.range 64).any (fun k => d.recValid k && d.fnSev ≤ d.recSev k)

/-- R372: ALERT_N is low while a held record is not acknowledged; in reset it floats. -/
def Dev.alertLow (d : Dev) : Bool := !d.inReset && (List.range 64).any (fun k => d.recValid k && !d.recAcked k)

/-- R373: an escalation of severity sev takes effect, unless a stronger state overrides it. The effect itself is applied
by the command that raised it (settle). -/
def Dev.escalate (d : Dev) (sev : Nat) : Dev :=
  if d.halted then d
  else if sev = 4 then { d with flt := { d.flt with escFatal := true } }
  else if sev = 3 && !d.fatal && !d.basic && !d.flt.escFatal then { d with flt := { d.flt with escBasic := true } }
  else d

/-- The escalation of held record k is applied and recorded (R370). -/
def Dev.escalateRec (d : Dev) (k : Nat) : Dev :=
  let r := d.rd (rFLT_REC k)
  let d := d.wr (rFLT_REC k) (wordPut r 150 1 1)
  (d.setFlag (fFLT_REC_CTL_ESCALATED k) true).escalate (d.recSev k)

/-- R368: the record goes to the head it names, or to every head with Mem_Enable. -/
def Dev.headEvents (d : Dev) (e : Ev) (r : Nat) : Dev :=
  let log := min (e.sev - 1) 3
  match e.head with
  | some h => d.emit (.faultEvent h log (recWords r))
  | none => d.emits ((heads.filter d.memEn).map (fun h => .faultEvent h log (recWords r)))

/-- The log record of a fault record (R366, Table 14.5). -/
def Dev.logFault (d : Dev) (r : Nat) : Dev := d.logPut 1 (wordField r 144 3) (wordField r 128 16) (r / 2 ^ 192)

/-- The group's severity-C records of this millisecond. -/
def Dev.cCount (d : Dev) (g : Nat) : Nat :=
  if d.flt.cRateMs = d.now / 1000000 then tget (fun _ => 0) d.flt.cRate g else 0

/-- A severity-C record of group g is counted. -/
def Dev.cCounted (d : Dev) (g : Nat) : Dev :=
  let t := if d.flt.cRateMs = d.now / 1000000 then d.flt.cRate else []
  { d with flt := { d.flt with cRate := tins t g (tget (fun _ => 0) t g + 1), cRateMs := d.now / 1000000 } }

/-- R366, R367: a record beyond the rate limit leaves only a count; any other takes a number, goes to the ring, and is
held, coalesced or logged by its reaction. -/
def Dev.hubRecord (d : Dev) (e : Ev) (react : Nat) : Dev :=
  let lim := if d.get fFLT_CTL_C_RATE = 0 then 1023 else d.get fFLT_CTL_C_RATE
  let g := e.src / 64
  if e.sev = 1 && lim ≤ d.cCount g then d.bumpSat fFLT_DROP_RATE 1
  else
    let d := if e.sev = 1 then d.cCounted g else d
    let num := d.get fFLT_NEXT_NUM
    let r := recordOf e num d.now react
    let d := (d.bump fFLT_NEXT_NUM 1).pmu 43 0x7B 0 8 1
    let d := d.ringPut (d.get fFLT_CTL_RING) 1 (recWords r)
    if react = 0 then d.logFault r
    else
      match (List.range 64).find? (fun k => d.recValid k && !d.recAcked k && d.recSrc k == e.src && d.recSev k == e.sev) with
      | some k =>
        let w := d.rd (rFLT_REC k)
        (d.wr (rFLT_REC k) (wordPut w 151 8 (min (wordField w 151 8 + 1) 255))).logFault r
      | none =>
        match (List.range (if 3 ≤ e.sev then 64 else 56)).find? (fun k => !d.recValid k) with
        | some k =>
          let d := (d.wr (rFLT_REC k) r).wr (rFLT_REC_CTL k) 1
          let d := { d with flt := { d.flt with toLog := d.flt.toLog ++ [k] } }
          let d := (d.bump fFLT_STS_HELD 1).emit .mgmtInt
          let d := d.headEvents e r
          if react = 3 && 3 ≤ e.sev then d.escalateRec k else d
        | none =>
          let d := (d.bumpSat fFLT_DROP_FULL 1).logFault r
          if 3 ≤ e.sev then d.escalate e.sev else d

/-- R9: a use of a pair: whether it holds, an injected mismatch consumed (Table 15.9, checker 4). -/
def Dev.pairUse (d : Dev) (k kc : Nat) : Bool × Dev :=
  let r := takeInj d.flt.inj 4 k
  if r.1 then (false, { d with flt := { d.flt with inj := r.2 } }) else (d.pairMatch k kc, d)

/-- The reaction of a source as a use of its pair gives it: its field, or its default where the use fails (R369). -/
def Dev.reactUse (d : Dev) (s : Nat) : Bool × Nat × Dev :=
  let k := s / 16
  let u := d.pairUse (rFLT_REACT k) (rFLT_REACT_C k)
  (u.1, if u.1 then wordField (u.2.rd (rFLT_REACT k)) (2 * (s % 16)) 2 else srcDefReact s, u.2)

/-- The record from the complement source that a pair of the hub's own settings failed a use (R369). -/
def Dev.hubRecordPair (d : Dev) (k kc react : Nat) : Dev :=
  d.hubRecord { src := srcCompl, sev := 3, code := 9, addr := k, akind := 3, inj := d.pairMatch k kc } react

/-- A pair of the hub's own settings fails a use (R369): it is recorded with the reaction of the complement source, whose own pair is used
for that; if that use fails too, it is recorded beside it. -/
def Dev.hubFault (d : Dev) (k kc : Nat) : Dev :=
  let u := d.reactUse srcCompl
  let d := u.2.2.hubRecordPair k kc u.2.1
  let j := srcCompl / 16
  if u.1 || k == rFLT_REACT j then d else d.hubRecordPair (rFLT_REACT j) (rFLT_REACT_C j) u.2.1

/-- R369: the reaction of an event's source, of the default where the use of its pair fails. -/
def Dev.react (d : Dev) (s : Nat) : Nat × Dev :=
  let u := d.reactUse s
  (u.2.1, if u.1 then u.2.2 else u.2.2.hubFault (rFLT_REACT (s / 16)) (rFLT_REACT_C (s / 16)))

/-- R369, R372: records that enter the table use FLT_GLOBAL, for FAULT_N and for their timers; a failed use is recorded, and the hub acts on
the reset values. -/
def Dev.globalUse (d : Dev) : Dev :=
  let u := d.pairUse rFLT_GLOBAL rFLT_GLOBAL_C
  let d := { u.2 with flt := { u.2.flt with globalBad := !u.1 } }
  if u.1 then d else d.hubFault rFLT_GLOBAL rFLT_GLOBAL_C

/-- A fault event (R366): it is recorded with its source's reaction. -/
def Dev.raise (d : Dev) (e : Ev) : Dev :=
  let r := d.react e.src
  let x := r.2.hubRecord e r.1
  if x.get fFLT_STS_HELD = d.get fFLT_STS_HELD then x else x.globalUse

/-- R9: the fault of a failed pair from the complement source of MGT. -/
def Dev.pairFault (d : Dev) (k : Nat) (inj : Bool) : Dev :=
  d.raise { src := srcCompl, sev := 3, code := 9, addr := k, akind := 3, inj := inj }

/-- R9: a pair that has just failed its use: a mismatch that the registers do not show was injected. -/
def Dev.pairFail (d : Dev) (k kc : Nat) : Dev := d.pairFault k (d.pairMatch k kc)

/-- R331: pairs that have been written are read back: whether each of them holds; one that fails is recorded. -/
def Dev.readBack (d : Dev) (ps : List (Nat × Nat)) : Bool × Dev :=
  ps.foldl (fun r p =>
    let u := r.2.pairUse p.1 p.2
    (r.1 && u.1, if u.1 then u.2 else u.2.pairFail p.1 p.2)) (true, d)

/-- R9: the offset of the complement of the pair whose REG stands at k. -/
def complOf (k : Nat) : Option Nat :=
  (pairMap.find? (fun p => p.reg ≤ k && (k - p.reg) % p.s == 0 && (k - p.reg) / p.s < p.n)).map (fun p => p.regC + (k - p.reg))

/-- A severity-C access violation of head h at a BAR2 offset (R6). -/
def Dev.accessFault (d : Dev) (h off : Nat) : Dev :=
  d.raise { src := srcPort h 2, sev := 1, code := 6, obj := h, addr := off, akind := 3, head := some h }

end Sys2Proof.Machine
end

