-- ==== Sys2Proof/Machine/Operands.lean ====
section
/-! DEFINITION. Operand forms: how a request's HPA becomes a DPA (02_host_links.md R42 to R47, 03_windows.md R75), how a
window and its fields are found (R63 to R65, R74, R76), how an MPA is cut into a DRAM location (R77 to R82), and the bytes
of lines. -/

namespace Sys2Proof.Machine

/-! ### Bytes -/

/-- Bytes off to off + n - 1 of a byte list as a little-endian number; bytes past its end read 0. -/
def leBytes (l : List Byte) (off n : Nat) : Nat := ofBytes (((l.drop off).take n).map BitVec.toNat)

/-- n little-endian bytes of a number. -/
def leOf (n v : Nat) : List Byte := (toBytes n v).map (BitVec.ofNat 8)

/-- A line of 64 bytes. -/
def lineOfBytes (l : List Byte) : LineData := BitVec.ofNat 512 (leBytes l 0 64)

/-- The 64 bytes of a line. -/
def bytesOfLine (d : LineData) : List Byte := leOf 64 d.toNat

/-- The bit mask of width n. -/
def onesMask (n : Nat) : Nat := 2 ^ n - 1

/-- The old line with the bytes that the mask selects taken from the new one. -/
def mergeLine (old new : LineData) (mask : BitVec 64) : LineData :=
  lineOfBytes ((List.range 64).map (fun i =>
    let w := if mask.getLsbD i then new else old
    BitVec.ofNat 8 (w.toNat / 2 ^ (8 * i))))

/-- The set bits of a mask below n, in rising order. -/
def bitsOf (n m : Nat) : List Nat := (List.range n).filter (fun i => m.testBit i)

/-- The number of set bits below n. -/
def popCount (n m : Nat) : Nat := (bitsOf n m).length

/-! ### Windows -/

/-- 2 MiB. -/
def unit2M : Nat := 2 ^ 21

/-- Fields of window entry n. -/
def Dev.winValid (d : Dev) (n : Nat) : Bool := d.flag (fWIN_ENT_W0_VALID n)
def Dev.winKind (d : Dev) (n : Nat) : Nat := d.get (fWIN_ENT_W0_KIND n)
def Dev.winShared (d : Dev) (n : Nat) : Bool := d.flag (fWIN_ENT_W0_SHARED n)
def Dev.winMirrored (d : Dev) (n : Nat) : Bool := d.flag (fWIN_ENT_W0_MIRRORED n)
def Dev.winFenced (d : Dev) (n : Nat) : Bool := d.flag (fWIN_ENT_W0_MMODE n)
def Dev.winReclaim (d : Dev) (n : Nat) : Bool := d.flag (fWIN_ENT_W0_HEADLOSS n)
def Dev.winKr (d : Dev) (n : Nat) : Nat := d.get (fWIN_ENT_W0_KR n)
def Dev.winInteg (d : Dev) (n : Nat) : Nat := d.get (fWIN_ENT_W0_INTEG n)
def Dev.winAliases (d : Dev) (n : Nat) : Nat := d.get (fWIN_ENT_W0_ALIASES n) + 1
def Dev.winDcr (d : Dev) (n : Nat) : Nat := d.get (fWIN_ENT_W0_DCR n)
def Dev.winBase (d : Dev) (n : Nat) : Nat := d.get (fWIN_ENT_W1_BASE n) * unit2M
def Dev.winSize (d : Dev) (n : Nat) : Nat := d.get (fWIN_ENT_W2_SIZE n) * unit2M
def Dev.winHeads (d : Dev) (n : Nat) : Nat := d.get (fWIN_ENT_W3_HEADS n)
def Dev.winMbase (d : Dev) (n : Nat) : Nat := d.get (fWIN_ENT_W4_MBASE n) * unit2M
def Dev.winPshare (d : Dev) (n : Nat) : Nat := d.get (fWIN_ENT_W5_PSHARE n) * unit2M

/-- ELASTIC or DISCARDABLE. -/
def Dev.winTiered (d : Dev) (n : Nat) : Bool := d.winKind n != 0

/-- Head h is a member of window n. -/
def Dev.winMember (d : Dev) (n h : Nat) : Bool := (d.winHeads n).testBit h

/-- The keys of the six words of entry n, and of their complements. -/
def winWords (n : Nat) : List (Nat × Nat) :=
  [(rWIN_ENT_W0 n, rWIN_ENT_W0_C n), (rWIN_ENT_W1 n, rWIN_ENT_W1_C n), (rWIN_ENT_W2 n, rWIN_ENT_W2_C n),
   (rWIN_ENT_W3 n, rWIN_ENT_W3_C n), (rWIN_ENT_W4 n, rWIN_ENT_W4_C n), (rWIN_ENT_W5 n, rWIN_ENT_W5_C n)]

/-- The valid entries. -/
def Dev.windows (d : Dev) : List Nat := (List.range 256).filter d.winValid

/-- DPA byte a lies in window n. -/
def Dev.winHas (d : Dev) (n a : Nat) : Bool := d.winBase n ≤ a && a < d.winBase n + d.winSize n

/-- R76: the valid window that contains DPA byte a. -/
def Dev.winOf (d : Dev) (a : Nat) : Option Nat := d.windows.find? (fun n => d.winHas n a)

/-- The first of entry n's words that fails its use (R9, R74), or none; an injected mismatch is consumed. -/
def Dev.winUse (d : Dev) (n : Nat) : Option (Nat × Bool) × Dev :=
  (winWords n).foldl (fun a p =>
    match a.1 with
    | some _ => a
    | none =>
      let armed := a.2.flt.inj.any (fun i => i.checker == 4 && i.target == p.1)
      let r := a.2.pairUse p.1 p.2
      if r.1 then (none, r.2) else (some (p.1, armed), r.2)) (none, d)

/-- R65: INTEG equals the mode of the key range. -/
def Dev.winModeOk (d : Dev) (n : Nat) : Bool := d.winInteg n == d.get (fSEC_KR_CFG_MODE (d.winKr n))

/-! ### HDM decoders and class aliases -/

/-- The decoders of head h that are committed, in number order. -/
def Dev.decs (d : Dev) (h : Nat) : Tbl Decoder := (d.portOf h).decoders

/-- R75: the DPA that a decoder gives an HPA inside its range. -/
def Decoder.dpa (c : Decoder) (hpa : Nat) : Nat :=
  let off := hpa - c.base
  let g := 2 ^ c.gran
  c.dpaBase + off / (g * c.ways) * g + off % g

/-- The DPA length that a decoder covers: 1/W of its HPA range. -/
def Decoder.dpaSize (c : Decoder) : Nat := c.size / c.ways

/-- The number of alias ranges of decoder n of head h that resolve (R46). -/
def Dev.aliasN (d : Dev) (h n : Nat) : Nat :=
  if d.get (fPDV_ALIAS_CTL_STRIDE_SHIFT h n) = 0 then 1 else d.get (fPDV_ALIAS_MAP_ALIAS_N h n) + 1

/-- The class of alias a of decoder n (R46). -/
def Dev.classOf (d : Dev) (h n a : Nat) : Nat := wordField (d.get (fPDV_ALIAS_MAP_CLASSMAP h n)) (3 * a) 3

/-- R46: decoder, alias, class and stripped HPA of a request. -/
def Dev.resolve (d : Dev) (h hpa : Nat) : Option (Decoder × Nat × Nat × Nat) :=
  (d.decs h).findSome? (fun e =>
    let c := e.2
    if c.size = 0 then none else
    (List.range (d.aliasN h e.1)).findSome? (fun a =>
      let off := a * 2 ^ d.get (fPDV_ALIAS_CTL_STRIDE_SHIFT h e.1)
      let off := if a = 0 then 0 else off
      if c.base + off ≤ hpa ∧ hpa < c.base + off + c.size then some (c, a, d.classOf h e.1 a, hpa - off) else none))

/-- A committed decoder of head h covers some DPA of [lo, hi). -/
def Dev.decCovers (d : Dev) (h lo hi : Nat) : Bool :=
  (d.decs h).any (fun e => e.2.size != 0 && e.2.dpaBase < hi && lo < e.2.dpaBase + e.2.dpaSize)

/-- A committed decoder of some head covers part of window n. -/
def Dev.winCovered (d : Dev) (n : Nat) : Bool :=
  heads.any (fun h => d.decCovers h (d.winBase n) (d.winBase n + d.winSize n))

/-- The windows that a decoder covers. -/
def Dev.decWins (d : Dev) (c : Decoder) : List Nat :=
  d.windows.filter (fun n => c.size != 0 && c.dpaBase < d.winBase n + d.winSize n && d.winBase n < c.dpaBase + c.dpaSize)

/-! ### From MPA to a DRAM location -/

/-- Where a line sits (Table 3.5): channel, subchannel, DIMM, rank of the DIMM, bank group, bank, row, line of the row. -/
structure Loc where
  chan : Nat
  sub : Nat
  dimm : Nat
  rank : Nat
  bg : Nat
  bank : Nat
  row : Nat
  col : Nat
deriving DecidableEq, Repr

/-- The slot of a location (R81). -/
def Loc.slot (l : Loc) : Nat := l.chan * 2 + l.dimm

/-- The rank of the channel, 0 to 7: DIMM * 4 + rank. -/
def Loc.chRank (l : Loc) : Nat := l.dimm * 4 + l.rank

/-- R80: the 3-bit XOR fold of the low 36 bits of q. -/
def foldQ : Nat → Nat → Nat
  | 0, _ => 0
  | n + 1, q => Nat.xor (q % 8) (foldQ n (q / 8))

/-- R80: the channel of an MPA, and its channel-local address. -/
def chanOf (mpa : Nat) : Nat := mpa / 256 % 3 * 8 + foldQ 12 (mpa / 256 / 3)
def localOf (mpa : Nat) : Nat := mpa / 256 / 3 / 8 * 256 + mpa % 256

/-- The parity of the low n bits of v. -/
def parityOf : Nat → Nat → Nat
  | 0, _ => 0
  | n + 1, v => (v % 2 + parityOf n (v / 2)) % 2

/-- MASK(f) for row k of Table 3.6. -/
def Dev.mask (d : Dev) (k : Nat) : Nat := d.get (fWIN_BANKHASH_LO_MASK_LO k) + d.get (fWIN_BANKHASH_HI_MASK_HI k) * 2 ^ 32

/-- R82: the bit that the controller drives for the bit of row k, at base position 13 + k. -/
def Dev.hashBit (d : Dev) (k a : Nat) : Nat :=
  let m := d.mask k
  if m = 0 then a / 2 ^ (13 + k) % 2 else parityOf 48 (a &&& m)

/-- R80 to R82: the DRAM location of an MPA. -/
def Dev.locOf (d : Dev) (mpa : Nat) : Loc :=
  let a := localOf mpa
  let rb := d.get fWIN_GEOM_RANKB
  let db := d.get fWIN_GEOM_DIMMB
  { chan := chanOf mpa
    sub := d.hashBit 0 a
    bg := d.hashBit 1 a + 2 * d.hashBit 2 a + 4 * d.hashBit 3 a
    bank := d.hashBit 4 a + 2 * d.hashBit 5 a
    rank := wordField a 19 rb
    dimm := wordField a (19 + rb) db
    row := wordField a (19 + rb + db) (d.get fWIN_GEOM_ROWB)
    col := wordField a 6 7 }

/-- The bytes of one channel: 2^AWIDTH. -/
def Dev.chanBytes (d : Dev) : Nat := 2 ^ d.get fWIN_GEOM_AWIDTH

/-- The fitted MPA bytes (R79): 24 times the channel capacity of the settled population. -/
def Dev.fitted (d : Dev) : Nat := if d.mch.pop.any Option.isSome then 24 * d.chanBytes else 0

/-- R78, R149: a frame's MPA redirected to its spare. -/
def Dev.redirect (d : Dev) (mpa : Nat) : Nat :=
  match tfind d.mch.redirect (mpa / 4096) with
  | some s => s * 4096 + mpa % 4096
  | none => mpa

/-- R77: the MPA of a DPA byte of a BACKED window. -/
def Dev.backedMpa (d : Dev) (n a : Nat) : Nat := d.redirect (d.winMbase n + (a - d.winBase n))

/-- Field of n bytes of a message's payload. -/
def PMsg.at_ (m : PMsg) (off n : Nat) : Nat := leBytes m.payload off n

/-! ### The DIMM population (05_dram_scheduling.md R113) -/

end Sys2Proof.Machine

namespace Sys2Proof

/-- MCHn_CFG.TYPE and DENSITY of a DIMM. -/
def Spd.mrdimm (s : Spd) : Bool := s.type == .mrdimm
def Spd.density (s : Spd) : Nat := if s.gbit = 32 then 1 else 0

/-- R112: a supported DIMM. -/
def Spd.ok (s : Spd) : Bool :=
  (s.type == .rdimm || s.type == .mrdimm) && (s.gbit == 16 || s.gbit == 32) && s.width == 4 && !s.stacked && s.devices == 10 &&
  (s.ranks == 2 || s.ranks == 4 || (s.ranks == 1 && !s.mrdimm))

/-- The same type, density and rank count. -/
def Spd.like (s r : Spd) : Bool := s.type == r.type && s.gbit == r.gbit && s.ranks == r.ranks

/-- The lowest rate of Table 5.2 for a DIMM's type. -/
def Spd.lowest (s : Spd) : Nat := if s.mrdimm then 88 else 48

/-- R113: a supported DIMM whose rating reaches the lowest rate of its type. -/
def Spd.rated (s : Spd) : Bool := s.ok && decide (s.lowest ≤ s.rate)

/-- Table 5.2: the rates of a type at 1DPC or 2DPC, highest first. -/
def Spd.rates (s : Spd) (two : Bool) : List Nat :=
  if s.mrdimm then (if two then [88] else [128, 88]) else (if two then [56, 48] else [64, 56, 48])

end Sys2Proof

namespace Sys2Proof.Machine

/-- R113: the reference DIMM. -/
def refDimm (l : List (Option Spd)) : Option Spd :=
  (List.range 24).findSome? (fun c => match l.getD (2 * c) none with
    | some x => if x.rated then some x else none
    | none => none)

/-- R113: the highest rate of a population that every DIMM reaches. -/
def popRate (l : List (Option Spd)) (two : Bool) : Nat :=
  match refDimm l with
  | some r => ((r.rates two).find? (fun x => l.all (fun o => match o with | some y => decide (x ≤ y.rate) | none => true))).getD 0
  | none => 0

/-- R317: C_rated in 0.1 GB/s at a rate in 100 MT/s. -/
def ratedCap (rate : Nat) : Nat := (192 * rate * 7332 + 5000) / 10000

end Sys2Proof.Machine
end

