-- ==== Sys2Proof/Machine/Reply.lean ====
section
/-! DEFINITION. Command packets (13_commands.md R324 to R340): the opcode table, the order of checks, reply packets, and
commands that run on after their checks (R334). -/

namespace Sys2Proof.Machine

/-! ### Status codes (Table 13.6) -/

def stSuccess : Nat := 0
def stUnknownOpcode : Nat := 1
def stOpcodeMismatch : Nat := 2
def stLengthMismatch : Nat := 3
def stInvalidField : Nat := 4
def stComplementMismatch : Nat := 5
def stNotPermitted : Nat := 6
def stNoSession : Nat := 7
def stCmdBusy : Nat := 8
def stTagConflict : Nat := 9
def stNotReady : Nat := 0xA
def stDeviceHalted : Nat := 0xB
def stNoCapacity : Nat := 0xC
def stBasicService : Nat := 0xD
def stWinIllegal : Nat := 0x101
def stWinOverlap : Nat := 0x102
def stWinBusy : Nat := 0x103
def stSharedLimit : Nat := 0x104
def stQosOvercommit : Nat := 0x110
def stKrBusy : Nat := 0x201
def stKrOverlap : Nat := 0x202
def stKeyNotLoaded : Nat := 0x203
def stKrReadOnly : Nat := 0x204
def stKeyMismatch : Nat := 0x205
def stPairLinkDown : Nat := 0x301
def stPairBusy : Nat := 0x302
def stMirState : Nat := 0x303
def stMirNoTarget : Nat := 0x304
def stPeerAlive : Nat := 0x305
def stPeerUnknown : Nat := 0x306
def stCooling : Nat := 0x501
def stSlotFault : Nat := 0x502
def stSleepBlocked : Nat := 0x510
def stAlreadyRetired : Nat := 0x601
def stRetireConflict : Nat := 0x602
def stPprExhausted : Nat := 0x603
def stLocked : Nat := 0x604
def stFwAuthFail : Nat := 0x801
def stFwRollback : Nat := 0x802
def stFwSequence : Nat := 0x803
def stInvalidDesc : Nat := 0x901
def stSliceAbsent : Nat := 0x902
def stAddrFault : Nat := 0x903
def stDestReadOnly : Nat := 0x904
def stDestLost : Nat := 0x905
def stOutputOverflow : Nat := 0x906
def stInsufficientShards : Nat := 0x907
def stMemPoison : Nat := 0x908

/-- DETAIL where no single field failed. -/
def noDetail : Nat := 0xffffffff

/-! ### The opcode table (Table 13.5) -/

/-- Permission classes (R332). -/
inductive CmdClass where
  | q | c | a | s
deriving DecidableEq, Repr

/-- A row of Table 13.5: opcode, class, the range of PLEN and its unit, marks B and H, whether Basic service and the fatal stop
refuse it, the complemented fields (offset, offset of the complement, bytes) in ascending offset, and the zero or reserved
bits (offset, bytes, mask) in ascending offset. -/
structure CmdRow where
  op : Nat
  cls : CmdClass
  lo : Nat
  hi : Nat
  unit : Nat := 1
  bg : Bool := false
  halt : Bool := false
  basic : Bool := false
  fatal : Bool := false
  pairs : List (Nat × Nat × Nat) := []
  zeros : List (Nat × Nat × Nat) := []
deriving DecidableEq, Repr

/-- n words at an offset with their complements after them. -/
def wordPairs (off n : Nat) : List (Nat × Nat × Nat) := (List.range n).map (fun i => (off + 4 * i, off + 4 * (n + i), 4))

/-- n zero bytes at an offset. -/
def zeroBytes (off n : Nat) : Nat × Nat × Nat := (off, n, 256 ^ n - 1)

/-- Reserved bits of the words W0 to W5 of a window image at an offset. -/
def winZeros (off : Nat) : List (Nat × Nat × Nat) :=
  [(off, 4, 0xfff00080), (off + 4, 4, 0xfe000000), (off + 8, 4, 0xfe000000), (off + 16, 4, 0xff800000), (off + 20, 4, 0xff800000)]

def rowWinCreate : CmdRow := { op := 0xC000, cls := .c, lo := 48, hi := 48, bg := true, pairs := wordPairs 0 6, zeros := winZeros 0 }
def rowWinModify : CmdRow := { op := 0xC001, cls := .c, lo := 52, hi := 52, pairs := wordPairs 4 6, zeros := zeroBytes 1 3 :: winZeros 4 }
def rowWinRemove : CmdRow := { op := 0xC002, cls := .c, lo := 4, hi := 4, pairs := [(0, 1, 1)], zeros := [zeroBytes 2 2] }
def rowQosClassmap : CmdRow := { op := 0xC010, cls := .c, lo := 8, hi := 8, zeros := [zeroBytes 1 3, (4, 4, 0xff000000)] }
def rowQosClass : CmdRow := { op := 0xC011, cls := .c, lo := 72, hi := 72, zeros := [zeroBytes 5 1] }
def rowQosPort : CmdRow := { op := 0xC012, cls := .c, lo := 12, hi := 12, zeros := [zeroBytes 10 2] }
def rowKrCreate : CmdRow :=
  { op := 0xC100, cls := .c, lo := 36, hi := 36, pairs := wordPairs 4 4,
    zeros := [zeroBytes 1 3, (4, 4, 0xfffffff8), (8, 4, 0xfe000000), (12, 4, 0xfe000000), (16, 4, 0xff000000)] }
def rowKrRemove : CmdRow := { op := 0xC101, cls := .c, lo := 4, hi := 4, pairs := [(0, 1, 1)], zeros := [zeroBytes 2 2] }
def rowKeyLoad : CmdRow := { op := 0xC102, cls := .s, lo := 36, hi := 36, bg := true, zeros := [zeroBytes 2 2] }
def rowKeyRotate : CmdRow := { op := 0xC103, cls := .c, lo := 4, hi := 4, pairs := [(0, 1, 1)], zeros := [zeroBytes 2 2] }
def rowSecHalt : CmdRow := { op := 0xC1F0, cls := .c, lo := 8, hi := 8, pairs := [(0, 4, 4)] }
def rowMirPair : CmdRow := { op := 0xC200, cls := .c, lo := 36, hi := 36, pairs := [(0, 1, 1)], zeros := [zeroBytes 2 2] }
def rowMirTarget : CmdRow := { op := 0xC201, cls := .c, lo := 4, hi := 4, zeros := [zeroBytes 2 2] }
def rowMirUntarget : CmdRow := { op := 0xC202, cls := .c, lo := 4, hi := 4, zeros := [zeroBytes 1 3] }
def rowMirResume : CmdRow := { op := 0xC203, cls := .c, lo := 4, hi := 4, zeros := [zeroBytes 1 3] }
def rowMirPromote : CmdRow := { op := 0xC204, cls := .c, lo := 4, hi := 4, pairs := [(1, 2, 1)], zeros := [(1, 1, 0xfe), zeroBytes 3 1] }
def rowMirBitmap : CmdRow := { op := 0xC205, cls := .c, lo := 4, hi := 4, zeros := [zeroBytes 2 2] }
def rowMirShadow : CmdRow := { op := 0xC206, cls := .q, lo := 4, hi := 4, fatal := true, zeros := [zeroBytes 2 2] }
def rowPairLinkSet : CmdRow := { op := 0xC210, cls := .c, lo := 4, hi := 4, zeros := [zeroBytes 2 2] }
def rowCapLayout : CmdRow := { op := 0xC300, cls := .c, lo := 16, hi := 16, bg := true, basic := true }
def rowCapThresholds : CmdRow := { op := 0xC301, cls := .c, lo := 8, hi := 8, zeros := [zeroBytes 6 2] }
def rowCapWindowPolicy : CmdRow := { op := 0xC302, cls := .c, lo := 4, hi := 4, basic := true, zeros := [zeroBytes 3 1] }
def rowCapTierLimits : CmdRow := { op := 0xC303, cls := .c, lo := 12, hi := 12, zeros := [zeroBytes 10 2] }
def rowCapDcRegion : CmdRow := { op := 0xC304, cls := .c, lo := 12, hi := 12, basic := true, zeros := [zeroBytes 2 2] }
def rowSlotEnable : CmdRow := { op := 0xC400, cls := .c, lo := 4, hi := 4, pairs := [(0, 1, 1)], zeros := [zeroBytes 2 2] }
def rowSlotDisable : CmdRow := { op := 0xC401, cls := .c, lo := 4, hi := 4, pairs := [(0, 1, 1)], zeros := [zeroBytes 2 2] }
def rowSlotLimits : CmdRow :=
  { op := 0xC402, cls := .c, lo := 20, hi := 20, pairs := [(4, 12, 8)], zeros := [zeroBytes 1 3, (4, 4, 0xc0000000)] }
def rowRankRetrain : CmdRow := { op := 0xC410, cls := .c, lo := 4, hi := 4, zeros := [zeroBytes 2 2] }
def rowThmThresh : CmdRow := { op := 0xC500, cls := .c, lo := 12, hi := 12, pairs := [(0, 4, 4)], zeros := [zeroBytes 10 2] }
def rowPwrLimits : CmdRow := { op := 0xC501, cls := .c, lo := 4, hi := 4, zeros := [zeroBytes 3 1] }
def rowPwrSleep : CmdRow := { op := 0xC502, cls := .c, lo := 4, hi := 4, zeros := [zeroBytes 1 3] }
def rowFltReact : CmdRow := { op := 0xC600, cls := .c, lo := 8, hi := 8, fatal := true, pairs := [(0, 4, 4)], zeros := [zeroBytes 3 1] }
def rowFltGlobal : CmdRow := { op := 0xC601, cls := .c, lo := 8, hi := 8, pairs := [(0, 4, 4)] }
def rowFltClear : CmdRow := { op := 0xC602, cls := .c, lo := 8, hi := 8, fatal := true }
def rowInjectUnlock : CmdRow := { op := 0xC603, cls := .s, lo := 4, hi := 4 }
def rowInject : CmdRow := { op := 0xC604, cls := .c, lo := 12, hi := 12, zeros := [zeroBytes 2 2] }
def rowBasicExit : CmdRow := { op := 0xC605, cls := .c, lo := 0, hi := 0 }
def rowFrameRetire : CmdRow := { op := 0xC610, cls := .c, lo := 8, hi := 8, zeros := [(0, 8, 0xfff)] }
def rowBankRetire : CmdRow := { op := 0xC611, cls := .c, lo := 8, hi := 8, zeros := [zeroBytes 7 1] }
def rowPprSoft : CmdRow := { op := 0xC612, cls := .c, lo := 12, hi := 12, zeros := [zeroBytes 6 2] }
def rowPprHard : CmdRow := { op := 0xC613, cls := .c, lo := 12, hi := 12, zeros := [zeroBytes 6 2] }
def rowLogRead : CmdRow := { op := 0xC700, cls := .q, lo := 8, hi := 8, halt := true, fatal := true, zeros := [zeroBytes 6 2] }
def rowFwTransfer : CmdRow := { op := 0xC800, cls := .c, lo := 5, hi := 65520 }
def rowFwActivate : CmdRow := { op := 0xC801, cls := .c, lo := 4, hi := 4, bg := true, zeros := [zeroBytes 1 3] }
def rowFwInfo : CmdRow := { op := 0xC802, cls := .q, lo := 0, hi := 0, halt := true, fatal := true }
def rowRegWrite : CmdRow := { op := 0xC810, cls := .c, lo := 12, hi := 768, unit := 12 }
def rowRegRead : CmdRow := { op := 0xC811, cls := .q, lo := 8, hi := 8, halt := true, fatal := true, zeros := [zeroBytes 6 2] }
def rowCsrGrant : CmdRow := { op := 0xC820, cls := .a, lo := 8, hi := 8, pairs := [(0, 4, 4)] }
def rowCmdGrant : CmdRow := { op := 0xC821, cls := .a, lo := 8, hi := 8, pairs := [(0, 4, 4)] }
def rowLinkConfig : CmdRow := { op := 0xC830, cls := .c, lo := 40, hi := 40, zeros := (List.range 32).map (fun i => (8 + i, 1, 0xe0)) }
def rowSliceEn : CmdRow := { op := 0xC900, cls := .c, lo := 4, hi := 4, zeros := [zeroBytes 1 3] }
def rowQueueClass : CmdRow := { op := 0xC901, cls := .c, lo := 4, hi := 4, zeros := [zeroBytes 3 1] }

/-- Table 13.5. -/
def cmdTable : List CmdRow :=
  [rowWinCreate, rowWinModify, rowWinRemove, rowQosClassmap, rowQosClass, rowQosPort, rowKrCreate, rowKrRemove, rowKeyLoad,
   rowKeyRotate, rowSecHalt, rowMirPair, rowMirTarget, rowMirUntarget, rowMirResume, rowMirPromote, rowMirBitmap, rowMirShadow,
   rowPairLinkSet, rowCapLayout, rowCapThresholds, rowCapWindowPolicy, rowCapTierLimits, rowCapDcRegion] ++
  [rowSlotEnable, rowSlotDisable, rowSlotLimits, rowRankRetrain, rowThmThresh, rowPwrLimits, rowPwrSleep, rowFltReact, rowFltGlobal,
   rowFltClear, rowInjectUnlock, rowInject, rowBasicExit, rowFrameRetire, rowBankRetire, rowPprSoft, rowPprHard, rowLogRead,
   rowFwTransfer, rowFwActivate, rowFwInfo, rowRegWrite, rowRegRead, rowCsrGrant, rowCmdGrant, rowLinkConfig, rowSliceEn, rowQueueClass]

/-- The row of an opcode. -/
def cmdRow (op : Nat) : Option CmdRow := cmdTable.find? (fun r => r.op == op)

/-! ### Packets -/

/-- Carrier code of a transport. -/
def trCode : Transport → Nat
  | .mailbox => 0
  | .smbus => 1
  | .vdm => 2
  | .session _ => 3

end Sys2Proof.Machine

namespace Sys2Proof

open Machine

/-- Field of n bytes at a payload offset. -/
def Pkt.at_ (c : Pkt) (off n : Nat) : Nat := leBytes c.payload off n

/-- The reply address of a packet: the head of a mailbox or VDM, else the endpoint. -/
def Pkt.who (c : Pkt) : Nat := if trCode c.tr = 0 ∨ trCode c.tr = 2 then c.head.toNat else c.ep.toNat

end Sys2Proof

namespace Sys2Proof.Machine

/-- An SPDM session by its number (R354), once its handshake has ended. -/
def Dev.session (d : Dev) (n : Nat) : Option Session := d.mgt.sessions.find? (fun x => x.id == n && x.fin)

/-- The MCTP endpoint of a session (R333), and the head whose link carries it (R335). -/
def viaMctp : SpdmVia → Option (Nat × Nat)
  | .doe _ => none
  | .smbus e => some (1, e.toNat)
  | .vdm h => some (2, h.toNat)
def viaLink : SpdmVia → Option Nat
  | .doe h => some h.toNat
  | .smbus _ => none
  | .vdm h => some h.toNat

/-- The MCTP endpoint of a packet: the same one in a session over MCTP and outside it (R333). -/
def Dev.mctpOf (d : Dev) (c : Pkt) : Option (Nat × Nat) :=
  match c.tr with
  | .mailbox => none
  | .smbus => some (1, c.ep.toNat)
  | .vdm => some (2, c.head.toNat)
  | .session n => (d.session n).bind (fun x => viaMctp x.via)

/-- The head whose link carries a packet (R335). -/
def Dev.linkOf (d : Dev) (c : Pkt) : Option Nat :=
  match c.tr with
  | .mailbox => some c.head.toNat
  | .vdm => some c.head.toNat
  | .smbus => none
  | .session n => (d.session n).bind (fun x => viaLink x.via)

/-- The command in progress that a packet starts. -/
def Dev.cmdOf (d : Dev) (c : Pkt) (op : Nat) (fg : Bool) (arg : List Nat) : BgCmd :=
  { op := op, tr := if d.mgt.taking = some true then 4 else trCode c.tr, who := c.who, tag := c.tag.toNat, arg := arg, fg := fg,
    mctp := d.mctpOf c, link := d.linkOf c }

/-- The command that a packet of the queue starts; its reply is discarded where it is muted (R335). -/
def Dev.queuedCmd (d : Dev) (q : QPkt) : BgCmd :=
  let b := d.cmdOf q.pkt q.op true []
  if q.mute then { b with tr := 4 } else b

/-- The tags of the commands of an MCTP endpoint that are outstanding: in progress, or in the queue (R333). -/
def Dev.outTags (d : Dev) (e : Nat × Nat) : List Nat :=
  (d.mgt.bg.filter (fun b => b.2.mctp == some e)).map (fun b => b.2.tag) ++
  (d.mgt.cmdq.filter (fun q => d.mctpOf q.pkt == some e)).map (fun q => q.pkt.tag.toNat)

/-- R330 step 1: over MCTP, the tag of a command of the endpoint that is outstanding. -/
def Dev.tagTaken (d : Dev) (c : Pkt) : Bool :=
  match d.mctpOf c with
  | some e => (d.outTags e).contains c.tag.toNat
  | none => false

/-- R333: an MCTP endpoint has 8 commands outstanding. -/
def Dev.eightOut (d : Dev) (c : Pkt) : Bool :=
  match d.mctpOf c with
  | some e => decide (8 ≤ (d.outTags e).length)
  | none => false

/-- A reply packet (Table 13.2). -/
def replyBytes (op status rflags tag detail : Nat) (body : List Byte) : List Byte :=
  leOf 2 op ++ leOf 2 status ++ leOf 1 1 ++ leOf 1 rflags ++ leOf 2 tag ++ leOf 4 body.length ++ leOf 4 detail ++ body

/-- R357: C and A commands are logged with their outcome. -/
def Dev.logCmd (d : Dev) (b : BgCmd) (status detail : Nat) : Dev :=
  match cmdRow b.op with
  | some r => if r.cls = .c ∨ r.cls = .a then
      d.logPut 2 0 (b.op + (if b.tr = 0 ∨ b.tr = 2 then b.who else 0) * 2 ^ 16) (b.tag + status * 2 ^ 16 + detail * 2 ^ 32) else d
  | none => d

/-- R432: the CMDDONE packet of a reply (Table 18.5), from the 16 bytes of its header. -/
def Dev.cmdDone (d : Dev) (b : BgCmd) (hdr : List Byte) : Dev :=
  if d.flag fRING_GCTL_CMD_EN then
    let head := if b.tr = 0 ∨ b.tr = 2 then b.who * 4 + 128 else 0
    d.ringPut (d.get fRING_GCTL_CMD_RING) 3 [d.now, leBytes hdr 0 8, leBytes hdr 8 8, b.tr + head + (!b.fg).toNat * 256]
  else d

/-- A reply leaves; the mailbox reports a foreground command with its return code (R325). -/
def Dev.sendReply (d : Dev) (b : BgCmd) (status rflags detail : Nat) (body : List Byte) : Dev :=
  let d := d.logCmd b status detail
  if b.tr = 4 then d
  else
    let d := if b.tr = 0 ∧ b.fg then d.emit (.mailboxRc b.who 0) else d
    let r := replyBytes b.op status rflags b.tag detail (if status = 0 then body else [])
    (d.emit (.reply b.tr b.who r)).cmdDone b (r.take 16)

/-- A command that runs on takes the next number; the mailbox reports a background command as started, and its Background Command Status
register names it (R334). -/
def Dev.startBg (d : Dev) (b : BgCmd) : Dev :=
  let n := d.mgt.nextBg
  let d := { d with mgt := { d.mgt with bg := tins d.mgt.bg n b, nextBg := n + 1 } }
  if b.tr = 0 ∧ !b.fg then { d with mgt := { d.mgt with bgStat := tins d.mgt.bgStat b.who (b.op, n) } }.emit (.mailboxRc b.who 1) else d

/-- R334: the Background Command Status register of head h's mailbox: the opcode of its last background command, and the percentage
complete, which is free while the command is in progress (log entry 4). -/
def Dev.bgStatus (d : Dev) (h : Nat) : Option (Nat × Nat) :=
  (tfind d.mgt.bgStat h).map (fun x => (x.1, if d.mgt.bg.any (fun e => e.1 == x.2 && !e.2.done) then Config.bgProgress x.2 % 100 else 100))

/-- R325: the opcodes in each head's Command Effects Log. -/
def effectsLog (_head : Nat) : List Nat := cmdTable.map (·.op)

/-- A command in progress ends: a foreground one replies at once, a background one at BACKGROUND_COMMAND_COMPLETE. -/
def Dev.bgDone (d : Dev) (i status detail : Nat) (body : List Byte) : Dev :=
  match tfind d.mgt.bg i with
  | some b =>
    if b.fg then { d with mgt := { d.mgt with bg := tdel d.mgt.bg i } }.sendReply b status 0 detail body
    else { d with mgt := { d.mgt with bg := tins d.mgt.bg i { b with done := true, status := status, detail := detail, body := body } } }
  | none => d

/-- As bgDone, where a command waits. -/
def Dev.bgDoneOpt (d : Dev) (o : Option Nat) (status detail : Nat) (body : List Byte) : Dev :=
  match o with
  | some i => d.bgDone i status detail body
  | none => d

/-- Commands in progress that p selects end with a status. -/
def Dev.bgEndAll (d : Dev) (p : BgCmd → Bool) (status : Nat) : Dev :=
  (tkeys (d.mgt.bg.filter (fun e => p e.2 && !e.2.done))).foldl (fun d i => d.bgDone i status noDetail []) d

/-- A command in progress with an opcode works on a target. -/
def Dev.bgOn (d : Dev) (op target : Nat) : Bool :=
  d.mgt.bg.any (fun e => e.2.op == op && !e.2.done && e.2.arg.headD 0 == target)

/-! ### The order of checks (R330) -/

/-- The first complemented field that does not match: the offset of its complement. -/
def badPair (c : Pkt) (l : List (Nat × Nat × Nat)) : Option Nat :=
  (l.find? (fun p => c.at_ p.1 p.2.2 + c.at_ p.2.1 p.2.2 != 256 ^ p.2.2 - 1)).map (fun p => 16 + p.2.1)

/-- The first reserved bits that are not zero: the offset of their field. -/
def badZero (c : Pkt) (l : List (Nat × Nat × Nat)) : Option Nat :=
  (l.find? (fun p => (c.at_ p.1 p.2.1 &&& p.2.2) != 0)).map (fun p => 16 + p.1)

/-- Step 1 of R330 after the opcode: version, flags, lengths, tag. -/
def Dev.hdrCheck (d : Dev) (r : CmdRow) (c : Pkt) : Option (Nat × Nat) :=
  let n := c.plen.toNat
  let lim := if trCode c.tr = 0 then 65520 else 4080
  if c.ver ≠ 1 then some (stInvalidField, 4)
  else if 1 < c.flags.toNat then some (stInvalidField, 5)
  else if c.plenC.toNat + n ≠ 0xffffffff then some (stLengthMismatch, 12)
  else if n < r.lo ∨ r.hi < n ∨ n % r.unit ≠ 0 ∨ lim < n ∨ c.payload.length ≠ n then some (stLengthMismatch, 8)
  else if d.tagTaken c then some (stTagConflict, 6)
  else none

/-- R332: head h holds the command grant; a failed pair grants no head and is recorded. -/
def Dev.cmdGrant (d : Dev) (h : Nat) : Bool × Dev :=
  let r := d.pairUse rMGT_CMD_GRANT rMGT_CMD_GRANT_C
  if r.1 then (r.2.bit fMGT_CMD_GRANT_HEAD h, r.2) else (false, r.2.pairFail rMGT_CMD_GRANT rMGT_CMD_GRANT_C)

/-- R355: a session is secured: it used mutual authentication, and its requester's chain roots in the owner key where one is fused. -/
def Dev.secured (d : Dev) (n : Nat) : Bool :=
  match d.session n with
  | some x => x.mutAuth && (x.ownerRooted || Config.ownerKeyHash.toNat == 0)
  | none => false

/-- R332: permission by class and transport; a session that does not exist carries nothing. -/
def Dev.permCheck (d : Dev) (r : CmdRow) (c : Pkt) : Option (Nat × Nat) × Dev :=
  match r.cls, c.tr with
  | .q, _ => (none, d)
  | .c, .smbus => (none, d)
  | .c, .session n => (if (d.session n).isSome then none else some (stNotPermitted, noDetail), d)
  | .c, _ => let g := d.cmdGrant c.head.toNat; (if g.1 then none else some (stNotPermitted, noDetail), g.2)
  | .a, .smbus => (none, d)
  | .a, .session n => (if (d.session n).isSome then none else some (stNotPermitted, noDetail), d)
  | .a, _ => (some (stNotPermitted, noDetail), d)
  | .s, .session n => (if d.secured n then none else some (stNoSession, noDetail), d)
  | .s, _ => (some (stNoSession, noDetail), d)

/-- R334: a command that would change the target of a background command that runs, or an entry whose change is being applied
(log entry 23). -/
def Dev.targetBusy (d : Dev) (r : CmdRow) (c : Pkt) : Bool :=
  let n := c.at_ 0 1
  if r.op = 0xC001 ∨ r.op = 0xC002 then d.bgOn 0xC000 n || d.win.chg.any (fun x => x.win == n)
  else if r.op = 0xC201 ∨ r.op = 0xC202 ∨ r.op = 0xC203 ∨ r.op = 0xC204 ∨ r.op = 0xC302 then d.bgOn 0xC000 n
  else if r.op = 0xC100 ∨ r.op = 0xC101 ∨ r.op = 0xC102 ∨ r.op = 0xC103 then d.bgOn 0xC102 n
  else r.op == 0xC300 && d.mgt.bg.any (fun e => e.2.op == 0xC300 && !e.2.done)

/-- R326: the Mailbox Interface Ready bit of every head's mailbox. -/
def Dev.mailboxReady (d : Dev) : Bool := d.flag fMGT_STS_READY

/-- Step 4 of R330: boot (R326), a full queue or an endpoint's ninth command (R333), a busy target (R334). -/
def Dev.readyCheck (d : Dev) (r : CmdRow) (c : Pkt) : Option (Nat × Nat) :=
  if !d.mailboxReady && r.op != 0xC802 then some (stNotReady, noDetail)
  else if 64 ≤ d.mgt.cmdq.length then some (stCmdBusy, noDetail)
  else if d.eightOut c then some (stCmdBusy, noDetail)
  else if d.targetBusy r c then some (stCmdBusy, noDetail)
  else none

/-- Steps 5 and 6 of R330 that every command shares: complements, then zero and reserved bits; between the two the WIN_BUSY of R83 and
R214, which R68 puts there for WIN_CREATE. -/
def Dev.bodyCheck (d : Dev) (r : CmdRow) (c : Pkt) : Option (Nat × Nat) :=
  match badPair c r.pairs with
  | some x => some (stComplementMismatch, x)
  | none =>
    if r.op = rowWinCreate.op ∧ (!d.flag fWIN_CTL_MAP_LOCK || !d.flag (fCDC_LAYOUT_SET 0)) = true then some (stWinBusy, noDetail) else
    match badZero c r.zeros with
    | some x => some (stInvalidField, x)
    | none => none

/-- The checks of R330 that every command shares: the status and detail of a refusal. -/
def Dev.preCheck (d : Dev) (r : CmdRow) (c : Pkt) : Option (Nat × Nat) × Dev :=
  match d.hdrCheck r c with
  | some x => (some x, d)
  | none =>
    if (d.halted && !r.halt) || (d.fatal && !r.fatal) then (some (stDeviceHalted, noDetail), d)
    else
      match d.permCheck r c with
      | (some x, d) => (some x, d)
      | (none, d) =>
        match d.readyCheck r c with
        | some x => (some x, d)
        | none => (d.bodyCheck r c, d)

/-! ### Running a command -/

/-- What a command's effect leaves: a reply body and RFLAGS, or a command that runs on with its arguments, or a status after all. -/
inductive CmdEnd where
  | done (body : List Byte) (rflags : Nat)
  | runs (arg : List Nat)
  | fails (status : Nat)

/-- R331: settings that have been written to the pairs ps are read back before the reply: the command goes on with f, or replies with
COMPLEMENT_MISMATCH, and what was written stands (DESIGN CHOICE, log entry 120). -/
def Dev.stored (d : Dev) (ps : List (Nat × Nat)) (f : Dev → Dev) : CmdEnd × Dev :=
  let r := d.readBack ps
  if r.1 then (.done [] 0, f r.2) else (.fails stComplementMismatch, r.2)

/-- A mailbox on which a background command runs. -/
def Dev.mailboxBg (d : Dev) (h : Nat) : Bool := d.mgt.bg.any (fun e => e.2.tr == 0 && e.2.who == h && !e.2.fg)

/-- A mailbox whose doorbell is set: its command runs on in the foreground, or waits in the queue (R333). -/
def Dev.mailboxFg (d : Dev) (h : Nat) : Bool :=
  d.mgt.bg.any (fun e => e.2.tr == 0 && e.2.who == h && e.2.fg && !e.2.done) ||
  d.mgt.cmdq.any (fun q => trCode q.pkt.tr == 0 && q.pkt.head.toNat == h && !q.mute)

/-- R333: commands are executed one at a time: one is in progress in the foreground, or others wait. -/
def Dev.mgtBusy (d : Dev) : Bool := !d.mgt.cmdq.isEmpty || d.mgt.bg.any (fun e => e.2.fg)

/-- R333: a packet joins the queue, and is looked at when its turn comes; one that finds the queue full, or whose endpoint cannot have it
outstanding, is refused by the checks of R330 at once. -/
def Dev.queues (d : Dev) (c : Pkt) : Bool :=
  d.mgt.taking.isNone && d.mgtBusy && decide (d.mgt.cmdq.length < 64) && !d.tagTaken c && !d.eightOut c
def Dev.enqueue (d : Dev) (op : Nat) (c : Pkt) : Dev := { d with mgt := { d.mgt with cmdq := d.mgt.cmdq ++ [{ op := op, pkt := c }] } }

/-- S3: MGMT-lite answers class Q commands over SMBus or I3C alone; q is whether this command is of class Q (R391). -/
def Dev.lite (d : Dev) (q : Bool) (c : Pkt) : Bool := d.get fPWR_SLEEP_STS_STATE == 3 && !(q && trCode c.tr == 1)

/-- A packet does not reach the command interface: its mailbox's doorbell is set already (R333), the head's port offers configuration
space only (R37), or the controller sleeps in S3 (R391). A packet that is taken up from the queue has reached it. -/
def Dev.deaf (d : Dev) (q : Bool) (c : Pkt) : Bool :=
  d.mgt.taking.isNone && ((trCode c.tr == 0 && d.mailboxFg c.head.toNat) || ((trCode c.tr == 0 || trCode c.tr == 2) && d.cfgOnly c.head.toNat) || d.lite q c)

/-! #### Wake (R394) -/

/-- R394, Table 16.7: source code k wakes from state st. -/
def Dev.wakes (d : Dev) (k st : Nat) : Bool :=
  if k = 1 ∨ k = 6 ∨ k = 7 ∨ k = 9 then true
  else if k = 2 then st == 3
  else if k = 3 then 2 ≤ st
  else if k = 4 then st == 1
  else if k = 5 then d.flag fPWR_WAKE_CTL_WAKEN_EN
  else k == 8 && st == 3 && d.flag fPWR_WAKE_CTL_SMB_EN

/-- R394: a wake of a sleeping controller: the exit starts; from S3 the main rails come back. -/
def Dev.beginExit (d : Dev) (code : Nat) : Dev :=
  let st := d.get fPWR_SLEEP_STS_STATE
  let d := { d with pwr := { d.pwr with exiting := true, exitFrom := st } }.set fPWR_SLEEP_STS_LAST_WAKE code
  if st = 3 then { d with pin := { d.pin with mainEn := true } } else d

/-- R394: wake source k is active: a controller that sleeps in a state it wakes from starts its exit. -/
def Dev.rouse (d : Dev) (k : Nat) : Dev :=
  let st := d.get fPWR_SLEEP_STS_STATE
  if st != 0 && !d.pwr.exiting && d.wakes k st then d.beginExit k else d

/-- R391: a command that MGMT-lite does not answer requests a wake (code 9), and runs once it is presented after the exit (log entry 98). -/
def Dev.askWake (d : Dev) (q : Bool) (c : Pkt) : Dev := if d.lite q c then d.rouse 9 else d

/-- R324 to R334: a packet waits in the queue, or is checked and refused, or has its effect; check gives the owning chapter's refusal, eff
the effect. The effect of a command that runs on sees the number it takes. -/
def Acc.command (a : Acc) (r : CmdRow) (c : Pkt) (check : Acc → Option (Nat × Nat)) (eff : Nat → Acc → CmdEnd × Acc) : Acc :=
  let mb := trCode c.tr = 0
  let h := c.head.toNat
  let fgc := fun (d : Dev) => d.cmdOf c r.op true []
  if a.dev.deaf (r.cls == .q) c = true then a.upd (fun d => d.askWake (r.cls == .q) c)
  else if mb ∧ c.mailboxLen.toNat ≠ 16 + c.plen.toNat then a.upd (fun d => d.emit (.mailboxRc h 2))
  else if a.dev.queues c = true then a.upd (fun d => d.enqueue r.op c)
  else
    let p := a.dev.preCheck r c
    let a := { a with dev := p.2 }
    let chk := c.flags.toNat % 2
    match p.1 with
    | some x => a.upd (fun d => d.sendReply (fgc d) x.1 chk x.2 [])
    | none =>
      match (check a).or (if r.basic && a.dev.basic then some (stBasicService, noDetail) else none) with
      | some x => a.upd (fun d => d.sendReply (fgc d) x.1 chk x.2 [])
      | none =>
        if c.flags.toNat = 1 then a.upd (fun d => d.sendReply (fgc d) 0 1 noDetail [])
        else if r.bg ∧ mb ∧ a.dev.mailboxBg h = true then a.upd (fun d => d.emit (.mailboxRc h 3))
        else
          match eff a.dev.mgt.nextBg a with
          | (.done body fl, a) =>
            if r.bg then
              a.upd (fun d => (d.startBg { fgc d with fg := false }).bgDone d.mgt.nextBg 0 noDetail body)
            else a.upd (fun d => d.sendReply (fgc d) 0 fl noDetail body)
          | (.runs arg, a) => a.upd (fun d => d.startBg { fgc d with fg := !r.bg, arg := arg })
          | (.fails st, a) => a.upd (fun d => d.sendReply (fgc d) st 0 noDetail [])

/-- A command that touches the device only. -/
def Dev.command (d : Dev) (r : CmdRow) (c : Pkt) (check : Dev → Option (Nat × Nat)) (eff : Nat → Dev → CmdEnd × Dev) : Dev :=
  (Acc.command { dev := d, base := [], log := [] } r c (fun a => check a.dev) (fun i a => let x := eff i a.dev; (x.1, { a with dev := x.2 }))).dev

/-- The first refusal of a list of checks. -/
def firstBad (l : List (Bool × Nat × Nat)) : Option (Nat × Nat) := (l.find? (·.1)).map (·.2)

/-- R336: the images of registers enter the configuration record, with the complements of those held in pairs. -/
def Dev.cfgRegs (d : Dev) (ks : List Nat) : Dev :=
  let kc := ks.filterMap complOf
  { d with flash := { d.flash with cfg := { d.flash.cfg with regs := ks.foldl (fun t k => tins t k (d.rd k)) d.flash.cfg.regs
                                                             comps := kc.foldl (fun t k => tins t k (d.rd k)) d.flash.cfg.comps } } }

/-- The words of an image with their complements after them (R336). -/
def withCompl (l : List Nat) : List Nat := l ++ l.map (fun w => 0xffffffff - w)

end Sys2Proof.Machine
end

