-- ==== Sys2Proof/Machine/LineCodec.lean ====
section
/-! DEFINITION. The line codec (08_compression_tiering.md R195 to R198, Table 8.1). -/

namespace Sys2Proof.Machine

/-- The words of n bytes of a line. -/
def lineWords (n v : Nat) : List Nat := (List.range (64 / n)).map (fun i => v / 2 ^ (8 * n * i) % 2 ^ (8 * n))

/-- The delta of a word of n bytes from w0, where it is representable in k bytes two's complement: its k bytes. -/
def deltaFit (n k w0 w : Nat) : Option Nat :=
  let dl := (w + 2 ^ (8 * n) - w0) % 2 ^ (8 * n)
  if dl < 2 ^ (8 * k - 1) then some dl
  else if 2 ^ (8 * n) - 2 ^ (8 * k - 1) ≤ dl then some (dl % 2 ^ (8 * k)) else none

/-- A base-delta pattern: words of n bytes, deltas of k bytes. -/
def bdEncode (n k v : Nat) : Option (List Nat) :=
  let ws := lineWords n v
  let w0 := ws.headD 0
  (ws.drop 1).foldl (fun a w => match a, deltaFit n k w0 w with
    | some l, some x => some (l ++ toBytes k x)
    | _, _ => none) (some (toBytes n w0))

/-- The delta of k bytes sign-extended to n bytes. -/
def deltaExt (n k x : Nat) : Nat := if x < 2 ^ (8 * k - 1) then x else x + 2 ^ (8 * n) - 2 ^ (8 * k)

/-- The line of a base-delta payload. -/
def bdDecode (n k : Nat) (p : List Nat) : Nat :=
  let w0 := ofBytes (p.take n)
  (List.range (64 / n)).foldl (fun a i =>
    let w := if i = 0 then w0
      else (w0 + deltaExt n k (ofBytes ((p.drop (n + k * (i - 1))).take k))) % 2 ^ (8 * n)
    a + w * 2 ^ (8 * n * i)) 0

/-- The base-delta patterns: header, word bytes, delta bytes, in order of trial (Table 8.1 orders 4 to 10). -/
def bdPatterns : List (Nat × Nat × Nat) :=
  [(0x10, 8, 1), (0x14, 4, 1), (0x11, 8, 2), (0x15, 4, 2), (0x12, 8, 4), (0x16, 4, 3), (0x13, 8, 6)]

/-- The eight frequent values. -/
def Dev.dict (d : Dev) : List Nat := (List.range 8).map (fun k => d.get (fCDC_FVDICT_VALUE k))

/-- The FV pattern's payload, where at least 3 words hit. -/
def fvEncode (dict : List Nat) (v : Nat) : Option (List Nat) :=
  let ws := lineWords 4 v
  let hits := ws.map (fun w => (List.range 8).find? (fun k => dict.getD k 0 == w))
  let h := (hits.filter Option.isSome).length
  if h < 3 then none
  else
    let mask := (hits.mapIdx (fun i x => if x.isSome then 2 ^ i else 0)).sum
    let idx := ((hits.filterMap id).mapIdx (fun j k => k * 2 ^ (3 * j))).sum
    let lits := (ws.zip hits).flatMap (fun p => if p.2.isSome then [] else toBytes 4 p.1)
    some (toBytes 2 mask ++ toBytes ((3 * h + 7) / 8) idx ++ lits)

/-- The line of an FV payload, with the payload bytes that the pattern uses. -/
def fvDecode (dict : List Nat) (p : List Nat) : Nat × Nat :=
  let mask := ofBytes (p.take 2)
  let h := popCount 16 mask
  let il := (3 * h + 7) / 8
  let idx := ofBytes ((p.drop 2).take il)
  let r := (List.range 16).foldl (fun (a : Nat × Nat × Nat) i =>
    if mask.testBit i then (a.1 + dict.getD (idx / 2 ^ (3 * a.2.1) % 8) 0 * 2 ^ (32 * i), a.2.1 + 1, a.2.2)
    else (a.1 + ofBytes ((p.drop (2 + il + 4 * a.2.2)).take 4) * 2 ^ (32 * i), a.2.1, a.2.2 + 1)) (0, 0, 0)
  (r.1, 2 + il + 4 * (16 - h))

/-- R195, R196: the header and payload of the first pattern that fits. -/
def Dev.packLine (d : Dev) (v : Nat) : Option (Nat × List Nat) :=
  let ws4 := lineWords 4 v
  let ws8 := lineWords 8 v
  if v % 2 ^ 512 = 0 then some (0x00, [])
  else if ws4.all (· == ws4.headD 0) then some (0x01, toBytes 4 (ws4.headD 0))
  else if ws8.all (· == ws8.headD 0) then some (0x02, toBytes 8 (ws8.headD 0))
  else
    match bdPatterns.findSome? (fun p => (bdEncode p.2.1 p.2.2 v).map (fun l => (p.1, l))) with
    | some r => some r
    | none => (fvEncode d.dict v).map (fun l => (0x20, l))

/-- The line of a header and its 56 payload bytes; none where R198's error applies. -/
def Dev.unpackLine (d : Dev) (hdr : Nat) (p : List Nat) : Option Nat :=
  let fin := fun (r : Nat × Nat) => if (p.drop r.2).all (· == 0) then some r.1 else none
  let rep := fun (n : Nat) => fin ((List.range (64 / n)).foldl (fun a i => a + ofBytes (p.take n) * 2 ^ (8 * n * i)) 0, n)
  if hdr = 0x00 then fin (0, 0)
  else if hdr = 0x01 then rep 4
  else if hdr = 0x02 then rep 8
  else if hdr = 0x20 then fin (fvDecode d.dict p)
  else
    match bdPatterns.find? (fun q => q.1 == hdr) with
    | some q => fin (bdDecode q.2.1 q.2.2 p, q.2.1 + q.2.2 * (64 / q.2.1 - 1))
    | none => none

end Sys2Proof.Machine
end

