-- ==== Sys2Proof/Machine/Media.lean ====
section
/-! DEFINITION. Stored lines as the channels see them (05_dram_scheduling.md R115, R116; 06_memory_protection.md): slots in and out of
service, marked banks, the subchannel queues, reading and storing a codeword, and the counting and recording of corrected and
uncorrectable lines. -/

namespace Sys2Proof.Machine

/-! ### Slots and marked banks -/

/-- Slot s is out of service (R269). -/
def Dev.slotOut (d : Dev) (s : Nat) : Bool := d.mch.out.contains s

/-- A slot leaves or enters service; PAIR_MIR_OUT shows it. -/
def Dev.setOut (d : Dev) (s : Nat) (b : Bool) : Dev :=
  let l := d.mch.out.filter (· != s)
  { d with mch := { d.mch with out := if b then l ++ [s] else l } }.setBit fPAIR_MIR_OUT_SLOTS s b

/-- The slot that holds MPA line l. -/
def Dev.lineSlot (d : Dev) (l : Nat) : Nat := (d.locOf (64 * l)).slot

/-- The MPA line that stands at line l: of the frame that is redirected there, else l. -/
def Dev.unredirect (d : Dev) (l : Nat) : Nat :=
  match d.mch.redirect.find? (fun e => e.2 == l / 64) with
  | some e => e.1 * 64 + l % 64
  | none => l

/-- R270: a granule of a slot under rebuild that is not rebuilt yet. -/
def Dev.unrebuilt (d : Dev) (l : Nat) : Bool :=
  !d.mir.rebuild.isEmpty &&
  d.mir.rebuild.any (fun r => r.1 == d.lineSlot l &&
    decide (d.winMbase r.2.1 / 64 + 4 * r.2.2 ≤ d.unredirect l) && decide (d.unredirect l < (d.winMbase r.2.1 + d.winSize r.2.1) / 64))

/-- MPA line l lies on an out slot, or is handled as though it did. -/
def Dev.lineOut (d : Dev) (l : Nat) : Bool := (!d.mch.out.isEmpty && d.slotOut (d.lineSlot l)) || d.unrebuilt l

/-- BANK_RETIRE entry k of channel n covers a location (R151). -/
def Dev.bretCovers (d : Dev) (n k : Nat) (x : Loc) : Bool :=
  d.flag (fMCH_BRET_VALID n k) && d.get (fMCH_BRET_RANK n k) == x.chRank && d.get (fMCH_BRET_SUB n k) == x.sub &&
  (d.flag (fMCH_BRET_ALL n k) || (d.get (fMCH_BRET_BG n k) == x.bg && d.get (fMCH_BRET_BANK n k) == x.bank))

/-- The marked device of a location's bank, if any. -/
def Dev.bankMark (d : Dev) (x : Loc) : Option Nat :=
  ((List.range 8).find? (fun k => d.bretCovers x.chan k x)).map (fun k => d.get (fMCH_BRET_DEVICE x.chan k))

/-! ### Subchannel queues (R115, R116, R118) -/

/-- Subchannel number of a channel and subchannel. -/
def subKey (ch sub : Nat) : Nat := ch * 2 + sub

def Dev.subOf (d : Dev) (k : Nat) : SubS := (tfind d.mch.sub k).getD SubS.empty
def Dev.updSub (d : Dev) (k : Nat) (f : SubS → SubS) : Dev := { d with mch := { d.mch with sub := tins d.mch.sub k (f (d.subOf k)) } }

/-- R118 marks as they act: HWM 0 or above 96 is 96; LWM at or above HWM is HWM - 1. -/
def Dev.hwm (d : Dev) (ch : Nat) : Nat := let v := d.get (fMCH_SCHED_HWM ch); if v = 0 ∨ 96 < v then 96 else v
def Dev.lwm (d : Dev) (ch : Nat) : Nat := let v := d.get (fMCH_SCHED_LWM ch); if d.hwm ch ≤ v then d.hwm ch - 1 else v

/-- Metadata kind (Table 5.3). -/
def DReq.isMeta (r : DReq) : Bool := r.source != 0 && r.source != 5

/-- The bank-group and bank pair of a location, 0 to 31. -/
def Loc.pair (x : Loc) : Nat := x.bg * 4 + x.bank
def Dev.pairOf (d : Dev) (r : DReq) : Nat := (d.locOf (64 * r.mpa)).pair

/-- R116: the metadata requests that stand in their queues, after those of the first list: the first four of each pair. -/
def Dev.stand (d : Dev) : List DReq → List DReq → List DReq
  | kept, [] => kept
  | kept, r :: t => d.stand (if (kept.filter (fun o => d.pairOf o == d.pairOf r)).length < 4 then kept ++ [r] else kept) t

/-- R126: the scrubber's conditional write of a line is stale: the line has been written since. -/
def DReq.outdated (r : DReq) : DReq :=
  match r.purp with
  | .corrective _ _ _ _ => { r with stale := true }
  | .scrub _ _ => { r with stale := true }
  | _ => r

/-- R126: a write w that enters its queue makes the scrubber's conditional write of the line stale. -/
def staleBy (w r : DReq) : DReq := if r.mpa = w.mpa ∧ r.id ≠ w.id then r.outdated else r

/-- R126: MPA lines are written by a fill: the scrubber's writes of them are stale. -/
def Dev.filled (d : Dev) (mine : Nat → Bool) : Dev :=
  let f := fun (r : DReq) => if mine r.mpa then r.outdated else r
  { d with mch := { d.mch with sub := d.mch.sub.map (fun e => (e.1, { e.2 with rq := e.2.rq.map f, wq := e.2.wq.map f, mq := e.2.mq.map f, issued := e.2.issued.map f })) } }

/-- The requests that find room enter their queues; writes among them act on the scrubber's (R126). -/
def Dev.enterQ (d : Dev) (k : Nat) : Dev :=
  let s := d.subOf k
  let new := (s.wq.take 96 ++ d.stand [] s.mq).filter (fun r => r.wr.isSome && !r.entered)
  if new.isEmpty then d
  else
    let mark := fun (r : DReq) => new.foldl (fun r w => staleBy w r) (if new.any (fun w => w.id == r.id) then { r with entered := true } else r)
    d.updSub k (fun s => { s with wq := s.wq.map mark, mq := s.mq.map mark, issued := s.issued.map mark })

/-- The queues of a subchannel take what they have room for; its occupancies and its drain state follow (R116, R118). -/
def Dev.subStats (d : Dev) (ch sub : Nat) : Dev :=
  let d := d.enterQ (subKey ch sub)
  let s := d.subOf (subKey ch sub)
  let w := min s.wq.length 96
  let d := ((d.set (fMCH_Q_RDQ ch sub) (min s.rq.length 64)).set (fMCH_Q_WRQ ch sub) w).set (fMCH_Q_META ch sub) (d.stand [] s.mq).length
  if d.hwm ch ≤ w then d.setBit (fMCH_STS_DRAIN ch) sub true
  else if w ≤ d.lwm ch then d.setBit (fMCH_STS_DRAIN ch) sub false else d

/-- A request joins the queue of its kind. -/
def SubS.join (s : SubS) (r : DReq) : SubS :=
  if r.isMeta then { s with mq := s.mq ++ [r] } else if r.wr.isSome then { s with wq := s.wq ++ [r] } else { s with rq := s.rq ++ [r] }

/-- R125: the codeword of the newest queued write of a source to a line. -/
def SubS.written (s : SubS) (source l : Nat) : Option Codeword :=
  ((s.wq ++ s.mq).reverse.find? (fun o => o.source == source && o.mpa == l && o.wr.isSome)).bind DReq.wr

/-- A request for MPA line l joins its subchannel: source row of Table 5.3, purpose, class, port whose age it takes. A read that a queued
write of its source matches is served from that entry, and does not reach DRAM (R125). -/
def Dev.pushDram (d : Dev) (l : Nat) (wr : Option Codeword) (source : Nat) (purp : DPurp) (cls : Nat) (conf : Bool)
    (port : Option Nat) : Dev :=
  let x := d.locOf (64 * l)
  let k := subKey x.chan x.sub
  let r : DReq := { id := d.mch.nextId, mpa := l, wr := wr, source := source, purp := purp, cls := cls, conf := conf, port := port }
  let d := (d.crossed (src 35 (8 + x.chan / 3))).2
  let d := { d with mch := { d.mch with nextId := d.mch.nextId + 1 } }
  match (if wr.isSome then none else (d.subOf k).written source l) with
  | some c => if purp = .access then d else d.updSub k (fun s => { s with issued := s.issued ++ [{ r with served := some c }] })
  | none => (d.updSub k (fun s => s.join r)).subStats x.chan x.sub

/-! ### Counting corrections (R146, R147) -/

/-- The bank counter index of a location. -/
def Loc.bankIdx (x : Loc) : Nat := x.chRank * 64 + x.sub * 32 + x.bg * 4 + x.bank

/-- Row-tracker entry k of channel n holds the row. -/
def Dev.rowIs (d : Dev) (n k : Nat) (x : Loc) : Bool :=
  d.flag (fMCH_ROW_VALID n k) && d.get (fMCH_ROW_ROW n k) == x.row && d.get (fMCH_ROW_SUB n k) == x.sub &&
  d.get (fMCH_ROW_RANK n k) == x.chRank && d.get (fMCH_ROW_BG n k) == x.bg && d.get (fMCH_ROW_BANK n k) == x.bank

/-- The tracker entry for a row: its own, else a free one, else the one with the lowest COUNT, ties to the lowest k. -/
def Dev.rowSlot (d : Dev) (x : Loc) : Nat × Bool :=
  let n := x.chan
  match (List.range 64).find? (fun k => d.rowIs n k x) with
  | some k => (k, true)
  | none =>
    match (List.range 64).find? (fun k => !d.flag (fMCH_ROW_VALID n k)) with
    | some k => (k, false)
    | none =>
      ((List.range 64).foldl (fun b k => if d.get (fMCH_ROW_COUNT n k) < d.get (fMCH_ROW_COUNT n b) then k else b) 0, false)

/-- R146: the row tracker counts a correction, which touched the devices of a list; the last of them stands in DEVICE (DESIGN CHOICE, log
entry 85). -/
def Dev.rowCount (d : Dev) (x : Loc) (devs : List Nat) : Dev :=
  let n := x.chan
  let r := d.rowSlot x
  let k := r.1
  let several := fun (d : Dev) (b : Bool) => if b then d.setFlag (fMCH_ROW_MULTIDEV n k) true else d
  let d := if r.2 then
      let d := several d (devs.any (· != d.get (fMCH_ROW_DEVICE n k)))
      d.bumpSat (fMCH_ROW_COUNT n k) 1
    else
      several ((((((((d.wr (rMCH_ROW n k) 0).set (fMCH_ROW_ROW n k) x.row).set (fMCH_ROW_SUB n k) x.sub).set (fMCH_ROW_RANK n k) x.chRank).set
        (fMCH_ROW_BG n k) x.bg).set (fMCH_ROW_BANK n k) x.bank).setFlag (fMCH_ROW_VALID n k) true).set (fMCH_ROW_COUNT n k) 1) (decide (1 < devs.length))
  let d := d.set (fMCH_ROW_DEVICE n k) (devs.getLastD 0)
  let t := d.get fMCH_ECC_THR_ROW
  if t != 0 && d.get (fMCH_ROW_COUNT n k) == t then
    (d.setFlag (fMCH_ECC_STS_ROWEVT n) true).raise { src := srcMch n 2, sev := 1, obj := n, addr := x.row }
  else d

/-- R146: the bank counter counts. -/
def Dev.bankCount (d : Dev) (x : Loc) : Dev :=
  let n := x.chan
  let d := d.bumpSat (fMCH_BCNT_COUNT n x.bankIdx) 1
  let t := d.get fMCH_ECC_THR_BANK
  if t != 0 && d.get (fMCH_BCNT_COUNT n x.bankIdx) == t then
    (d.setFlag (fMCH_ECC_STS_BANKEVT n) true).raise { src := srcMch n 3, sev := 1, obj := n }
  else d

/-- The key of a rank: channel * 8 + rank of the channel. -/
def rankKey (ch r : Nat) : Nat := ch * 8 + r

/-- A rank's state. -/
def Dev.rankOf (d : Dev) (k : Nat) : RankS := (tfind d.mch.rank k).getD RankS.empty

/-- A rank's state becomes f of it. -/
def Dev.updRank (d : Dev) (k : Nat) (f : RankS → RankS) : Dev :=
  { d with mch := { d.mch with rank := tins d.mch.rank k (f (d.rankOf k)) } }

/-- R131: a rank retrain starts, at a temperature if it is known: the rank is blocked, MCHn_STS.RETRAIN shows it, and drift counts from
this training. -/
def Dev.retrainAt (d : Dev) (ch r : Nat) (t : Option Int) : Dev :=
  ((d.updRank (rankKey ch r) (fun x => { x with retrain := true, trainTemp := t })).setBit (fMCH_STS_RETRAIN ch) r true).emit (.ddr 7 ch 0 [r])

/-- R147: LANE, where 1 acts as 2. -/
def Dev.laneThr (d : Dev) : Nat := let t := d.get fMCH_ECC_THR_LANE; if t = 1 then 2 else t

/-- A row of a rank: its row number with its bank. -/
def Loc.rowOfRank (x : Loc) : Nat := x.row + 2 ^ 20 * x.pair

/-- R147: a correction is of the lane of a DQ bit of a device. -/
def LaneHit.onLane (h : LaneHit) (x : Loc) (dev dq : Nat) : Bool :=
  h.rank == rankKey x.chan x.chRank && h.sub == x.sub && h.dev == dev && h.dq == dq

/-- R147: corrections of one rank on one device and DQ bit, in at least two rows, within one second. Whether this one completes a case. It
recurs where the rank's last retrain for a lane case, at last, is less than an hour ago, whichever device and DQ bit that case was of
(DESIGN CHOICE, log entry 107). -/
def Dev.laneCount (d : Dev) (x : Loc) (dev dq : Nat) (last : Option Nat) : Bool × Dev :=
  let rk := rankKey x.chan x.chRank
  let l := (d.mch.lanes.filter (fun h => d.now < h.time + 1000000000)) ++ [⟨rk, x.sub, dev, dq, x.rowOfRank, d.now⟩]
  let same := l.filter (fun h => h.onLane x dev dq)
  let t := d.laneThr
  if t != 0 && t ≤ same.length && same.any (fun h => h.row != x.rowOfRank) then
    let again := match last with
      | some a => decide (d.now < a + 3600000000000)
      | none => false
    let d := { d with mch := { d.mch with lanes := l.filter (fun h => !h.onLane x dev dq) } }.setFlag (fMCH_ECC_STS_LANEEVT x.chan) true
    let d := d.raise { src := srcMch x.chan 4, sev := if again then 3 else 1, obj := x.chan, aux0 := dev * 4 + dq }
    (true, (d.updRank rk (fun r => { r with laneRetrainAt := some d.now })).retrainAt x.chan x.chRank none)
  else (false, { d with mch := { d.mch with lanes := l } })

/-! ### Error records (R148) -/

/-- The four words of Table 6.5. -/
def errorRecord (x : Loc) (kind dev mask source l : Nat) (dpa : Option Nat) (head time : Nat) : List Nat :=
  [kind + x.chan * 2 ^ 3 + x.sub * 2 ^ 8 + x.chRank * 2 ^ 9 + x.bg * 2 ^ 12 + x.bank * 2 ^ 15 + x.row * 2 ^ 17 + x.col * 2 ^ 34 +
     dev * 2 ^ 41 + mask * 2 ^ 45 + source * 2 ^ 53,
   64 * l,
   (match dpa with | some a => a + 2 ^ 46 + (if source = 0 then head * 2 ^ 47 else 0) | none => 0),
   time]

/-- The severity-C record of a corrected line, its counters, and the scrubber's follow-up (R138, R146 to R148). The record of the correction
that completes a lane case of R147 has KIND 2 (DESIGN CHOICE, log entry 83). -/
def Dev.eccCorrected (d : Dev) (l source : Nat) (dpa : Option Nat) (head dev mask : Nat) (devs : List (Nat × Nat)) (marked inj : Bool) : Dev :=
  let x := d.locOf (64 * l)
  let d := ((d.rowCount x (devs.map (·.1))).bankCount x)
  let last := (d.rankOf (rankKey x.chan x.chRank)).laneRetrainAt
  let r := (devs.flatMap (fun e => (bitsOf 4 e.2).map (fun q => (e.1, q)))).foldl
    (fun (r : Bool × Dev) e => let u := r.2.laneCount x e.1 e.2 last; (r.1 || u.1, u.2)) (false, d)
  let d := r.2
  let kind := if marked then 4 else if r.1 then 2 else if popCount 8 mask = 1 then 0 else 1
  let d := d.raise { src := srcMch x.chan 0, sev := 1, obj := x.chan, inj := inj,
                     raw := some (errorRecord x kind dev mask source l dpa head d.now) }
  if source = 6 then d else { d with mch := { d.mch with scrubQ := d.mch.scrubQ ++ [l] } }

/-- R379: a DIMM or channel is declared failed: its slots leave service. -/
def Dev.declareFailed (d : Dev) (ch : Nat) (slots : List Nat) (code : Nat) : Dev :=
  let d := slots.foldl (fun d s => d.setOut s true) d
  d.raise { src := srcMch ch 5, sev := 3, code := code, obj := slots.headD (2 * ch) }

/-- The record of an uncorrectable line, and R379's count of them on a rank. -/
def Dev.eccBad (d : Dev) (l source : Nat) (dpa : Option Nat) (head : Nat) (inj : Bool) : Dev :=
  let x := d.locOf (64 * l)
  let d := d.bumpSat (fMCH_ECC_STS_UE x.chan) 1
  let d := d.raise { src := srcMch x.chan 1, sev := 2, obj := x.chan, inj := inj,
                     raw := some (errorRecord x 3 15 0 source l dpa head d.now) }
  let rk := rankKey x.chan x.chRank
  let u := (d.mch.ues.filter (fun e => d.now < e.2.2 + 100000)) ++ [(rk, x.row, d.now)]
  let d := { d with mch := { d.mch with ues := u } }
  let mine := u.filter (fun e => e.1 == rk)
  if 16 ≤ mine.length && mine.any (fun e => e.2.1 != x.row) && !d.slotOut x.slot then d.declareFailed x.chan [x.slot] 1 else d

/-! ### Reading and storing a codeword -/

/-- What a read of MPA line l finds: uncorrectable on an out slot (Table 17.5), else what the decoder makes of it. -/
def Acc.rdRaw (a : Acc) (l : Nat) : Decoded :=
  if a.dev.lineOut l then .bad else rsDecode (a.line l) (a.dev.bankMark (a.dev.locOf (64 * l)))

/-- Line l holds what an injection wrote there (R383). -/
def Acc.injected (a : Acc) (l : Nat) : Bool := a.dev.mch.inj.any (fun e => e.1 == l && e.2 == a.line l)

/-- A read of metadata or of a line at rest: its corrections and errors are counted and recorded under a source row of
Table 5.3; the data, or the poison reason (1 for an uncorrectable line). -/
def Acc.rdStored (a : Acc) (l source : Nat) (dpa : Option Nat) : Sum Nat Nat × Acc :=
  match a.rdRaw l with
  | .clean v => (.inl v, a)
  | .marker r => (.inr r, a)
  | .corrected v dv ms dq m => (.inl v, a.upd (fun d => d.eccCorrected l source dpa 0 dv ms dq m (a.injected l)))
  | .bad =>
    if a.dev.lineOut l then (.inr poisonMedia, a) else (.inr poisonMedia, a.upd (fun d => d.eccBad l source dpa 0 (a.injected l)))

/-- A codeword is stored at MPA line l; a store to an out slot is dropped. -/
def Acc.wrRaw (a : Acc) (l : Nat) (c : Codeword) : Acc := if a.dev.lineOut l then a else a.store l c

/-- An uncoded metadata line is stored. -/
def Acc.wrData (a : Acc) (l v : Nat) : Acc := a.wrRaw l (rsEncode v)

/-! ### Accesses whose data moves when they are made (R115, log entry 80) -/

/-- The request of such an access joins its subchannel, for the request that the command serves. -/
def Acc.access (a : Acc) (l source : Nat) (wr : Option Codeword) : Acc :=
  if a.dev.lineOut l then a else a.upd (fun d => d.pushDram l wr source .access a.srv.cls a.srv.conf a.srv.port)

/-- A read of metadata, of a cell's line or by an agent. -/
def Acc.rdQueued (a : Acc) (l source : Nat) (dpa : Option Nat) : Sum Nat Nat × Acc := (a.access l source none).rdStored l source dpa

/-- A write of a codeword, and of an uncoded line. -/
def Acc.wrQueued (a : Acc) (l source : Nat) (c : Codeword) : Acc := (a.access l source (some c)).wrRaw l c
def Acc.wrMeta (a : Acc) (l source v : Nat) : Acc := a.wrQueued l source (rsEncode v)

end Sys2Proof.Machine
end

