-- ==== Sys2Proof/Machine/Secure.lean ====
section
/-! DEFINITION. Key ranges, tweaks, tags, the tag table and the counter tree (07_encryption_integrity.md R153 to R192): how
a line becomes a stored line and back. -/

namespace Sys2Proof.Machine

/-! ### Key ranges -/

def Dev.krValid (d : Dev) (n : Nat) : Bool := d.flag (fSEC_KR_CFG_VALID n)
def Dev.krMode (d : Dev) (n : Nat) : Nat := d.get (fSEC_KR_CFG_MODE n)
def Dev.krBase (d : Dev) (n : Nat) : Nat := d.get (fSEC_KR_BASE_BASE n) * unit2M
def Dev.krSize (d : Dev) (n : Nat) : Nat := d.get (fSEC_KR_SIZE_SIZE n) * unit2M
def Dev.krState (d : Dev) (n : Nat) : Nat := d.get (fSEC_KR_STS_STATE n)
def Dev.krExh (d : Dev) (n : Nat) : Bool := d.flag (fSEC_KR_STS_EXH n)
def Dev.krFresh (d : Dev) (n : Nat) : Bool := d.krMode n == 3

/-- The pairs of range n (R154). -/
def krPairs (n : Nat) : List (Nat × Nat) :=
  [(rSEC_KR_CFG n, rSEC_KR_CFG_C n), (rSEC_KR_BASE n, rSEC_KR_BASE_C n), (rSEC_KR_SIZE n, rSEC_KR_SIZE_C n),
   (rSEC_KR_ROOTS n, rSEC_KR_ROOTS_C n)]

/-- DPA byte a lies in range n. -/
def Dev.krHas (d : Dev) (n a : Nat) : Bool := d.krBase n ≤ a && a < d.krBase n + d.krSize n

/-- A range with a usable key: ACTIVE or ROTATING (Table 7.3); none is usable in the security halt (R189), and none while the keys are in
the crock (R191). -/
def Dev.krUsable (d : Dev) (n : Nat) : Bool := !d.halted && !d.sec.away && (d.krState n == 3 || d.krState n == 4)

/-- R182: DPA byte a lies below the rotation cursor, so the NEXT key governs it. -/
def Dev.rotated (d : Dev) (n a : Nat) : Bool := d.krState n == 4 && a < d.get (fSEC_KR_ROTCUR_CURSOR n)

/-- The loaded key of slot s of range n, as 32 bytes. -/
def Dev.keyBytes (d : Dev) (n s : Nat) : List Nat := toBytes 32 (tget (fun _ => 0) d.sec.keys (2 * n + s))

/-- The key slot that governs the page of DPA byte a: 1 NEXT, 0 CURRENT (R182). -/
def Dev.slotFor (d : Dev) (n a : Nat) : Nat := (d.rotated n (a / 4096 * 4096)).toNat

/-- R160: the keys of slot s of range n: K_DATA, K_TWK, K_TAG. -/
def Dev.kData (d : Dev) (n s : Nat) : List Nat := kdf (d.keyBytes n s) "PLB-DATA" n
def Dev.kTwk (d : Dev) (n s : Nat) : List Nat := kdf (d.keyBytes n s) "PLB-TWK" n
def Dev.kTag (d : Dev) (n s : Nat) : List Nat := kdf (d.keyBytes n s) "PLB-TAG" n

/-- R161: the key check value of a key. -/
def kcvOf (key : List Nat) : Nat := leftBytes 3 (cmac key (ascii "PLB-KCV"))

/-! ### The security halt latches (R188, R189 steps 1, 2 and 5) -/

/-- R161: no key is loaded any more; the check value stays after a key loss alone. -/
def Dev.noKeys (d : Dev) : Dev :=
  (List.range 16).foldl (fun d n =>
    (if d.flag (fSEC_KR_STS_KLOST n) then d else d.set (fSEC_KR_KCV_KCV n) 0).setFlag (fSEC_KR_STS_NEXT_LOADED n) false) d

/-- An integrity check fails: cause, range, source and address latch, and keys, roots, caches and buffers are zeroized.
The remaining steps of Table 7.12 follow in the same command (settle). -/
def Dev.haltNow (d : Dev) (cause kr source addr : Nat) (isMpa : Bool) : Dev :=
  if d.halted then d
  else
    let d := ((((d.setFlag fSEC_HALT_STS_HALTED true).set fSEC_HALT_STS_CAUSE cause).set fSEC_HALT_STS_KR kr).set
      fSEC_HALT_STS_SOURCE source)
    let d := ((d.set fSEC_HALT_ADDR_ADDR addr).setFlag fSEC_HALT_ADDR_IS_MPA isMpa).noKeys
    { d with
      sec := { d.sec with keys := [], roots := [], nodes := [], mlines := d.sec.mlines.filter (fun e => e.2.kind == 1), spillKey := 0,
                          crockKeys := [], ovf := [], haltPend := some (cause, kr, source, addr, isMpa) }
      tier := { d.tier with hlc := [], reQ := [], decoding := [] }
      home := { d.home with lbuf := [] }
      port := d.port.map (fun e => (e.1, { e.2 with ide := [] })) }

/-! ### SRAM errors (R458, checker 2) -/

/-- Bits in error at a read of SRAM entry e of source s: an armed injection is consumed. -/
def Dev.sramBits (d : Dev) (s e : Nat) : Nat × Dev :=
  match takeFirst (fun i => i.checker == 2 && i.target == s + e * 65536) d.flt.inj with
  | some (i, r) => (i.count, { d with flt := { d.flt with inj := r } })
  | none => (0, d)

/-- A single-bit SRAM error is corrected and recorded. -/
def Dev.sramFixed (d : Dev) (s e : Nat) : Dev := d.raise { src := s, sev := 1, obj := e, inj := true }

/-! ### Exhaustion and high-water marks -/

/-- R179: a counter of range n has reached its threshold. -/
def Dev.exhaust (d : Dev) (n : Nat) : Dev :=
  if d.krExh n then d
  else (d.setFlag (fSEC_KR_STS_EXH n) true).raise { src := src 24 4, sev := 3, obj := n }

def majorMax : Nat := 2 ^ 64 - 2 ^ 16
def ctrMax : Nat := 2 ^ 56 - 2 ^ 16

/-- R175, R181: high-water marks of MAJOR and of upper counters; those of the new key of a rotation are recorded beside them. -/
def Dev.highWater (d : Dev) (n : Nat) (new : Bool) (m c : Nat) : Dev :=
  let h := tget (fun _ => (0, 0)) d.sec.newHw n
  let d := if new then { d with sec := { d.sec with newHw := tins d.sec.newHw n (max h.1 m, max h.2 c) } } else d
  let d := if d.get (fSEC_KR_MHW_MHW n) < m then d.set (fSEC_KR_MHW_MHW n) m else d
  if d.get (fSEC_KR_CHW_CHW n) < c then d.set (fSEC_KR_CHW_CHW n) c else d

/-! ### The shape of a tree (R169) -/

/-- The node count of the level above one with x nodes. -/
def upCount (x : Nat) : Nat := (x + 7) / 8

/-- The node count of level k of a tree with n0 leaves. -/
def levelCount (n0 : Nat) : Nat → Nat
  | 0 => n0
  | k + 1 => upCount (levelCount n0 k)

/-- Nodes below level k. -/
def levelStart (n0 k : Nat) : Nat := ((List.range k).map (levelCount n0)).sum

/-- R169: the depth of a tree with n0 leaves and 2^r roots. -/
def treeDepth (n0 r : Nat) : Nat := ((List.range 13).find? (fun k => levelCount n0 k ≤ 2 ^ r)).getD 12

/-- The leaves of range n. -/
def Dev.leaves (d : Dev) (n : Nat) : Nat := d.krSize n / 2048

/-- All nodes of a tree. -/
def treeNodes (n0 r : Nat) : Nat := levelStart n0 (treeDepth n0 r + 1)

/-- The tree depth of range n. -/
def Dev.depth (d : Dev) (n : Nat) : Nat := d.get (fSEC_KR_STS_DEPTH n)

/-- The MPA line of node i of level k. -/
def Dev.nodeLine (d : Dev) (n k i : Nat) : Nat :=
  d.redirect (d.get (fSEC_KR_TREEBASE_MPA n) + (levelStart (d.leaves n) k + i) * 64) / 64

/-- The leaf of a DPA line, and its minor's index. -/
def Dev.leafOf (d : Dev) (n dl : Nat) : Nat := (dl * 64 - d.krBase n) / 2048
def minorIdx (dl : Nat) : Nat := dl % 32

/-- The DPA end of what node i of level k covers. -/
def Dev.coverEnd (d : Dev) (n k i : Nat) : Nat := min (d.krBase n + (i + 1) * 8 ^ k * 2048) (d.krBase n + d.krSize n)

/-- R182: ROTCUR has passed the whole of the node's coverage. -/
def Dev.nodePassed (d : Dev) (n k i : Nat) : Bool :=
  d.krState n == 4 && d.coverEnd n k i ≤ d.get (fSEC_KR_ROTCUR_CURSOR n)

/-- R182: the GEN expected of a node. -/
def Dev.nodeGen (d : Dev) (n k i : Nat) : Nat := (d.get (fSEC_KR_STS_GEN n) + (d.nodePassed n k i).toNat) % 2

/-! ### Fields of nodes (Tables 7.8, 7.9) -/

def leafMajor (v : Nat) : Nat := v % 2 ^ 64
def leafMinor (v m : Nat) : Nat := v / 2 ^ (64 + 12 * m) % 4096
def nodeMac (v : Nat) : Nat := v / 2 ^ 448 % 2 ^ 56
def nodeFlags (v : Nat) : Nat := v / 2 ^ 504 % 256
def nodeCtr (v c : Nat) : Nat := v / 2 ^ (56 * c) % 2 ^ 56

def leafQuar (v : Nat) : Bool := (nodeFlags v).testBit 1
def leafCell (v : Nat) : Bool := (nodeFlags v).testBit 0

/-- A leaf of a MAJOR, with every MINOR one value. -/
def leafNode (major minor flags : Nat) : Nat :=
  major % 2 ^ 64 + ((List.range 32).map (fun m => minor * 2 ^ (64 + 12 * m))).sum + flags * 2 ^ 504

/-- An upper node whose counters of its children, kids of them, are all c (R171: the others stay 0). -/
def upperNode (kids c flags : Nat) : Nat := ((List.range kids).map (fun j => c * 2 ^ (56 * j))).sum + flags * 2 ^ 504

/-- R172: the MAC of a node. -/
def macOf (kTree : List Nat) (parent i k n v : Nat) : Nat :=
  leftBytes 7 (cmac kTree (toBytes 8 parent ++ toBytes 5 i ++ [k, n, 0x4E] ++ toBytes 56 v ++ [nodeFlags v]))

/-- A node with its MAC set. -/
def withMac (v m : Nat) : Nat := wordPut v 448 56 m

/-- R172: FLAGS that break Table 7.8 or 7.9. -/
def flagsOk (k v : Nat) : Bool := if k = 0 then nodeFlags v < 8 else nodeFlags v == 0 || nodeFlags v == 4

/-- The K_TREE that MACs a node (R181 step 3, R182). -/
def Dev.treeKey (d : Dev) (n k i : Nat) : List Nat := kdf (d.keyBytes n (d.nodePassed n k i).toNat) "PLB-TREE" n

/-! ### Quarantine (R185) -/

/-- The quarantined subtree that covers node i of level k, if any. -/
def Dev.inQuar (d : Dev) (n k i : Nat) : Bool :=
  d.sec.quar.any (fun q => q.n == n && k ≤ q.level && i / 8 ^ (q.level - k) == q.idx)

/-- The leaves that node i of level k covers. -/
def Dev.leavesUnder (d : Dev) (n k i : Nat) : Nat := min ((i + 1) * 8 ^ k) (d.leaves n) - i * 8 ^ k

/-- R185: a leaf becomes QUAR, or is QUAR no more; SEC_KRn_EVT.QUAR counts those that are. -/
def Dev.quarLeaf (d : Dev) (n j : Nat) (on : Bool) : Dev :=
  let had := d.sec.qleaf.contains (n, j)
  if on then if had then d else { d with sec := { d.sec with qleaf := d.sec.qleaf ++ [(n, j)] } }.bumpSat (fSEC_KR_EVT_QUAR n) 1
  else if had then { d with sec := { d.sec with qleaf := d.sec.qleaf.filter (· != (n, j)) } }.drop (fSEC_KR_EVT_QUAR n) 1 else d

/-- R185: a node is lost and its subtree quarantined; the rebuild of R186 starts. Leaves under it that count as quarantined already, of an
earlier rebuild or of one that runs, are not counted again. -/
def Dev.quarantine (d : Dev) (n k i : Nat) (inj : Bool) : Dev :=
  if d.inQuar n k i then d
  else
    let under := fun (m l x : Nat) => m == n && l ≤ k && x / 8 ^ (k - l) == i
    let q : Quar := { n := n, level := k, idx := i, curLevel := k, curIdx := i }
    let inner := d.sec.quar.filter (fun (p : Quar) => under p.n p.level p.idx)
    let left := d.sec.qleaf.filter (fun x => under x.1 0 x.2 && !inner.any (fun (p : Quar) => x.2 / 8 ^ p.level == p.idx))
    let known := (inner.map (fun p => d.leavesUnder n p.level p.idx)).sum + left.length
    let d := { d with sec := { d.sec with quar := d.sec.quar.filter (fun (p : Quar) => !under p.n p.level p.idx) ++ [q],
                                          qleaf := d.sec.qleaf.filter (fun x => !under x.1 0 x.2),
                                          nodes := d.sec.nodes.filter (fun e => !under e.2.n e.2.level e.2.idx) } }
    let d := d.bumpSat (fSEC_KR_EVT_QUAR n) (d.leavesUnder n k i - known)
    d.raise { src := src 24 6, sev := 2, obj := n, addr := 64 * d.nodeLine n k i, akind := 2, inj := inj }

/-! ### The counter cache (R174, R175) -/

/-- What a node's fetch gives: its data, a lost node, or a security halt. -/
inductive NRes where
  | ok (v : Nat)
  | lost
  | halt
deriving DecidableEq, Repr

/-- Root counter of node i of the top level. -/
def Dev.rootIdx (d : Dev) (n i : Nat) : Nat := d.get (fSEC_KR_ROOTS_ROOT_BASE n) + i
def Dev.rootCtr (d : Dev) (n i : Nat) : Nat := tget (fun _ => 0) d.sec.roots (d.rootIdx n i)
def Dev.setRoot (d : Dev) (n i v : Nat) : Dev := { d with sec := { d.sec with roots := tset (fun _ => 0) d.sec.roots (d.rootIdx n i) v } }

/-- A node enters the counter cache, or its cached data changes. -/
def Dev.putNode (d : Dev) (n k i v : Nat) (dirty : Bool) : Dev :=
  { d with sec := { d.sec with nodes := tins d.sec.nodes (d.nodeLine n k i) ⟨n, k, i, v, dirty⟩ } }

/-- The channel whose crypto pipe serves an MPA line. -/
def lineChan (l : Nat) : Nat := chanOf (64 * l)

/-- The place of a listed line in a cache (log entry 14). -/
def placeOf {α : Type} (t : Tbl α) (l : Nat) : Nat := (t.filter (fun e => e.1 < l)).length

/-- R173, R458: the root counter over node i of the top level, through its SEC-DED; none where it is uncorrectable, which loses the node. -/
def Acc.rootRead (a : Acc) (n k i : Nat) : Option Nat × Acc :=
  let e := a.dev.rootIdx n i
  let r := a.dev.sramBits (src 24 1) e
  if r.1 = 0 then (some (a.dev.rootCtr n i), a)
  else if r.1 = 1 then (some (r.2.rootCtr n i), { a with dev := r.2.sramFixed (src 24 1) e })
  else (none, { a with dev := (r.2.raise { src := src 24 1, sev := 2, obj := n, inj := true }).quarantine n k i true })

/-- R174, R187: node i of level k as the cache holds it; none on a miss. A clean entry that cannot be corrected is dropped, a dirty one
is a lost node. -/
def Acc.nodeHeld (a : Acc) (n k i : Nat) : Option NRes × Acc :=
  let l := a.dev.nodeLine n k i
  if a.dev.inQuar n k i then (some .lost, a) else
  match tfind a.dev.sec.nodes l with
  | some c =>
    let s := src (18 + l % 6) 1
    let e := 65536 + placeOf a.dev.sec.nodes l
    let r := a.dev.sramBits s e
    if r.1 = 0 then (some (.ok c.data), a)
    else if r.1 = 1 then (some (.ok c.data), { a with dev := r.2.sramFixed s e })
    else
      let d := { r.2 with sec := { r.2.sec with nodes := tdel r.2.sec.nodes l } }
      if c.dirty then (some .lost, { a with dev := d.quarantine n k i true })
      else (none, { a with dev := d.raise { src := s, sev := 1, obj := e, inj := true } })
  | none => (none, a)

/-- R174: node i of level k is read and verified under the counter of its parent. R172 names no halt cause for FLAGS that break its tables:
NODE_MAC is latched (DESIGN CHOICE, log entry 108). -/
def Acc.nodeRead (a : Acc) (n k i pc : Nat) : NRes × Acc :=
  let l := a.dev.nodeLine n k i
  match a.rdQueued l 3 none with
  | (.inr _, a) => (.lost, a.upd (fun d => d.quarantine n k i false))
  | (.inl v, a) =>
    if !flagsOk k v || nodeMac v != macOf (a.dev.treeKey n k i) pc i k n v then
      (.halt, a.upd (fun d => d.haltNow 3 n 5 (64 * l) true))
    else if (nodeFlags v).testBit 2 != (a.dev.nodeGen n k i == 1) then
      (.halt, a.upd (fun d => d.haltNow 4 n 5 (64 * l) true))
    else (.ok v, a.upd (fun d => d.putNode n k i v false))

/-- R174: node i of level k, verified under its parent on a miss. The first argument bounds the walk. -/
def Acc.node (n : Nat) : Nat → Nat → Nat → Acc → NRes × Acc
  | 0, _, _, a => (.lost, a)
  | f + 1, k, i, a =>
    match a.nodeHeld n k i with
    | (some r, a) => (r, a)
    | (none, a) =>
      let ch := lineChan (a.dev.nodeLine n k i)
      let a := a.upd (fun d => (d.pmuSec ch 0x44).pmuSec ch 0x45)
      if a.dev.depth n ≤ k then
        match a.rootRead n k i with
        | (some pc, a) => a.nodeRead n k i pc
        | (none, a) => (.lost, a)
      else
        match Acc.node n f (k + 1) (i / 8) a with
        | (.ok v, a) => a.nodeRead n k i (nodeCtr v (i % 8))
        | r => r

/-- A node's walk from any level. -/
def Acc.walk (a : Acc) (n k i : Nat) : NRes × Acc := Acc.node n 14 k i a

/-- A root counter, or a counter of an upper node, reaches its threshold (R179). -/
def Dev.ctrUsed (d : Dev) (n v : Nat) : Dev := if ctrMax ≤ v then d.exhaust n else d

/-- The counter over node i of level k takes value f of it: in the cached parent, or in the root store. -/
def Acc.parentCtr (a : Acc) (n k i : Nat) (f : Nat → Nat) : Option Nat × Acc :=
  if a.dev.depth n ≤ k then
    match a.rootRead n k i with
    | (some c, a) => (some (f c), a.upd (fun d => ((d.setRoot n i (f c)).highWater n (d.nodePassed n k i) 0 (f c)).ctrUsed n (f c)))
    | (none, a) => (none, a)
  else
    match a.walk n (k + 1) (i / 8) with
    | (.ok p, a) =>
      let v := f (nodeCtr p (i % 8))
      (some v, a.upd (fun d => (d.putNode n (k + 1) (i / 8) (wordPut p (56 * (i % 8)) 56 v) true).ctrUsed n v))
    | (_, a) => (none, a)

/-- A node is MACed under its parent counter and written. -/
def Acc.writeNode (a : Acc) (n k i v pc : Nat) : Acc :=
  let v := withMac v (macOf (a.dev.treeKey n k i) pc i k n v)
  let a := a.wrMeta (a.dev.nodeLine n k i) 3 v
  let hw := if k = 0 then (leafMajor v, 0) else (0, ((List.range 8).map (nodeCtr v)).foldl max 0)
  a.upd (fun d => (d.highWater n (d.nodePassed n k i) hw.1 hw.2).putNode n k i v false)

/-- R175: a dirty node is written back: its parent counter rises, and it is MACed and written. -/
def Acc.writeBack (a : Acc) (l : Nat) : Acc :=
  match tfind a.dev.sec.nodes l with
  | some c =>
    if c.dirty && a.dev.krUsable c.n then
      match a.parentCtr c.n c.level c.idx (· + 1) with
      | (some pc, a) => a.writeNode c.n c.level c.idx c.data pc
      | (none, a) => a
    else a
  | none => a

/-- Node line l leaves the cache; a dirty node of a range without a usable key stays (R187). -/
def Acc.evictNode (a : Acc) (l : Nat) : Acc :=
  let a := a.writeBack l
  match tfind a.dev.sec.nodes l with
  | some c => if c.dirty then a else a.upd (fun d => { d with sec := { d.sec with nodes := tdel d.sec.nodes l } })
  | none => a

/-- Every dirty node is written back, leaves first, so that parents follow their children. -/
def Acc.flushNodes (a : Acc) : Acc :=
  (List.range 13).foldl (fun a k =>
    (tkeys (a.dev.sec.nodes.filter (fun e => e.2.level == k && e.2.dirty))).foldl Acc.writeBack a) a

/-- Capacity of a counter-cache bank in lines: 8 MiB in six banks (R174). -/
def bankLines : Nat := 21845

/-- The line of a bank that leaves next: its lowest clean one, else its lowest; R174 does not say how an MPA selects the bank, which is its
line modulo 6 (DESIGN CHOICE, log entry 14). -/
def Dev.nodeVictim (d : Dev) (b : Nat) : Option Nat :=
  let l := d.sec.nodes.filter (fun e => e.1 % 6 == b)
  ((l.find? (fun e => !e.2.dirty)).or l.head?).map (·.1)

/-- While a bank holds more than its capacity, a line of it is evicted; at most n evictions. -/
def Acc.trimNodes : Nat → Acc → Acc
  | 0, a => a
  | n + 1, a =>
    match (List.range 6).find? (fun b => bankLines < (a.dev.sec.nodes.filter (fun e => e.1 % 6 == b)).length) with
    | none => a
    | some b =>
      match a.dev.nodeVictim b with
      | some l => Acc.trimNodes n (a.evictNode l)
      | none => a

/-- R174: a node of any level, in a cache that keeps its capacity. -/
def Acc.fetch (a : Acc) (n k i : Nat) : NRes × Acc :=
  let r := a.walk n k i
  (r.1, r.2.trimNodes 16)

/-! ### The tag table (R166 to R168, R184) -/

/-- The MPA line of the tag entry of DPA line dl, and the entry's place in it. -/
def Dev.tagLoc (d : Dev) (n dl : Nat) : Nat × Nat :=
  let x := d.get (fSEC_KR_TAGBASE_MPA n) + (dl - d.krBase n / 64) * 8
  (d.redirect (x / 64 * 64) / 64, x / 8 % 8)

/-- R184: the entries of a lost tag-table line. -/
def lostTags : Nat := ((List.range 8).map (fun j => 0x7F * 2 ^ (64 * j + 56))).sum

/-- A metadata line enters its cache, or changes there. -/
def Dev.putMeta (d : Dev) (kind l v : Nat) (dirty : Bool) : Dev :=
  { d with sec := { d.sec with mlines := tins d.sec.mlines l ⟨kind, v, dirty⟩ } }

/-- The cache of a kind keeps its capacity: 65,536 lines of tags; of the page map 8,192 sets of 8 lines (R204), a set by the low bits of
the line (DESIGN CHOICE, log entry 14). A line but the one kept leaves its set, written if dirty. -/
def metaSet (kind l : Nat) : Nat := if kind = 0 then 0 else l % 8192
def metaWays (kind : Nat) : Nat := if kind = 0 then 65536 else 8
def Acc.trimMeta (a : Acc) (kind keep : Nat) : Acc :=
  let l := a.dev.sec.mlines.filter (fun e => e.2.kind == kind && metaSet kind e.1 == metaSet kind keep)
  if l.length ≤ metaWays kind then a
  else
    match l.find? (fun e => e.1 != keep) with
    | some e =>
      let a := if e.2.dirty then a.wrMeta e.1 (3 + kind) e.2.data else a
      a.upd (fun d => { d with sec := { d.sec with mlines := tdel d.sec.mlines e.1 } })
    | none => a

/-- A metadata line that was not in its cache enters it. -/
def Acc.fillMeta (a : Acc) (kind l v : Nat) : Acc := (a.upd (fun d => d.putMeta kind l v false)).trimMeta kind l

/-- R184: a tag-table line is lost. -/
def Acc.tagLost (a : Acc) (l : Nat) (inj : Bool) : Acc :=
  ((a.wrMeta l 3 lostTags).fillMeta 0 l lostTags).upd (fun d =>
    d.raise { src := src 24 5, sev := 2, addr := 64 * l, akind := 2, inj := inj })

/-- R187: the line of a cache of metadata lines that serves a read: its data; lost, where a dirty one cannot be corrected; or none, of a
clean one too, which leaves the cache. -/
def Acc.metaHeld (a : Acc) (s e l sevLost : Nat) : Option (Option Nat) × Acc :=
  match tfind a.dev.sec.mlines l with
  | some m =>
    let r := a.dev.sramBits s e
    if r.1 = 0 then (some (some m.data), a)
    else if r.1 = 1 then (some (some m.data), { a with dev := r.2.sramFixed s e })
    else
      let d := { r.2 with sec := { r.2.sec with mlines := tdel r.2.sec.mlines l } }
      if m.dirty then (some none, { a with dev := if sevLost = 0 then d else d.raise { src := s, sev := sevLost, obj := e, inj := true } })
      else (none, { a with dev := d.raise { src := s, sev := max 1 sevLost, obj := e, inj := true } })
  | none => (none, a)

/-- A line of the tag table through the tag cache. -/
def Acc.tagLine (a : Acc) (l : Nat) : Nat × Acc :=
  match a.metaHeld (src (18 + l % 6) 1) (placeOf (a.dev.sec.mlines.filter (fun e => e.2.kind == 0)) l) l 0 with
  | (some (some v), a) => (v, a)
  | (some none, a) => (lostTags, a.tagLost l true)
  | (none, a) =>
    let a := a.upd (fun d => d.pmuSec (lineChan l) 0x43)
    match a.rdQueued l 3 none with
    | (.inl v, a) => (v, a.fillMeta 0 l v)
    | (.inr _, a) => (lostTags, a.tagLost l false)

/-- The tag-table entry of a DPA line: tag and flags. -/
def Acc.tagEntry (a : Acc) (n dl : Nat) : (Nat × Nat) × Acc :=
  let x := a.dev.tagLoc n dl
  let r := a.tagLine x.1
  ((wordField r.1 (64 * x.2) 56, wordField r.1 (64 * x.2 + 56) 7), r.2)

/-- The tag-table entry of a DPA line is written. -/
def Acc.setTag (a : Acc) (n dl tag flags : Nat) : Acc :=
  let x := a.dev.tagLoc n dl
  let r := a.tagLine x.1
  r.2.upd (fun d => d.putMeta 0 x.1 (wordPut r.1 (64 * x.2) 64 (tag + flags * 2 ^ 56)) true)

/-- Dirty metadata lines of a kind are written back. -/
def Acc.flushMeta (a : Acc) (kind : Nat) : Acc :=
  (a.dev.sec.mlines.filter (fun e => e.2.kind == kind && e.2.dirty)).foldl (fun a e =>
    (a.wrMeta e.1 (3 + kind) e.2.data).upd (fun d => d.putMeta kind e.1 e.2.data false)) a

/-! ### Tweak and tag (R163, R165) -/

/-- Table 7.5, line form. -/
def tweakLine (dl alt minor major : Nat) : Nat := dl + alt * 2 ^ 41 + minor * 2 ^ 48 + major * 2 ^ 60

/-- Table 7.5, cell form: page, index of the stored line, page major. -/
def tweakCell (pg idx major : Nat) : Nat := pg * 64 + idx + 2 ^ 40 + major * 2 ^ 60

/-- R165. -/
def lineTag (kTag : List Nat) (t f : Nat) (p : List Nat) : Nat := leftBytes 7 (cmac kTag (toBytes 16 t ++ f :: p))

/-- The counters of a DPA line: MINOR, MAJOR and whether the leaf is QUAR; zeros outside ENC_TAG_FRESH. -/
def Acc.counters (a : Acc) (n dl : Nat) : Sum (Nat × Nat × Bool) NRes × Acc :=
  if a.dev.krFresh n then
    match a.fetch n 0 (a.dev.leafOf n dl) with
    | (.ok v, a) => (.inl (leafMinor v (minorIdx dl), leafMajor v, leafQuar v), a)
    | (r, a) => (.inr r, a)
  else (.inl (0, 0, false), a)

/-- R166: the in-line trial of 64 stored bytes. -/
def trialOk (kTag : List Nat) (t0 : Nat) (bytes : List Nat) : Bool :=
  lineTag kTag t0 0x02 (bytes.take 57) == ofBytes (bytes.drop 57)

/-- What opening a stored line gives: its data, a poison reason, or the halt. -/
inductive Opened where
  | data (v : Nat)
  | poison (reason : Nat)
  | halt
deriving DecidableEq, Repr

/-- Checker 5 of Table 15.9: the compare of a line's tag is inverted. -/
def Dev.tagInj (d : Dev) (dl : Nat) : Bool × Dev :=
  let r := takeInj d.flt.inj 5 (dl * 64)
  (r.1, { d with flt := { d.flt with inj := r.2 } })

/-- R383: an injected mismatch reads as poison, and does not halt. -/
def Acc.tagInjected (a : Acc) (dl : Nat) : Opened × Acc :=
  (.poison poisonMedia,
    a.upd (fun d => d.raise { src := src (18 + lineChan dl / 4) (2 * (lineChan dl % 4)), sev := 2, addr := dl * 64, akind := 1, inj := true }))

/-- R187: the keys of range n are gone: its slots hold nothing, what waits to be stored of its lines is given up, and the loss is recorded. -/
def Dev.keyGone (d : Dev) (n : Nat) : Dev :=
  let mine := fun (dl : Nat) => d.winKr ((d.winOf (dl * 64)).getD 256) == n
  let d := { d with sec := { d.sec with keys := tdel (tdel d.sec.keys (2 * n)) (2 * n + 1), init := d.sec.init.filter (· != n),
                                        ovf := d.sec.ovf.filter (fun o => o.n != n) }
                    home := { d.home with lbuf := d.home.lbuf.filter (fun e => !mine e.1) } }
  (((d.set (fSEC_KR_STS_STATE n) 1).setFlag (fSEC_KR_STS_NEXT_LOADED n) false).setFlag (fSEC_KR_STS_KLOST n) true).raise
    { src := src 24 2, sev := 4, obj := n }

/-- R187, R458: slot s of a usable range is read for its keys; an armed SRAM error is corrected, or the range's keys are gone. -/
def Acc.useKey (a : Acc) (n s : Nat) : Acc :=
  if a.dev.krUsable n then
    let r := a.dev.sramBits (src 24 2) (2 * n + s)
    { a with dev := if r.1 = 0 then r.2 else if r.1 = 1 then r.2.sramFixed (src 24 2) (2 * n + s) else r.2.keyGone n }
  else a

/-- R166: a DPA line's stored bytes v are verified, decrypted and decoded under key slot s; source names the reader in
SEC_HALT_STS. -/
def Acc.openWith (a : Acc) (n s dl v source : Nat) : Opened × Acc :=
  let kd := a.dev.kData n s
  let kt := a.dev.kTwk n s
  let bytes := toBytes 64 v
  let a := (a.useKey n s).upd (fun d => d.pmuSec (lineChan dl) 0x40)
  if !a.dev.krUsable n then (.poison poisonMedia, a)
  else if a.dev.krMode n = 1 then (.data (ofBytes (xts false kd kt (tweakLine dl 0 0 0) bytes)), a)
  else
    match a.counters n dl with
    | (.inr .halt, a) => (.halt, a)
    | (.inr _, a) => (.poison poisonTreeMedia, a)
    | (.inl (minor, major, q), a) =>
      if q && minor = 0 then (.poison poisonTreeMedia, a)
      else
        let kTag := a.dev.kTag n s
        let t0 := tweakLine dl 0 minor major
        let inj := a.dev.tagInj dl
        let a := { a with dev := inj.2 }
        if trialOk kTag t0 bytes then
          if inj.1 then a.tagInjected dl
          else
            match a.dev.unpackLine (bytes.headD 0) (xts false kd kt t0 ((bytes.drop 1).take 56)) with
            | some x => (.data x, a)
            | none => (.poison poisonMedia,
                a.upd (fun d => d.raise { src := src (25 + lineChan dl / 6) 0, sev := 3, addr := dl * 64, akind := 1 }))
        else
          let e := a.tagEntry n dl
          let a := e.2
          if e.1.2 = 0x7F then (.poison poisonMedia, a)
          else if 1 < e.1.2 then (.halt, a.upd (fun d => d.haltNow 2 n source (dl * 64) false))
          else
            let t := tweakLine dl e.1.2 minor major
            if lineTag kTag t 0x01 bytes != e.1.1 then (.halt, a.upd (fun d => d.haltNow 1 n source (dl * 64) false))
            else if inj.1 then a.tagInjected dl
            else (.data (ofBytes (xts false kd kt t bytes)), a)

/-- R166 under the key that governs the line's page. -/
def Acc.openLine (a : Acc) (n dl v source : Nat) : Opened × Acc := a.openWith n (a.dev.slotFor n (dl * 64)) dl v source

/-- R178, R185: the page major of a page in cell form: of its even leaf; both leaves must be had. -/
def Acc.cellMajor (a : Acc) (n pg : Nat) : Sum Nat NRes × Acc :=
  if a.dev.krFresh n then
    let j := a.dev.leafOf n (pg * 64)
    match a.fetch n 0 j with
    | (.ok v, a) =>
      match a.fetch n 0 (j + 1) with
      | (.ok _, a) => (.inl (leafMajor v), a)
      | (r, a) => (.inr r, a)
    | (r, a) => (.inr r, a)
  else (.inl 0, a)

/-- R164 to R166: stored line idx of the cell of a page, its bytes v, is verified against its tag-table entry and decrypted under key
slot s. -/
def Acc.openCell (a : Acc) (n s pg idx v source : Nat) : Opened × Acc :=
  let dl := pg * 64 + idx
  let bytes := toBytes 64 v
  let a := (a.useKey n s).upd (fun d => d.pmuSec (lineChan dl) 0x40)
  if !a.dev.krUsable n then (.poison poisonMedia, a)
  else
    match a.cellMajor n pg with
    | (.inr .halt, a) => (.halt, a)
    | (.inr _, a) => (.poison poisonTreeMedia, a)
    | (.inl m, a) =>
      let t := tweakCell pg idx m
      let plain := Opened.data (ofBytes (xts false (a.dev.kData n s) (a.dev.kTwk n s) t bytes))
      if a.dev.krMode n = 1 then (plain, a)
      else
        let inj := a.dev.tagInj dl
        let e := Acc.tagEntry { a with dev := inj.2 } n dl
        let a := e.2
        if e.1.2 = 0x7F then (.poison poisonMedia, a)
        else if 1 < e.1.2 then (.halt, a.upd (fun d => d.haltNow 2 n source (dl * 64) false))
        else if lineTag (a.dev.kTag n s) t 0x03 bytes != e.1.1 then (.halt, a.upd (fun d => d.haltNow 1 n source (dl * 64) false))
        else if inj.1 then a.tagInjected dl
        else (plain, a)

/-- R164, R165, R168: stored line idx of the cell of a page is encrypted and tagged under key slot s and a page major. -/
def Acc.sealCell (a : Acc) (n s pg idx data major : Nat) : Codeword × Acc :=
  let dl := pg * 64 + idx
  let t := tweakCell pg idx major
  let b := xts true (a.dev.kData n s) (a.dev.kTwk n s) t (toBytes 64 data)
  let a := a.upd (fun d => d.pmuSec (lineChan dl) 0x41)
  (rsEncode (ofBytes b), if a.dev.krMode n = 1 then a else a.setTag n dl (lineTag (a.dev.kTag n s) t 0x03 b) 0)

/-- R164, R166, R167: a line's plaintext is coded, encrypted and tagged under key slot s and given counters. -/
def Acc.sealWith (a : Acc) (n s dl data minor major : Nat) : Codeword × Acc :=
  let kd := a.dev.kData n s
  let kt := a.dev.kTwk n s
  let a := a.upd (fun d => d.pmuSec (lineChan dl) 0x41)
  if a.dev.krMode n = 1 then (rsEncode (ofBytes (xts true kd kt (tweakLine dl 0 0 0) (toBytes 64 data))), a)
  else
    let kTag := a.dev.kTag n s
    let t0 := tweakLine dl 0 minor major
    match (if a.dev.flag fCDC_CTL_LINE_EN then a.dev.packLine data else none) with
    | some p =>
      let body := p.1 :: xts true kd kt t0 (p.2 ++ List.replicate (56 - p.2.length) 0)
      let v := ofBytes (body ++ toBytes 7 (lineTag kTag t0 0x02 body))
      (rsEncode v, a.upd (fun d => (d.pmuSec (lineChan dl) 0x42).pmu (36 + lineChan dl / 6) 0x50 0 8 1))
    | none =>
      let b0 := xts true kd kt t0 (toBytes 64 data)
      let t1 := tweakLine dl 1 minor major
      if !trialOk kTag t0 b0 then (rsEncode (ofBytes b0), a.setTag n dl (lineTag kTag t0 0x01 b0) 0)
      else
        let b1 := xts true kd kt t1 (toBytes 64 data)
        if !trialOk kTag t0 b1 then (rsEncode (ofBytes b1), a.setTag n dl (lineTag kTag t1 0x01 b1) 1)
        else (markerWord poisonMedia,
          a.upd (fun d => d.raise { src := src 24 3, sev := 2, addr := dl * 64, akind := 1 }))

/-- R185, R186: QUAR clears when all 32 minors are nonzero. -/
def unQuar (v : Nat) : Nat :=
  if leafQuar v && (List.range 32).all (fun m => leafMinor v m != 0) then wordPut v 505 1 0 else v

/-- R176: the line's minor rises in the cached leaf; the new counters. -/
def Acc.advance (a : Acc) (n dl : Nat) : Option (Nat × Nat) × Acc :=
  if a.dev.krFresh n then
    let j := a.dev.leafOf n dl
    match a.fetch n 0 j with
    | (.ok v, a) =>
      let m := leafMinor v (minorIdx dl) + 1
      let v1 := wordPut v (64 + 12 * minorIdx dl) 12 m
      let v2 := unQuar v1
      let a := a.upd (fun d => d.putNode n 0 j v2 true)
      (some (m, leafMajor v), if v1 = v2 then a else a.upd (fun d => d.quarLeaf n j false))
    | (_, a) => (none, a)
  else (some (0, 0), a)

/-- R176: the line's minor already holds 4095. -/
def Acc.minorFull (a : Acc) (n dl : Nat) : Bool × Acc :=
  if a.dev.krFresh n then
    match a.fetch n 0 (a.dev.leafOf n dl) with
    | (.ok v, a) => (leafMinor v (minorIdx dl) == 4095, a)
    | (_, a) => (false, a)
  else (false, a)

/-- A line is sealed for storage after its counter advance; none when its key or its leaf cannot be had (a lost key, a halt, a lost
node). -/
def Acc.sealLine (a : Acc) (n dl data : Nat) : Option Codeword × Acc :=
  let a := a.useKey n (a.dev.slotFor n (dl * 64))
  if !a.dev.krUsable n then (none, a) else
  match a.advance n dl with
  | (some (minor, major), a) =>
    let r := a.sealWith n (a.dev.slotFor n (dl * 64)) dl data minor major
    (some r.1, r.2)
  | (none, a) => (none, a)

end Sys2Proof.Machine
end

