-- ==== Sys2Proof/Machine/Dir.lean ====
section
/-! DEFINITION. Home slices and the directory (04_coherence.md R84 to R92, R101 to R111): the slice of a line, directory
entries in the store, in the cache and in the victim buffer, and the counts of held and lost lines. -/

namespace Sys2Proof.Machine

/-! ### Slices and sets -/

/-- The XOR of the n lowest base-2^w digits of v. -/
def xorFold (w : Nat) : Nat → Nat → Nat
  | 0, _ => 0
  | n + 1, v => Nat.xor (v % 2 ^ w) (xorFold w n (v / 2 ^ w))

/-- R84: the home slice of a page, and of a DPA line. -/
def pageSlice (pg : Nat) : Nat := xorFold 4 9 pg
def lineSlice (dl : Nat) : Nat := pageSlice (dl / 64)

/-- R90: the directory-cache set of a line. -/
def dirSet (dl : Nat) : Nat := Nat.xor (xorFold 12 3 dl) (dl / 2 ^ 36 % 16)

/-! ### Tree pseudo-LRU over 16 ways -/

/-- The 15 bits of a tree point away from the way just used. -/
def plruTouch (t way : Nat) : Nat :=
  (List.range 4).foldl (fun t lv =>
    let node := 2 ^ lv - 1 + way / 2 ^ (4 - lv)
    let b := way / 2 ^ (3 - lv) % 2
    if b = 0 then t ||| 2 ^ node else t - (t &&& 2 ^ node)) t

/-- The way that the bits point to among the allowed ones; a subtree without an allowed way is passed over. -/
def plruPick (t allowed : Nat) : Nat :=
  ((List.range 4).foldl (fun (a : Nat) lv =>
    let node := 2 ^ lv - 1 + a
    let w := 2 ^ (3 - lv)
    let okL := allowed / 2 ^ (2 * a * w) % 2 ^ w != 0
    let okR := allowed / 2 ^ ((2 * a + 1) * w) % 2 ^ w != 0
    let b := if !okR then 0 else if !okL then 1 else (t.testBit node).toNat
    2 * a + b) 0)

/-! ### Entries (Tables 4.1, 4.2) -/

def entSharers (e : Nat) : Nat := e % 2 ^ 32
def entState (e : Nat) : Nat := e / 2 ^ 32 % 8
def entReason (e : Nat) : Nat := if e / 2 ^ 35 % 2 = 0 then poisonLostOwner else poisonMedia

/-- An entry of a state and sharers. -/
def entOf (state sharers : Nat) : Nat := sharers % 2 ^ 32 + state * 2 ^ 32

/-- Lost, with its LREASON bit. -/
def entLost (media : Bool) : Nat := 4 * 2 ^ 32 + media.toNat * 2 ^ 35

/-- A valid entry (R88). -/
def entOk (e : Nat) : Bool :=
  let n := popCount 32 (entSharers e)
  let s := entState e
  e < 2 ^ 36 && (if s = 0 then n == 0 else if s = 1 then 0 < n else if s = 2 ∨ s = 3 then n == 1 else s == 4 && n == 0)

/-- E or M. -/
def entOwned (e : Nat) : Bool := entState e == 2 || entState e == 3

/-- The owner of an entry in E or M. -/
def entOwner (e : Nat) : Nat := ((bitsOf 32 (entSharers e)).head?).getD 0

/-! ### Pinning -/

/-- An open transaction on the line. -/
def Dev.transOf (d : Dev) (dl : Nat) : Option Trans := d.home.trans.find? (fun t => t.line == dl)
def Dev.openOn (d : Dev) (dl : Nat) : Bool := d.home.trans.any (fun t => t.line == dl)

/-- R101: an entry is pinned by an open transaction or a wait list. -/
def Dev.pinned (d : Dev) (dl : Nat) : Bool := d.openOn dl || d.home.waits.any (fun q => q.dpa / 64 == dl)

/-! ### The directory store -/

/-- The first key of a set. -/
def dirKey (dl : Nat) : Nat := (lineSlice dl * 4096 + dirSet dl) * 16

/-- The way that caches the line. -/
def Dev.dirWay (d : Dev) (dl : Nat) : Option Nat :=
  (List.range 16).find? (fun w => match tfind d.home.dcache (dirKey dl + w) with
    | some e => e.line == dl
    | none => false)

/-- The store line and place of a line's entry (R89). -/
def Dev.dirLoc (d : Dev) (w dl : Nat) : Nat × Nat :=
  let seg := match tfind d.win.dirSeg w with
    | some s => s.1
    | none => 0
  let x := seg + (dl - d.winBase w / 64) * 8
  (d.redirect (x / 64 * 64) / 64, x / 8 % 8)

/-- The lines whose entries share the store line of a line's entry (R111). -/
def storeMates (dl : Nat) : List Nat := (List.range 8).map (fun j => dl / 8 * 8 + j)

/-- R111: entries are unknown. -/
def Dev.dirUnknown (d : Dev) (l : List Nat) : Dev :=
  { d with home := { d.home with dirBad := (d.home.dirBad ++ l).eraseDups } }.setFlag fHOME_STS_DIR_ERR true

/-- R111: a store line cannot be used: its entries that neither the cache nor the victim buffer holds are unknown; a cached one is to be
written again. -/
def Dev.dirLost (d : Dev) (dl : Nat) : Dev :=
  let dc := d.home.dcache.map (fun e => if (storeMates dl).contains e.2.line then (e.1, { e.2 with dirty := true }) else e)
  { d with home := { d.home with dcache := dc } }.dirUnknown
    ((storeMates dl).filter (fun l => (d.dirWay l).isNone && !d.home.victims.any (fun v => v.line == l)))

/-- The store entry of a line: none when the line is uncorrectable or the entry corrupt. -/
def Acc.dirStored (a : Acc) (w dl : Nat) : Option Nat × Acc :=
  let x := a.dev.dirLoc w dl
  match a.rdQueued x.1 2 (some (dl * 64)) with
  | (.inl v, a) =>
    let e := wordField v (64 * x.2) 64
    if entOk e then (some e, a) else (none, a.upd (fun d => d.dirUnknown [dl]))
  | (.inr _, a) => (none, a.upd (fun d => d.dirLost dl))

/-- A store entry is written by read-modify-write of its line; the other entries of an uncorrectable line are unknown. -/
def Acc.dirWrite (a : Acc) (w dl e : Nat) : Acc :=
  let x := a.dev.dirLoc w dl
  match a.rdQueued x.1 2 (some (dl * 64)) with
  | (.inl v, a) => a.wrMeta x.1 2 (wordPut v (64 * x.2) 64 e)
  | (.inr _, a) =>
    (a.wrMeta x.1 2 (e * 2 ^ (64 * x.2))).upd (fun d =>
      let d := d.dirLost dl
      { d with home := { d.home with dirBad := d.home.dirBad.filter (· != dl) } })

/-! ### Counts (R92, R94) -/

/-- An entry changes: HOME_HELD follows the sharer bits, HOME_LOST the state L. -/
def Dev.dirCount (d : Dev) (w old new : Nat) : Dev :=
  let so := entSharers old
  let sn := entSharers new
  let d := (bitsOf 32 (sn - (sn &&& so))).foldl (fun d h => d.bump (fHOME_HELD_COUNT h w) 1) d
  let d := (bitsOf 32 (so - (so &&& sn))).foldl (fun d h => d.drop (fHOME_HELD_COUNT h w) 1) d
  if entState old = 4 ∧ entState new ≠ 4 then d.drop (fHOME_LOST_COUNT w) 1
  else if entState old ≠ 4 ∧ entState new = 4 then d.bump (fHOME_LOST_COUNT w) 1 else d

/-- R108 step 3: an entry of window w corrected for the heads whose sweep of the window is pending. -/
def Dev.dirFix (d : Dev) (w e : Nat) : Nat × Dev :=
  d.home.sweeps.foldl (fun (r : Nat × Dev) s =>
    if s.wins.contains w && (entSharers r.1).testBit s.head then
      if entOwned r.1 then (entLost false, r.2.bump (fHOME_LOST_COUNT w) 1)
      else
        let sh := entSharers r.1 - 2 ^ s.head
        (if sh = 0 then 0 else entOf 1 sh, r.2)
    else r) (e, d)

/-! ### The directory cache (R90, R91) -/

/-- A cache entry is set. -/
def Dev.dirSetWay (d : Dev) (dl way : Nat) (e : DirEnt) : Dev :=
  let p := tget (fun _ => 0) d.home.plru (dirKey dl)
  { d with home := { d.home with dcache := tins d.home.dcache (dirKey dl + way) e
                                 plru := tset (fun _ => 0) d.home.plru (dirKey dl) (plruTouch p way) } }

/-- The ways of the line's set whose entries are not pinned. -/
def Dev.dirAllowed (d : Dev) (dl : Nat) : Nat :=
  ((List.range 16).map (fun w => match tfind d.home.dcache (dirKey dl + w) with
    | some e => if d.pinned e.line then 0 else 2 ^ w
    | none => 2 ^ w)).sum

/-- The way for a fill: a free one, else the pseudo-LRU victim among the unpinned; none when all are pinned (R102). -/
def Dev.dirVictim (d : Dev) (dl : Nat) : Option Nat :=
  match (List.range 16).find? (fun w => (tfind d.home.dcache (dirKey dl + w)).isNone) with
  | some w => some w
  | none =>
    let al := d.dirAllowed dl
    if al = 0 then none else some (plruPick (tget (fun _ => 0) d.home.plru (dirKey dl)) al)

/-- The window of a DPA line. -/
def Dev.lineWin (d : Dev) (dl : Nat) : Nat := (d.winOf (dl * 64)).getD 256

/-- R91: a dirty victim enters its slice's victim buffer of 32; a full buffer first writes its oldest entry to the store, at once (DESIGN CHOICE,
log entry 104). -/
def Acc.pushVictim (a : Acc) (e : DirEnt) : Acc :=
  let mine := a.dev.home.victims.filter (fun v => lineSlice v.line == lineSlice e.line)
  let a := match (if 32 ≤ mine.length then mine.head? else none) with
    | some o => (a.dirWrite (a.dev.lineWin o.line) o.line o.ent).upd (fun d =>
        { d with home := { d.home with victims := d.home.victims.filter (fun v => v.line != o.line) } })
    | none => a
  a.upd (fun d => { d with home := { d.home with victims := d.home.victims ++ [e] } })

/-- What a directory lookup gives. -/
inductive DRes where
  | ent (e : Nat)
  | pinned
  | unknown
deriving DecidableEq, Repr

/-- The entry of a line is read from SRAM entry e: injected errors (R458); an unusable one leaves its place as gone says, and is unknown. -/
def Acc.dirEcc (a : Acc) (dl e : Nat) (gone : HomeS → HomeS) : Bool × Acc :=
  let s := src 10 (lineSlice dl / 2)
  let r := a.dev.sramBits s e
  if r.1 = 0 then (true, a)
  else if r.1 = 1 then (true, { a with dev := r.2.sramFixed s e })
  else
    let d := r.2.raise { src := s, sev := 2, obj := e, inj := true }
    (false, { a with dev := { d with home := gone d.home }.dirUnknown [dl] })

/-- An entry is read from its way of the cache. -/
def Acc.dirSram (a : Acc) (dl way : Nat) : Bool × Acc :=
  a.dirEcc dl (lineSlice dl % 2 * 65536 + dirSet dl * 16 + way) (fun h => { h with dcache := tdel h.dcache (dirKey dl + way) })

/-- An entry is read from the victim buffer of its slice. -/
def Acc.victimSram (a : Acc) (dl : Nat) : Bool × Acc :=
  let v := (a.dev.home.victims.filter (fun v => lineSlice v.line == lineSlice dl)).findIdx (fun v => v.line == dl)
  a.dirEcc dl (131072 + lineSlice dl % 2 * 32 + v) (fun h => { h with victims := h.victims.filter (fun v => v.line != dl) })

/-- The entry of a line as it stands, without allocation: cache, victim buffer, store. -/
def Acc.dirRaw (a : Acc) (w dl : Nat) : Option Nat × Acc :=
  if a.dev.home.dirBad.contains dl then (none, a) else
  match a.dev.dirWay dl with
  | some way => ((tfind a.dev.home.dcache (dirKey dl + way)).map (·.ent), a)
  | none =>
    match a.dev.home.victims.find? (fun v => v.line == dl) with
    | some v => (some v.ent, a)
    | none => a.dirStored w dl

/-- The entry of a line is set where it stands: in the cache, in the victim buffer, or in the store (R103). -/
def Acc.dirForce (a : Acc) (w dl new : Nat) : Acc :=
  match a.dev.dirWay dl with
  | some way => a.upd (fun d => d.dirSetWay dl way ⟨dl, new, true⟩)
  | none =>
    if a.dev.home.victims.any (fun v => v.line == dl) then
      a.upd (fun d => { d with home := { d.home with victims := d.home.victims.map (fun v => if v.line = dl then { v with ent := new } else v) } })
    else a.dirWrite w dl new

/-- The entry of a line without allocation, corrected under R108 before use. -/
def Acc.dirPeek (a : Acc) (w dl : Nat) : Option Nat × Acc :=
  match a.dirRaw w dl with
  | (some e, a) =>
    let x := a.dev.dirFix w e
    if x.1 = e then (some e, a) else (some x.1, Acc.dirForce { a with dev := x.2 } w dl x.1)
  | r => r

/-- The entry of a line through the cache: a hit, a fill (which may evict), or all ways pinned (R102), or unknown (R111). -/
def Acc.dirGet (a : Acc) (w dl cls : Nat) : DRes × Acc :=
  if a.dev.home.dirBad.contains dl then (.unknown, a) else
  match a.dev.dirWay dl with
  | some way =>
    let r := a.dirSram dl way
    if r.1 then
      let a := r.2.upd (fun d => d.pmuHome (lineSlice dl) 0x26 cls)
      match tfind a.dev.home.dcache (dirKey dl + way) with
      | some e =>
        let x := a.dev.dirFix w e.ent
        (.ent x.1, { a with dev := x.2.dirSetWay dl way ⟨dl, x.1, e.dirty || x.1 != e.ent⟩ })
      | none => (.unknown, a)
    else (.unknown, r.2)
  | none =>
    match a.dev.dirVictim dl with
    | none => (.pinned, a)
    | some way =>
      let a := a.upd (fun d => d.pmuHome (lineSlice dl) 0x27 cls)
      let f : Option (Nat × Bool) × Acc := match a.dev.home.victims.find? (fun v => v.line == dl) with
        | some v =>
          let r := a.victimSram dl
          (if r.1 then some (v.ent, true) else none, r.2.upd (fun d =>
            { d with home := { d.home with victims := d.home.victims.filter (fun v => v.line != dl) } }))
        | none => let r := a.dirStored w dl; (r.1.map (fun e => (e, false)), r.2)
      match f.1 with
      | none => (.unknown, f.2.upd (fun d => d.dirUnknown [dl]))
      | some (e, dirty) =>
        let a := match tfind f.2.dev.home.dcache (dirKey dl + way) with
          | some o => if o.dirty then f.2.pushVictim o else f.2
          | none => f.2
        let x := a.dev.dirFix w e
        (.ent x.1, { a with dev := x.2.dirSetWay dl way ⟨dl, x.1, dirty || x.1 != e⟩ })

/-- R21: what agents have collected of a line and not used yet is no longer current. -/
def Dev.dropGot (d : Dev) (dl : Nat) : Dev := { d with home := { d.home with got := d.home.got.filter (fun g => g.2.1 != dl) } }

/-- The entry of a line changes from old to new; the counts follow. Once a head owns the line, no agent uses what it collected before. -/
def Acc.dirPut (a : Acc) (w dl old new : Nat) : Acc :=
  let a := a.upd (fun d => (d.dirCount w old new))
  let a := if entOwned new then a.upd (fun d => d.dropGot dl) else a
  if old = new then a else a.dirForce w dl new

/-- Every dirty directory entry is written to the store: cache and victim buffer (R393, R444). -/
def Acc.flushDir (a : Acc) : Acc :=
  let a := a.dev.home.victims.foldl (fun a v => a.dirWrite (a.dev.lineWin v.line) v.line v.ent) a
  let a := (a.dev.home.dcache.filter (fun e => e.2.dirty)).foldl (fun a e => a.dirWrite (a.dev.lineWin e.2.line) e.2.line e.2.ent) a
  a.upd (fun d => { d with home := { d.home with victims := [], dcache := d.home.dcache.map (fun e => (e.1, { e.2 with dirty := false })) } })

/-- All 64 entries of a page are in I or L (R95); true outside SHARED windows. -/
def Acc.pageFree (a : Acc) (w pg : Nat) : Bool :=
  !a.dev.winShared w || (List.range 64).all (fun i => match (a.dirPeek w (pg * 64 + i)).1 with
    | some e => entState e == 0 || entState e == 4
    | none => false)

end Sys2Proof.Machine
end

