-- ==== Sys2Proof/Machine/PageCodec.lean ====
section
/-! DEFINITION. The page codec (08_compression_tiering.md R199 to R202, Table 8.2): the encoded form of a page, and the decoding of one
sub-block. The symbols of a coded sub-block are internal to the controller: Config.encodeSymbols, Config.decodeSymbols. -/

namespace Sys2Proof.Machine

/-- Bytes followed by zeros up to n. -/
def padTo (n : Nat) (l : List Byte) : List Byte := l ++ List.replicate (n - l.length) 0

/-- The lines that a byte list fills. -/
def linesOf (l : List Byte) : List LineData := (List.range (l.length / 64)).map (fun i => lineOfBytes (l.drop (64 * i)))

/-- The bytes of lines. -/
def bytesOf (l : List LineData) : List Byte := l.flatMap bytesOfLine

/-- CRC-32C of the bytes of lines. -/
def crcLines (l : List LineData) : Nat := crc32c ((bytesOf l).map BitVec.toNat)

/-- The lines of sub-block i of a page. -/
def subOfPage (l : List LineData) (i : Nat) : List LineData := (l.drop (16 * i)).take 16

/-- R199: the stream of a sub-block: mode, symbols, CRC-32C. -/
def subStream (eff : Nat) (sub : List LineData) : List Byte :=
  (if sub.all (· == 0) then [0x02] else 0x01 :: Config.encodeSymbols eff sub) ++ leOf 4 (crcLines sub)

/-- Class and start lines of an encoded page (R199, R200), and the lines that its cell stores. -/
structure Coded where
  cls : Nat
  s1 : Nat
  s2 : Nat
  s3 : Nat
  stored : List LineData
deriving DecidableEq, Repr

/-- Where stream i starts, in lines, after a stream that starts at byte b and has n bytes. -/
def nextStart (b n : Nat) : Nat := (b + n + 63) / 64

/-- R200: class and start lines for streams of the given lengths; class 8 for a page that is stored raw. -/
def codedOf (l0 l1 l2 l3 : Nat) : Nat × Nat × Nat × Nat :=
  let s1 := nextStart 32 l0
  let s2 := nextStart (64 * s1) l1
  let s3 := nextStart (64 * s2) l2
  let k := (64 * s3 + l3 + 511) / 512
  if 992 < l0 ∨ 992 < l1 ∨ 992 < l2 ∨ 992 < l3 ∨ 8 ≤ k then (8, 0, 0, 0) else (k, s1, s2, s3)

/-- Table 8.2. -/
def pageHeader (eff : Nat) (lens : List Nat) (s1 s2 s3 pcrc : Nat) : List Byte :=
  leOf 1 1 ++ leOf 1 eff ++ leOf 2 0 ++ lens.flatMap (leOf 2) ++ leOf 1 s1 ++ leOf 1 s2 ++ leOf 1 s3 ++ leOf 1 0 ++ leOf 4 pcrc ++ leOf 12 0

/-- R199, R200: how a page codes at an effort level. -/
def encodePage (eff : Nat) (lines : List LineData) : Coded :=
  let st := (List.range 4).map (fun i => subStream eff (subOfPage lines i))
  let lens := st.map List.length
  let c := codedOf (lens.getD 0 0) (lens.getD 1 0) (lens.getD 2 0) (lens.getD 3 0)
  if c.1 = 8 then ⟨8, 0, 0, 0, lines⟩
  else
    let b0 := padTo (64 * c.2.1) (pageHeader eff lens c.2.1 c.2.2.1 c.2.2.2 (crcLines lines) ++ st.getD 0 [])
    let b1 := padTo (64 * c.2.2.1) (b0 ++ st.getD 1 [])
    let b2 := padTo (64 * c.2.2.2) (b1 ++ st.getD 2 [])
    ⟨c.1, c.2.1, c.2.2.1, c.2.2.2, linesOf (padTo (512 * c.1) (b2 ++ st.getD 3 []))⟩

/-- R202: a stream that does not stand as the controller wrote it: its 16 lines, none where it is malformed. -/
def decodeStream : List Byte → Option (List LineData)
  | [] => none
  | m :: t =>
    let zeros := List.replicate 16 (0 : LineData)
    if m = 0x02 then (if leBytes t 0 4 = crcLines zeros then some zeros else none)
    else if m = 0x01 then
      match Config.decodeSymbols t with
      | some (l, crc) => if l.length = 16 ∧ crc = crcLines l then some l else none
      | none => none
    else none

/-- R201, R202: what the decoder makes of the stored lines of sub-block i. A stream that stands as the controller wrote it decodes to what it
codes (log entry 12). -/
def decodeSub (c : Option Cell) (i : Nat) (stored : List LineData) : Option (List LineData) :=
  let b := (bytesOf stored).drop (if i = 0 then 32 else 0)
  match c with
  | some c =>
    let sub := subOfPage c.lines i
    let s := subStream c.eff sub
    if b.take s.length = s then some sub else decodeStream b
  | none => decodeStream b

/-- R201: where stream i starts in a cell of class k + 1 whose start lines are sb, and the stored lines that a read of sub-block i
takes. -/
def startLine (k sb i : Nat) : Nat := if i = 0 then 0 else if i = 4 then 8 * (k + 1) else sb / 2 ^ (6 * (i - 1)) % 64
def subRange (k sb i : Nat) : List Nat :=
  let s := startLine k sb i
  (List.range (min (startLine k sb (i + 1)) (s + 16) - s)).map (s + ·)

end Sys2Proof.Machine
end

