-- ==== Sys2Proof/Machine/Tier.lean ====
section
/-! DEFINITION. Tiered windows (08_compression_tiering.md R199 to R226): the frame table and the pool counters, page-map
entries, cells, the hot-line cache, allocation and losses, and the moves of a page between its forms. -/

namespace Sys2Proof.Machine

/-! ### Pools, frames and counters (R214, R217, R218) -/

/-- Frames of MPA: where the tier pool and the reserve start, and where the reserve ends. -/
def Dev.tierLo (d : Dev) : Nat := d.get (fCDC_LAYOUT_SIZE 0) * 512
def Dev.tierHi (d : Dev) : Nat := d.tierLo + d.get (fCDC_LAYOUT_SIZE 1) * 512
def Dev.resHi (d : Dev) : Nat := d.tierHi + d.get (fCDC_LAYOUT_SIZE 2) * 512
def Dev.tierTotal (d : Dev) : Nat := d.get (fCDC_LAYOUT_SIZE 1) * 512

/-- Roles of a frame. -/
def roleFree : Nat := 0
def roleNear : Nat := 1
def roleCells : Nat := 2
def roleBusy : Nat := 3
def roleSuspect : Nat := 4

/-- Role and mask (or page, for NEAR) of a frame. -/
def Dev.frameOf (d : Dev) (f : Nat) : Nat × Nat := tget (fun _ => (0, 0)) d.tier.frames f

/-- Frames of a role in the tier pool. -/
def Dev.countRole (d : Dev) (r : Nat) : Nat :=
  (d.tier.frames.filter (fun e => e.2.1 == r && d.tierLo ≤ e.1 && e.1 < d.tierHi)).length

/-- R220: the level that the watermarks give from the present one. -/
def levelNext (level free tp a r h : Nat) : Nat :=
  let l := if free * 1000 ≤ tp * r then 2 else if free * 1000 ≤ tp * a then max level 1 else level
  let l := if l = 2 ∧ tp * (r + h) < free * 1000 then 1 else l
  if l = 1 ∧ tp * (a + h) < free * 1000 then 0 else l

/-- R220: the level follows the counters, RED while they are rebuilt (R226); a change raises a C event and an interrupt. -/
def Dev.relevel (d : Dev) : Dev :=
  let tp := d.tierTotal
  let old := d.get fCDC_LEVEL_LEVEL
  let l := if d.tier.rebuild then 2
    else levelNext old (d.get fCDC_FREE_FRAMES) tp (d.get fCDC_WM_AMBER_PM) (d.get fCDC_WM_RED_PM) (d.get fCDC_WM_HYST_PM)
  if l = old then d
  else ((d.set fCDC_LEVEL_LEVEL l).raise { src := src 30 3, sev := 1, obj := l }).emit .mgmtInt

/-- R218: the pool counters of Table 8.9 from the frame table and the cells. By the rule's equation for FRAG, CELLB counts the cells of
CELLS frames: what a SUSPECT frame holds is counted with the frame. -/
def Dev.recount (d : Dev) : Dev :=
  if d.tier.rebuild then d
  else
    let near := d.countRole 1
    let cellf := d.countRole 2
    let busy := d.countRole 3
    let sus := d.countRole 4
    let inPool := fun (b : Nat) => decide (d.tierLo ≤ b / 8) && decide (b / 8 < d.tierHi)
    let cellb := ((d.tier.cells.filter (fun e => inPool e.1 && (d.frameOf (e.1 / 8)).1 == 2)).map (fun e => e.2.cls)).sum
    let used := ((d.tier.frames.filter (fun e => e.2.1 == 2 && inPool (8 * e.1))).map (fun e => popCount 8 e.2.2)).sum
    let resUsed := (d.tier.frames.filter (fun e => decide (d.tierHi ≤ e.1) && decide (e.1 < d.resHi))).length
    let d := (((d.set fCDC_FREE_FRAMES (d.tierTotal - near - cellf - busy - sus)).set fCDC_NEAR_FRAMES near).set
      fCDC_CELLF_FRAMES cellf).set fCDC_CELLB_BLOCKS cellb
    let d := ((d.set fCDC_FRAG_BLOCKS (8 * cellf - used)).set fCDC_ORPHAN_BLOCKS (used - cellb)).set fCDC_SUSPECT_FRAMES sus
    let d := d.set fCDC_RSV_FREE_FRAMES (d.resHi - d.tierHi - resUsed)
    (d.setFlag fCDC_LEVEL_RSV_ACTIVE (resUsed != 0)).relevel

/-- A frame takes a role and mask; the counters follow in the same step. -/
def Dev.setFrame (d : Dev) (f role mask : Nat) : Dev :=
  { d with tier := { d.tier with frames := tset (fun _ => (0, 0)) d.tier.frames f (role, mask) } }.recount

/-- The lowest unlisted key from lo on, in a table in rising order. -/
def lowestGap {α : Type} (t : Tbl α) (lo : Nat) : Nat := t.foldl (fun c e => if e.1 = c then c + 1 else c) lo

/-- The lowest FREE frame of [lo, hi) (log entry 15). -/
def Dev.freeFrame (d : Dev) (lo hi : Nat) : Option Nat :=
  let f := lowestGap (d.tier.frames.filter (fun e => lo ≤ e.1)) lo
  if f < hi then some f else none

/-- The free runs of an 8-bit mask: start and length. -/
def freeRuns (mask : Nat) : List (Nat × Nat) :=
  (List.range 8).filterMap (fun s =>
    if mask.testBit s || (s != 0 && !mask.testBit (s - 1)) then none
    else some (s, ((List.range 9).find? (fun n => s + n = 8 || mask.testBit (s + n))).getD 0))

/-- R217: the block for a cell of k blocks in the tier pool: the CELLS frame with the shortest free run that holds it,
ties to the lowest frame, else a FREE frame; frames that p refuses are passed over. -/
def Dev.freeCell (d : Dev) (k : Nat) (p : Nat → Bool) (mayFree : Bool) : Option Nat :=
  let runs := (d.tier.frames.filter (fun e => e.2.1 == 2 && d.tierLo ≤ e.1 && e.1 < d.tierHi && p e.1)).flatMap (fun e =>
    ((freeRuns e.2.2).filter (fun r => k ≤ r.2)).map (fun r => (r.2, 8 * e.1 + r.1)))
  match runs with
  | [] => if mayFree then (d.freeFrame d.tierLo d.tierHi).map (8 * ·) else none
  | x :: t => some (t.foldl (fun b r => if r.1 < b.1 then r else b) x).2

/-- The mask of k blocks from block b of a frame. -/
def runMask (b k : Nat) : Nat := (2 ^ k - 1) * 2 ^ b

/-- A frame's mask without the blocks of the cell at a block. -/
def Dev.maskWithout (d : Dev) (b : Nat) : Nat :=
  let m := (d.frameOf (b / 8)).2
  match tfind d.tier.cells b with
  | some o => m - (m &&& runMask (b % 8) o.cls)
  | none => m

/-- A cell is placed at a block, or takes the place of the cell there and frees its surplus blocks (R209), in one step; a SUSPECT frame stays
so until the sweep (R224). -/
def Dev.putCell (d : Dev) (b : Nat) (c : Cell) : Dev :=
  let m := d.maskWithout b
  let d := { d with tier := { d.tier with cells := tins d.tier.cells b c } }
  d.setFrame (b / 8) (if (d.frameOf (b / 8)).1 = 4 then 4 else 2) (m ||| runMask (b % 8) c.cls)

/-- A cell's blocks are freed; a frame without used blocks becomes FREE, but a SUSPECT one stays so until the sweep (R224). -/
def Dev.dropCell (d : Dev) (b : Nat) : Dev :=
  match tfind d.tier.cells b with
  | some _ =>
    let m := d.maskWithout b
    let d := { d with tier := { d.tier with cells := tdel d.tier.cells b } }
    d.setFrame (b / 8) (if (d.frameOf (b / 8)).1 = 4 then 4 else if m = 0 then 0 else 2) m
  | none => d

/-! ### Page-map entries (Table 8.4, R204) -/

def peState (e : Nat) : Nat := e % 4
def peCls (e : Nat) : Nat := e / 4 % 8
def peLoc (e : Nat) : Nat := e / 2 ^ 5 % 2 ^ 35
def peSb (e : Nat) : Nat := e / 2 ^ 40 % 2 ^ 18
def peAcc (e : Nat) : Nat := e / 2 ^ 58 % 64

/-- An entry from its fields. -/
def peOf (state cls loc sb acc : Nat) : Nat := state + cls * 4 + loc * 2 ^ 5 + sb * 2 ^ 40 + acc * 2 ^ 58

/-- An entry that is not corrupt. -/
def peOk (e : Nat) : Bool :=
  let c := peCls e
  match peState e with
  | 0 => c != 2 && c < 6 && peLoc e == 0 && peSb e == 0
  | 1 => (c == 0 || c == 7) && peLoc e % 8 == 0 && peSb e == 0
  | 2 => c != 7 || peSb e == 0
  | _ => false

def peVoid (reason : Nat) : Nat := peOf 0 reason 0 0 0
def peNear (frame acc : Nat) : Nat := peOf 1 0 (8 * frame) 0 acc

/-- Blocks that an entry's page holds (CDC_WUSE). -/
def peBlocks (e : Nat) : Nat := if peState e = 1 then 8 else if peState e = 2 then peCls e + 1 else 0

/-- The page-map line of a page, and the entry's place in it. -/
def Dev.pmapLoc (d : Dev) (w pg : Nat) : Nat × Nat :=
  let x := d.get (fCDC_WPMAP_MPA w) + (pg - d.winBase w / 4096) * 8
  (d.redirect (x / 64 * 64) / 64, x / 8 % 8)

/-- The page of a NEAR frame, SUSPECT or not: a SUSPECT frame holds a mask, or 256 and the page that stands in it. -/
def framePage (x : Nat × Nat) : Option Nat :=
  if x.1 = 1 then some x.2 else if x.1 = 4 ∧ 256 ≤ x.2 then some (x.2 - 256) else none

/-- A frame that becomes SUSPECT. -/
def suspect (x : Nat × Nat) : Nat × Nat := (4, if x.1 = 1 then 256 + x.2 else x.2)

/-- R224: an uncorrectable frame-table line makes its 32 frames SUSPECT, used until the orphan sweep has run. -/
def Dev.ftabLost (d : Dev) (l : Nat) (inj : Bool) : Dev :=
  let l := d.unredirect l
  match d.sec.allot.find? (fun x => x.kind == 4 && x.base * 32768 ≤ l && l < (x.base + x.units) * 32768) with
  | none => d
  | some x =>
    let f := d.tierLo + (l - x.base * 32768) * 32
    let d := (List.range 32).foldl (fun (d : Dev) i =>
      if f + i < d.resHi then (let s := suspect (d.frameOf (f + i)); d.setFrame (f + i) s.1 s.2) else d) d
    ((d.setFlag fCDC_STS_FTAB_ERR true).setFlag fCDC_STS_ORPHAN_SWEEP true).raise
      { src := src 30 1, sev := 2, addr := 64 * l, akind := 2, inj := inj }

/-- The line of the frame table that holds the entries of frame 32 * i of the tier pool on, and the number of those lines. -/
def Dev.ftabLine (d : Dev) (i : Nat) : Option Nat :=
  (d.sec.allot.find? (fun x => x.kind == 4)).map (fun x => d.redirect ((x.base * 32768 + i) * 64) / 64)
def Dev.ftabCount (d : Dev) : Nat := (d.resHi - d.tierLo + 31) / 32

/-- R224: line i of the frame table is read; false where it is uncorrectable, and its frames are SUSPECT now. Traffic of the frame table is
not queued (log entry 113). -/
def Acc.ftabRead (a : Acc) (i : Nat) : Bool × Acc :=
  match a.dev.ftabLine i with
  | none => (true, a)
  | some l =>
    match a.rdStored l 4 none with
    | (.inl _, a) => (true, a)
    | (.inr _, a) => (false, a.upd (fun d => d.ftabLost l (a.injected l)))

/-- R217, R224: a free frame of [lo, hi) whose frame-table line can be read; at most n lines are lost on the way. -/
def Acc.takeFrame (lo hi : Nat) : Nat → Acc → Option Nat × Acc
  | 0, a => (none, a)
  | n + 1, a =>
    match a.dev.freeFrame lo hi with
    | none => (none, a)
    | some f => let r := a.ftabRead ((f - a.dev.tierLo) / 32); if r.1 then (some f, r.2) else Acc.takeFrame lo hi n r.2

/-- R217, R224: the block for a cell of k blocks in a frame whose frame-table line can be read. -/
def Acc.takeCell (k : Nat) (p : Nat → Bool) (mayFree : Bool) : Nat → Acc → Option Nat × Acc
  | 0, a => (none, a)
  | n + 1, a =>
    match a.dev.freeCell k p mayFree with
    | none => (none, a)
    | some b => let r := a.ftabRead ((b / 8 - a.dev.tierLo) / 32); if r.1 then (some b, r.2) else Acc.takeCell k p mayFree n r.2

/-- A free frame of the tier pool, one of the reserve, and blocks of the tier pool, for whoever allocates. -/
def Acc.poolFrame (a : Acc) : Option Nat × Acc := Acc.takeFrame a.dev.tierLo a.dev.tierHi (a.dev.ftabCount + 1) a
def Acc.reserveFrame (a : Acc) : Option Nat × Acc := Acc.takeFrame a.dev.tierHi a.dev.resHi (a.dev.ftabCount + 1) a
def Acc.poolCell (a : Acc) (k : Nat) (p : Nat → Bool) (mayFree : Bool) : Option Nat × Acc := Acc.takeCell k p mayFree (a.dev.ftabCount + 1) a

/-- R224: a page-map line is lost: its eight entries become VOID with reason MEDIA. The blocks of the cells and of the frames that they named
count as ORPHAN until the orphan sweep; such a frame stands as a CELLS frame with every block used. R224 does not say what becomes of the
dirty hot lines of those pages: they are discarded, those that wait for re-encoding too (DESIGN CHOICE, log entry 110). -/
def Acc.pmapLost (a : Acc) (w pg : Nat) (inj : Bool) : Acc :=
  let l := (a.dev.pmapLoc w pg).1
  let v := ((List.range 8).map (fun j => peVoid poisonMedia * 2 ^ (64 * j))).sum
  let first := a.dev.winBase w / 4096 + (pg - a.dev.winBase w / 4096) / 8 * 8
  let mine := fun (p : Nat) => decide (first ≤ p) && decide (p < first + 8)
  let lost := ((a.dev.tier.cells.filter (fun e => mine e.2.page)).map (fun e => e.2.cls)).sum +
    8 * (a.dev.tier.frames.filter (fun e => (framePage e.2).any mine)).length
  (a.upd (fun d =>
    let orphan := fun (e : Nat × (Nat × Nat)) => if (framePage e.2).any mine then (e.1, (if e.2.1 = 1 then 2 else 4, 0xff)) else e
    let d := { d with tier := { d.tier with cells := d.tier.cells.filter (fun e => !mine e.2.page)
                                            frames := d.tier.frames.map orphan
                                            hlc := d.tier.hlc.filter (fun e => !mine (e.2.x / 4))
                                            reQ := d.tier.reQ.filter (fun e => !mine (e.x / 4)) } }
    let d := (d.drop (fCDC_WUSE_BLOCKS w) lost).putMeta 1 l v true
    let d := (d.setFlag fCDC_STS_PMAP_ERR true).setFlag fCDC_STS_ORPHAN_SWEEP true
    (d.raise { src := src 30 0, sev := 2, obj := w, addr := 64 * l, akind := 2, inj := inj }).recount)).trimMeta 1 l

/-- The entry of the tier map cache that holds a line: set * 8 + way (Table 15.11), the way by log entry 14. -/
def Dev.pmapPlace (d : Dev) (l : Nat) : Nat :=
  metaSet 1 l * 8 + placeOf (d.sec.mlines.filter (fun e => e.2.kind == 1 && metaSet 1 e.1 == metaSet 1 l)) l

/-- A page-map line through the tier map cache; none when it is uncorrectable. -/
def Acc.pmapLine (a : Acc) (l : Nat) : Option Nat × Acc :=
  match a.metaHeld (src 30 4) (a.dev.pmapPlace l) l 2 with
  | (some v, a) => (v, a)
  | (none, a) =>
    match a.rdQueued l 4 none with
    | (.inl v, a) => (some v, a.fillMeta 1 l v)
    | (.inr _, a) => (none, a)

/-- The bank of a page; codec clusters take pages the same way. -/
def hlcBank (pg : Nat) : Nat := pageSlice pg % 4

/-- The page-map entry of a page. -/
def Acc.pent (a : Acc) (w pg : Nat) : Nat × Acc :=
  let x := a.dev.pmapLoc w pg
  let a := if (tfind a.dev.sec.mlines x.1).isNone then a.upd (fun d => d.pmu (36 + hlcBank pg) 0x56 0 8 1) else a
  match a.pmapLine x.1 with
  | (some v, a) =>
    let e := wordField v (64 * x.2) 64
    if peOk e then (e, a) else (peVoid poisonMedia, a.pmapLost w pg false)
  | (none, a) => (peVoid poisonMedia, a.pmapLost w pg false)

/-- The page-map entry of a page is written; CDC_WUSE follows. -/
def Acc.setPent (a : Acc) (w pg e : Nat) : Acc :=
  let x := a.dev.pmapLoc w pg
  match a.pmapLine x.1 with
  | (some v, a) =>
    let old := wordField v (64 * x.2) 64
    a.upd (fun d => (((d.putMeta 1 x.1 (wordPut v (64 * x.2) 64 e) true).bump (fCDC_WUSE_BLOCKS w) (peBlocks e)).drop
      (fCDC_WUSE_BLOCKS w) (peBlocks old)))
  | (none, a) => a

/-- The storage that an entry names is freed; a SUSPECT frame stays used until the sweep (R224). -/
def Dev.freeStorage (d : Dev) (e : Nat) : Dev :=
  if peState e = 1 then (if (d.frameOf (peLoc e / 8)).1 = 4 then d.setFrame (peLoc e / 8) 4 0xff else d.setFrame (peLoc e / 8) 0 0)
  else if peState e = 2 then d.dropCell (peLoc e) else d

/-! ### The hot-line cache (R207, R315) -/

/-- The set of a sub-block. -/
def hlcSet (x : Nat) : Nat := (List.range 5).foldl (fun s i => Nat.xor s (x / 2 ^ (9 * i) % 512)) 0

/-- The first key of a sub-block's set. -/
def hlcKey (x : Nat) : Nat := hlcBank (x / 4) * 8192 + hlcSet x * 16

/-- The way that holds a sub-block. -/
def Dev.hlcWay (d : Dev) (x : Nat) : Option Nat :=
  (List.range 16).find? (fun w => match tfind d.tier.hlc (hlcKey x + w) with
    | some e => e.x == x
    | none => false)

/-- The entry of a sub-block: in the cache, or in its re-encode queue. -/
def Dev.hlcEnt (d : Dev) (x : Nat) : Option HEnt :=
  match d.hlcWay x with
  | some w => tfind d.tier.hlc (hlcKey x + w)
  | none => d.tier.reQ.find? (fun e => e.x == x)

/-- A hit in the cache is a use of its way (R207). -/
def Dev.hlcTouch (d : Dev) (x : Nat) : Dev :=
  match d.hlcWay x with
  | some w => { d with tier := { d.tier with plru := tset (fun _ => 0) d.tier.plru (hlcKey x) (plruTouch (tget (fun _ => 0) d.tier.plru (hlcKey x)) w) } }
  | none => d

/-- An entry changes in place; a change in the cache is a use of its way. -/
def Dev.hlcPut (d : Dev) (x : Nat) (e : HEnt) : Dev :=
  match d.hlcWay x with
  | some w =>
    let p := tget (fun _ => 0) d.tier.plru (hlcKey x)
    { d with tier := { d.tier with hlc := tins d.tier.hlc (hlcKey x + w) e
                                   plru := tset (fun _ => 0) d.tier.plru (hlcKey x) (plruTouch p w) } }
  | none => { d with tier := { d.tier with reQ := d.tier.reQ.map (fun o => if o.x = x then e else o) } }

/-- The ways that a class may fill: QA (8) and a mask of 0 fill all. -/
def Dev.waysOf (d : Dev) (cls : Nat) : Nat :=
  let m := if cls < 8 then d.get (fQOS_CLS_WAYS cls) else 0
  if m = 0 then 0xffff else m

/-- Victims of a bank that wait for re-encoding. -/
def Dev.reQn (d : Dev) (bank : Nat) : Nat := (d.tier.reQ.filter (fun e => hlcBank (e.x / 4) == bank)).length

/-- R208, R209: an entry is allocated in the ways of a class; a dirty victim joins the re-encode queue of its bank. None when
that queue has no room for it. -/
def Dev.hlcAlloc (d : Dev) (cls : Nat) (e : HEnt) : Option Dev :=
  let key := hlcKey e.x
  let al := d.waysOf cls
  let way := ((List.range 16).find? (fun w => al.testBit w && (tfind d.tier.hlc (key + w)).isNone)).getD
    (plruPick (tget (fun _ => 0) d.tier.plru key) al)
  let v := tfind d.tier.hlc (key + way)
  let dirty := match v with
    | some o => o.dirty != 0
    | none => false
  if dirty && 64 ≤ d.reQn (hlcBank (e.x / 4)) then none
  else
    let d := match v with
      | some o => if dirty then { d with tier := { d.tier with reQ := d.tier.reQ ++ [o] } }.pmu 40 0x5A (hlcBank (e.x / 4)) 8 1 else d
      | none => d
    let p := tget (fun _ => 0) d.tier.plru key
    some { d with tier := { d.tier with hlc := tins d.tier.hlc (key + way) e
                                        plru := tset (fun _ => 0) d.tier.plru key (plruTouch p way) } }

/-- Bit i of a line mask. -/
def lineBit (i : Nat) : BitVec 16 := BitVec.ofNat 16 (2 ^ i)

/-- Line i of an entry, or a zero line. -/
def HEnt.line (e : HEnt) (i : Nat) : LineData := e.lines.getD i 0

/-- R208: a line is written into a sub-block's entry, valid and dirty, poison as given. -/
def HEnt.write (e : HEnt) (i : Nat) (data : LineData) (poison : Nat) : HEnt :=
  { e with lines := e.lines.set i data, valid := e.valid ||| lineBit i, dirty := e.dirty ||| lineBit i,
           poison := if poison = 0 then e.poison &&& ~~~(lineBit i) else e.poison ||| lineBit i
           reason := if poison = 0 then e.reason else poison }

/-- An entry without valid lines. -/
def HEnt.empty (x : Nat) : HEnt := ⟨x, List.replicate 16 0, 0, 0, 0, 0⟩

/-- R208: decoded data fills only the lines that are not dirty. -/
def HEnt.fill (e : HEnt) (lines : List LineData) : HEnt :=
  { e with lines := (List.range 16).map (fun i => if e.dirty.getLsbD i then e.line i else lines.getD i 0), valid := 0xffff,
           poison := e.poison &&& e.dirty }

/-- Every entry of a page leaves the cache and the queue. -/
def Dev.hlcDrop (d : Dev) (pg : Nat) : Dev :=
  { d with tier := { d.tier with hlc := d.tier.hlc.filter (fun e => e.2.x / 4 != pg), reQ := d.tier.reQ.filter (fun e => e.x / 4 != pg) } }

/-- R458: an injected error at the read of a sub-block's entry (log entry 16): one bit is corrected; two lose the entry, and
lines of it that were dirty become poison MEDIA. -/
def Dev.hlcRead (d : Dev) (x : Nat) : Dev :=
  match d.hlcWay x with
  | none => d
  | some w =>
    let b := hlcBank (x / 4)
    let e := hlcSet x * 16 + w
    let hit := fun (s : Nat) (d : Dev) =>
      let r := d.sramBits s e
      if r.1 = 0 then d
      else if r.1 = 1 then r.2.sramFixed s e
      else
        let d := r.2.raise { src := s, sev := 2, obj := e, inj := true }
        match tfind d.tier.hlc (hlcKey x + w) with
        | some h =>
          if h.dirty = 0 then { d with tier := { d.tier with hlc := tdel d.tier.hlc (hlcKey x + w) } }
          else d.hlcPut x { h with valid := h.dirty, poison := h.dirty, reason := poisonMedia }
        | none => d
    hit (src 29 (2 * b + 1)) (hit (src 29 (2 * b)) d)

/-! ### Losses (R221) -/

/-- The page of an entry leaves every store: it becomes VOID with a reason. -/
def Acc.voidPage (a : Acc) (w pg reason : Nat) : Acc :=
  let r := a.pent w pg
  let a := r.2.setPent w pg (peVoid reason)
  a.upd (fun d => (d.freeStorage r.1).hlcDrop pg)

/-- R221: a page is lost, with a reason, and recorded. -/
def Acc.losePage (a : Acc) (w pg reason : Nat) : Acc :=
  (a.voidPage w pg reason).upd (fun d =>
    let d := (d.setFlag fCDC_STS_LOSS true).setFlag fCDC_LEVEL_EXHAUSTED true
    let d := if reason = poisonCapacity then d.bumpSat (fCDC_WLOST_CAPACITY w) 1 else d.bumpSat (fCDC_WLOST_DISCARDED w) 1
    d.raise { src := src 30 2, sev := 2, code := reason, obj := w, addr := pg * 4096, akind := 1 })

/-- A drop by the discard sweeper (R222). -/
def Acc.sweepDrop (a : Acc) (w pg : Nat) : Acc :=
  (a.voidPage w pg poisonDiscarded).upd (fun d => d.bumpSat (fCDC_WLOST_DISCARDED w) 1)

/-- R185: both leaves of a page are QUAR, in line form and without minors; a leaf that is lost itself is left to its rebuild. -/
def Acc.quarLeaves (a : Acc) (n pg : Nat) : Acc :=
  [a.dev.leafOf n (pg * 64), a.dev.leafOf n (pg * 64) + 1].foldl (fun (a : Acc) j =>
    match a.fetch n 0 j with
    | (.ok v, a) =>
      a.upd (fun d => (d.quarLeaf n j true).putNode n 0 j
        (leafNode (leafMajor v) 0 (nodeFlags v / 4 * 4 + 2)) true)
    | (_, a) => a) a

/-- R185: the pages in cell form with a leaf under a lost node are lost as a whole. -/
def Acc.loseCells (a : Acc) (q : Quar) : Acc :=
  let lo := a.dev.krBase q.n + q.idx * 8 ^ q.level * 2048
  let hi := a.dev.coverEnd q.n q.level q.idx
  let pages := ((a.dev.tier.cells.map (fun e => e.2.page)).filter (fun pg => lo / 4096 ≤ pg && pg * 4096 < hi)).eraseDups
  pages.foldl (fun (a : Acc) pg => match a.dev.winOf (pg * 4096) with
    | some w => (a.voidPage w pg poisonTreeMedia).quarLeaves q.n pg
    | none => a) a

/-- R185 for the subtrees that a command quarantined; losing a page may show a further lost leaf. -/
def Acc.settleQuar : Nat → Acc → Acc
  | 0, a => a
  | f + 1, a =>
    match a.dev.sec.quar.filter (fun q => q.new) with
    | [] => a
    | l =>
      let a := a.upd (fun d => { d with sec := { d.sec with quar := d.sec.quar.map (fun (q : Quar) => { q with new := false }) } })
      Acc.settleQuar f (l.foldl Acc.loseCells a)

/-! ### Allocation (R221) -/

/-- What an allocation gives: a block, or the loss of the page. -/
inductive Place where
  | at (block : Nat)
  | lose (reason : Nat)
deriving DecidableEq, Repr

/-- R221 steps 2 to 5: where the tier pool has no room. -/
def Acc.placeLow (a : Acc) (w pg : Nat) : Place × Acc :=
  if a.dev.winKind w != 1 && a.pageFree w pg then (.lose poisonDiscarded, a)
  else
    match a.reserveFrame with
    | (some f, a) => (.at (8 * f), a)
    | (none, a) => (.lose poisonCapacity, a)

/-- R221: a frame for a NEAR page. -/
def Acc.placeNear (a : Acc) (w pg : Nat) : Place × Acc :=
  match a.poolFrame with
  | (some f, a) => (.at (8 * f), a)
  | (none, a) => a.placeLow w pg

/-- R221: blocks for a cell. -/
def Acc.placeCell (a : Acc) (w pg k : Nat) : Place × Acc :=
  match a.poolCell k (fun _ => true) true with
  | (some b, a) => (.at b, a)
  | (none, a) => a.placeLow w pg

/-! ### Counters of page forms (R178, R210) -/

/-- A leaf of a page that is written in a new form under a new MAJOR, every MINOR 0; put says which of its lines are written. In a QUAR leaf
the lines written in line form take MINOR 1, as in R177, and a cell rewrites the whole group, so that QUAR clears (R186; DEDUCED, log
entry 114). -/
def pageLeaf (v m : Nat) (cell : Bool) (put : Nat → Bool) : Nat :=
  let fl := nodeFlags v / 2 * 2 + cell.toNat
  if !leafQuar v then leafNode m 0 fl
  else if cell then leafNode m 0 (fl - 2)
  else unQuar ((List.range 32).foldl (fun x i => if put i then wordPut x (64 + 12 * i) 12 1 else x) (leafNode m 0 fl))

/-- R178: both leaves of a page take a new MAJOR and the CELL flag as given; put says which lines are written. The major, and the MINOR of
the lines written in each leaf; none when a leaf cannot be had. -/
def Acc.pageMajor (a : Acc) (n pg : Nat) (cell : Bool) (put : Nat → Bool) : Option (Nat × Nat × Nat) × Acc :=
  if a.dev.krFresh n then
    let j := a.dev.leafOf n (pg * 64)
    match a.fetch n 0 j with
    | (.ok v0, a) =>
      match a.fetch n 0 (j + 1) with
      | (.ok v1, a) =>
        let m := max (leafMajor v0) (leafMajor v1) + 1
        let minor := fun (v : Nat) => (leafQuar v && !cell).toNat
        let leaf := fun (d : Dev) (j v : Nat) (put : Nat → Bool) =>
          let x := pageLeaf v m cell put
          (if leafQuar v && !leafQuar x then d.quarLeaf n j false else d).putNode n 0 j x true
        let a := a.upd (fun d => leaf (leaf d j v0 put) (j + 1) v1 (fun i => put (32 + i)))
        (some (m, minor v0, minor v1), if majorMax ≤ m then a.upd (fun d => d.exhaust n) else a)
      | (_, a) => (none, a)
    | (_, a) => (none, a)
  else (some (0, 0, 0), a)

/-- The leaves of a page stand in cell form. -/
def Acc.inCell (a : Acc) (n pg : Nat) : Bool × Acc :=
  if a.dev.krFresh n then
    match a.fetch n 0 (a.dev.leafOf n (pg * 64)) with
    | (.ok v, a) => (leafCell v, a)
    | (_, a) => (false, a)
  else (false, a)

/-! ### Page data -/

/-- A line with its poison reason, 0 for none. -/
abbrev PLine := LineData × Nat

/-- The newest data of line i of a NEAR page: the line buffer's, else the stored line's, read from a source row of Table 5.3. None: the
security halt. -/
def Acc.nearLine (a : Acc) (w pg frame i source : Nat) : Option PLine × Acc :=
  let dl := pg * 64 + i
  match tfind a.dev.home.lbuf dl with
  | some b => (some (b.data, b.poison), a)
  | none =>
    let l := a.dev.redirect (frame * 4096 + i * 64) / 64
    match a.rdQueued l source (some (dl * 64)) with
    | (.inr r, a) => (some (0, r), a)
    | (.inl v, a) =>
      match a.openLine (a.dev.winKr w) dl v 1 with
      | (.data x, a) => (some (BitVec.ofNat 512 x, 0), a)
      | (.poison r, a) => (some (0, r), a)
      | (.halt, a) => (none, a)

/-- The 64 lines of a NEAR page. -/
def Acc.nearLines (a : Acc) (w pg frame : Nat) : Option (List PLine) × Acc :=
  (List.range 64).foldl (fun (r : Option (List PLine) × Acc) i =>
    match r with
    | (some l, a) =>
      match a.nearLine w pg frame i 5 with
      | (some x, a) => (some (l ++ [x]), a)
      | (none, a) => (none, a)
    | (none, a) => (none, a)) (some [], a)

/-! ### Cells (R201, R202, R205) -/

/-- MPA line j of the cell that an entry names. -/
def Dev.cellLine (d : Dev) (e j : Nat) : Nat := d.redirect (peLoc e * 512 + j * 64) / 64

/-- What stored lines of a cell give: their plaintext, a poison reason, or the halt. -/
inductive CellRes where
  | lines (l : List LineData)
  | poison (reason : Nat)
  | halt

/-- Stored lines of the cell of a page are read (their requests join the far path's queue where they have not yet), verified and
decrypted. -/
def Acc.cellLines (a : Acc) (w pg e : Nat) (js : List Nat) (queued : Bool) (source : Nat) : CellRes × Acc :=
  let n := a.dev.winKr w
  js.foldl (fun (r : CellRes × Acc) j =>
    match r.1 with
    | .lines got =>
      let a := r.2
      let l := a.dev.cellLine e j
      let a := if queued then a else a.access l 1 none
      match a.rdStored l 1 (some (pg * 4096 + j * 64)) with
      | (.inr _, a) => (.poison poisonMedia, a)
      | (.inl v, a) =>
        match a.openCell n (a.dev.slotFor n (pg * 4096)) pg j v source with
        | (.data x, a) => (.lines (got ++ [BitVec.ofNat 512 x]), a)
        | (.poison p, a) => (.poison p, a)
        | (.halt, a) => (.halt, a)
    | _ => r) (.lines [], a)

/-- R202: a sub-block whose stream is malformed. -/
def Dev.malformed (d : Dev) (pg i : Nat) : Dev :=
  (d.setFlag fCDC_STS_DEC_ERR true).raise { src := src (25 + hlcBank pg) 1, sev := 2, addr := pg * 4096 + i * 1024, akind := 1 }

/-- R201, R202: sub-block i of the cell of a page: 16 lines, or the reason of all of them; none after a halt. A raw cell is read line by
line. -/
def Acc.farSub (a : Acc) (w pg e i : Nat) (queued : Bool) (source : Nat) : Option (List PLine) × Acc :=
  if peCls e = 7 then
    (List.range 16).foldl (fun (r : Option (List PLine) × Acc) j =>
      match r.1 with
      | some got =>
        match r.2.cellLines w pg e [16 * i + j] queued source with
        | (.lines l, a) => (some (got ++ [(l.headD 0, 0)]), a)
        | (.poison p, a) => (some (got ++ [(0, p)]), a)
        | (.halt, a) => (none, a)
      | none => r) (some [], a)
  else
    match a.cellLines w pg e (subRange (peCls e) (peSb e) i) queued source with
    | (.halt, a) => (none, a)
    | (.poison p, a) => (some (List.replicate 16 (0, p)), a)
    | (.lines l, a) =>
      match decodeSub (tfind a.dev.tier.cells (peLoc e)) i l with
      | some x => (some (x.map (·, 0)), a.upd (fun d => d.pmu (36 + hlcBank pg) 0x51 0 8 1))
      | none => (some (List.replicate 16 (0, poisonMedia)), a.upd (fun d => d.malformed pg i))

/-- The lines of a sub-block with what its entry of the hot-line cache holds. -/
def HEnt.over (h : Option HEnt) (l : List PLine) : List PLine :=
  match h with
  | some h => (List.range 16).map (fun i => if h.valid.getLsbD i then (h.line i, if h.poison.getLsbD i then h.reason else 0) else l.getD i (0, 0))
  | none => l

/-- R209 step 1: sub-block i of a FAR or VOID page: the valid lines of the cache, the others decoded from the cell, or zeros. -/
def Acc.newestSub (a : Acc) (w pg e i source : Nat) : Option (List PLine) × Acc :=
  let h := a.dev.hlcEnt (pg * 4 + i)
  let full := match h with
    | some h => h.valid == 0xffff
    | none => false
  if peState e = 2 ∧ full = false then
    match a.farSub w pg e i false source with
    | (some l, a) => (some (HEnt.over h l), a)
    | (none, a) => (none, a)
  else (some (HEnt.over h (List.replicate 16 (0, if peState e = 0 then peCls e else 0))), a)

/-- R209 step 1: the 64 lines of a FAR or VOID page; none after a halt. -/
def Acc.farPage (a : Acc) (w pg e source : Nat) : Option (List PLine) × Acc :=
  (List.range 4).foldl (fun (r : Option (List PLine) × Acc) i =>
    match r.1 with
    | some got =>
      match r.2.newestSub w pg e i source with
      | (some l, a) => (some (got ++ l), a)
      | (none, a) => (none, a)
    | none => r) (some [], a)

/-! ### Effort and entries of coded pages -/

/-- Table 8.7: the effort in force. -/
def Dev.effort (d : Dev) : Nat := if d.get fCDC_LEVEL_LEVEL = 0 then d.get fCDC_CTL_EFFORT_G else d.get fCDC_CTL_EFFORT_A

/-- The FAR entry of a coded page. -/
def peFar (b : Nat) (c : Coded) (acc : Nat) : Nat :=
  peOf 2 (c.cls - 1) b (if c.cls = 8 then 0 else c.s1 + c.s2 * 64 + c.s3 * 4096) acc

/-! ### Placing a page -/

/-- R178, R206, R210: the lines of a page are written to a frame in line form under one MAJOR and the MINOR of each leaf, poisoned ones as
markers; the minors of markers stay 0. -/
def Acc.writeFrame (a : Acc) (w pg frame : Nat) (lines : List PLine) (ctr : Nat × Nat × Nat) : Acc :=
  let n := a.dev.winKr w
  let s := a.dev.slotFor n (pg * 4096)
  (lines.zipIdx).foldl (fun a x =>
    let l := a.dev.redirect (frame * 4096 + x.2 * 64) / 64
    if x.1.2 != 0 then a.wrQueued l 5 (markerWord x.1.2)
    else
      let r := a.sealWith n s (pg * 64 + x.2) x.1.1.toNat (if x.2 < 32 then ctr.2.1 else ctr.2.2) ctr.1
      r.2.wrQueued l 5 r.1) a

/-- A page enters near form at a frame: the counters, the lines, then the page map. False: a leaf could not be had. -/
def Acc.intoNear (a : Acc) (w pg frame : Nat) (lines : List PLine) (old acc : Nat) : Bool × Acc :=
  match a.pageMajor (a.dev.winKr w) pg false (fun i => (lines.getD i (0, 0)).2 == 0) with
  | (none, a) => (false, a)
  | (some m, a) =>
    let a := a.upd (fun d => d.setFrame frame 1 pg)
    let a := (a.writeFrame w pg frame lines m).setPent w pg (peNear frame acc)
    (true, a.upd (fun d => (d.freeStorage old).hlcDrop pg))

/-- R164: the stored lines of a cell at a block are encrypted in cell form under a page major and written. -/
def Acc.writeCell (a : Acc) (w pg b major : Nat) (stored : List LineData) : Acc :=
  let n := a.dev.winKr w
  (stored.zipIdx).foldl (fun (a : Acc) x =>
    let r := a.sealCell n (a.dev.slotFor n (pg * 4096)) pg x.2 x.1.toNat major
    r.2.wrQueued (r.2.dev.redirect (b * 512 + x.2 * 64) / 64) 1 r.1) a

/-- R178, R209 step 3: a page's cell, coded at an effort level, is stored at a block: the counters, the cell, then the page map. R209 does not
say what becomes of the page's hot-line entries: each leaves the cache, clean ones too (DESIGN CHOICE, log entry 111). -/
def Acc.intoCell (a : Acc) (w pg b eff : Nat) (c : Coded) (lines : List LineData) (old acc : Nat) : Bool × Acc :=
  match a.pageMajor (a.dev.winKr w) pg true (fun _ => true) with
  | (none, a) => (false, a)
  | (some m, a) =>
    let a := a.upd (fun d => d.putCell b ⟨pg, c.cls, eff, lines⟩)
    let a := (a.writeCell w pg b m.1 c.stored).setPent w pg (peFar b c acc)
    (true, a.upd (fun d => (if peState old = 2 ∧ peLoc old = b then d else d.freeStorage old).hlcDrop pg))

/-- R206, R221: a page goes to near form under the allocation rule. -/
def Acc.sendNear (a : Acc) (w pg : Nat) (lines : List PLine) (old : Nat) : Acc :=
  match a.placeNear w pg with
  | (.at b, a) => (a.intoNear w pg (b / 8) lines old (peAcc old)).2
  | (.lose r, a) => a.losePage w pg r

/-- R209: a page's dirty lines are written out: gathered, encoded and stored, or sent to near form. -/
def Acc.reencode (a : Acc) (w pg : Nat) : Acc :=
  let r := a.pent w pg
  let old := r.1
  match r.2.farPage w pg old 1 with
  | (none, a) => a
  | (some pl, a) =>
    let lines := pl.map (·.1)
    if pl.any (fun x => x.2 != 0) then a.sendNear w pg pl old
    else
      let eff := a.dev.effort
      let c := encodePage eff lines
      let a := a.upd (fun d => let d := d.pmu (36 + hlcBank pg) 0x52 0 8 1; if c.cls = 8 then d.pmu (36 + hlcBank pg) 0x53 0 8 1 else d)
      if peState old = 2 && c.cls ≤ peCls old + 1 then (a.intoCell w pg (peLoc old) eff c lines old (peAcc old)).2
      else
        match a.placeCell w pg c.cls with
        | (.at b, a) => (a.intoCell w pg b eff c lines old (peAcc old)).2
        | (.lose x, a) => a.losePage w pg x

/-- The pages with a dirty entry in the cache or the queue. -/
def Dev.dirtyPages (d : Dev) : List Nat :=
  let c := (d.tier.hlc.filter (fun e => e.2.dirty != 0)).map (fun e => e.2.x / 4)
  let q := d.tier.reQ.map (fun e => e.x / 4)
  (c ++ q).eraseDups

/-- R226: the counters are rebuilt from the frame table, all of which is read; frames found BUSY, and those of lines that cannot be read, are
SUSPECT, for the orphan sweep. -/
def Acc.poolRebuild (a : Acc) : Acc :=
  let a := (List.range a.dev.ftabCount).foldl (fun (a : Acc) i => (a.ftabRead i).2) a
  a.upd (fun d =>
    let busy := d.tier.frames.any (fun e => e.2.1 == 3 || e.2.1 == 4)
    let d := { d with tier := { d.tier with rebuild := false, frames := d.tier.frames.map (fun (e : Nat × (Nat × Nat)) => if e.2.1 = 3 then (e.1, (4, e.2.2)) else e) } }
    (if busy then d.setFlag fCDC_STS_ORPHAN_SWEEP true else d).recount)

/-- R225: every dirty entry is written out; a rebuild of the counters that still runs ends first, since this allocates (R226). -/
def Acc.flushHlc (a : Acc) : Acc :=
  let a := if a.dev.tier.rebuild && !a.dev.dirtyPages.isEmpty then a.poolRebuild else a
  a.dev.dirtyPages.foldl (fun a pg => match a.dev.winOf (pg * 4096) with
    | some w => a.reencode w pg
    | none => a.upd (fun d => d.hlcDrop pg)) a

/-! ### First writes (R208, R210, R213) -/

/-- R210, R213: a VOID page takes a frame. The lines not written are markers of its reason; for reason 0 they are zeros, or what its dirty
hot lines hold (R208). Markers advance no minor. False: the page was lost, or a leaf could not be had. -/
def Acc.firstWrite (a : Acc) (w pg : Nat) : Bool × Acc :=
  let r := a.pent w pg
  let reason := peCls r.1
  match r.2.placeNear w pg with
  | (.lose x, a) => (false, a.losePage w pg x)
  | (.at b, a) =>
    let n := a.dev.winKr w
    let q := a.inCell n pg
    let f := b / 8
    if reason = 0 || q.1 then
      match q.2.farPage w pg r.1 1 with
      | (some l, a) => a.intoNear w pg f l r.1 (peAcc r.1)
      | (none, a) => (false, a)
    else
      let a := q.2.upd (fun d => d.setFrame f 1 pg)
      (true, (a.writeFrame w pg f (List.replicate 64 (0, reason)) (0, 0, 0)).setPent w pg (peNear f (peAcc r.1)))

/-! ### Access counting (R212) -/

/-- R212: an access by a host or a job slice counts, at most once in 1 µs; a FAR page that reaches PROMOTE_AT at GREEN, or of
a PIN_NEAR window, joins the promotion queue of its cluster (256). -/
def Acc.countAcc (a : Acc) (w pg e : Nat) : Acc :=
  let last := tfind a.dev.tier.lastAcc pg
  let due := match last with
    | some t => decide (t + 1000 ≤ a.dev.now)
    | none => true
  let pin := a.dev.get (fCDC_WPOL_MODE w) = 1
  let room := (a.dev.tier.promoQ.filter (fun p => hlcBank p == hlcBank pg)).length < 256 && !a.dev.tier.promoQ.contains pg
  let acc := min (peAcc e + 1) 63
  let a := if due then
      let a := if peAcc e = acc then a else a.setPent w pg (wordPut e 58 6 acc)
      a.upd (fun d => { d with tier := { d.tier with lastAcc := tins d.tier.lastAcc pg d.now } })
    else a
  let at_ := a.dev.get fCDC_THR_PROMOTE_AT
  let hot := due && at_ != 0 && peAcc e < acc && acc == at_ && a.dev.get fCDC_LEVEL_LEVEL == 0
  if peState e == 2 && room && (pin || hot) then
    a.upd (fun d => { d with tier := { d.tier with promoQ := d.tier.promoQ ++ [pg] } })
  else a

/-- The entry of a page at an access, counted where it is one of a host or a job slice. -/
def Acc.pentCount (a : Acc) (w pg : Nat) (count : Bool) : Nat × Acc :=
  let r := a.pent w pg
  if count then (r.2.countAcc w pg r.1).pent w pg else r

/-- R212: accesses that count. -/
def Origin.counts : Origin → Bool
  | .host => true
  | .jobRead _ => true
  | .jobWrite _ => true
  | _ => false

end Sys2Proof.Machine
end

