-- ==== Sys2Proof/Machine/Resp.lean ====
section
/-! DEFINITION. Responses with their DevLoad, samples and monitor counts (02_host_links.md R57, 18_telemetry.md R427 to R429),
and the open transactions of the home slices (R85, R313). -/

namespace Sys2Proof.Machine

/-! ### DevLoad (R57, Table 2.4) -/

/-- The DevLoad of a response on port p: the higher of the port level and the floors that apply. -/
def Dev.devLoad (d : Dev) (p : Nat) (tiered : Bool) : Nat :=
  max (max (d.get (fPDV_DEVLOAD_LEVEL p)) (if d.flag (fPDV_DEVLOAD_FLOOR_ESC p) then 2 else 0))
    (max (max (if tiered && d.flag (fPDV_DEVLOAD_FLOOR_AMBER p) then 2 else 0) (if tiered && d.flag (fPDV_DEVLOAD_FLOOR_RED p) then 3 else 0))
      (if d.flag (fPDV_DEVLOAD_FLOOR_THERM p) then 3 else 0))

/-! ### Kinds of requests -/

/-- A read: its response carries data. -/
def ROp.isRead : ROp → Bool
  | .rd _ => true
  | .rdData => true
  | _ => false

/-- A write. -/
def ROp.isWrite : ROp → Bool
  | .wr _ _ _ => true
  | .wrPtl _ _ _ _ => true
  | _ => false

/-- A request that carries or returns a line (R310). -/
def ROp.hasData (o : ROp) : Bool := o.isRead || o.isWrite

/-- OPC and META of a SAMPLE packet. -/
def ROp.opc : ROp → Nat
  | .rd _ => 0
  | .rdData => 1
  | .inv _ => 2
  | .invNT => 3
  | .wr _ _ _ => 4
  | .wrPtl _ _ _ _ => 5
  | .clnEvct => 6

/-- META: 0 I, 1 A, 2 S. -/
def metaCode : Meta → Nat
  | .i => 0
  | .a => 1
  | .s => 2

def ROp.mv : ROp → Nat
  | .rd m => metaCode m
  | .inv m => metaCode m
  | .wr m _ _ => metaCode m
  | .wrPtl m _ _ _ => metaCode m
  | _ => 0

/-! ### Samplers -/

/-- The sampler of port p. -/
def Dev.smpOf (d : Dev) (p : Nat) : SmpS := (tfind d.smp p).getD {}

/-- A flag of the followed request of a port, if it is this one (Table 18.3). -/
def Dev.smpFlag (d : Dev) (q : Req) (bit : Nat) : Dev :=
  let s := d.smpOf q.head
  match s.fol with
  | some f => if q.org = .host ∧ f.tag = q.tag then { d with smp := tins d.smp q.head { s with fol := some { f with flags := f.flags ||| 2 ^ bit } } } else d
  | none => d

/-- R429: the stages of Table 18.3 that a followed request may have passed, in the order of their fields: RX, HOLD, FE, SLICE, SNOOP,
META_T, QUEUE, DRAM, BACK, TX. -/
def Dev.stagesPassed (d : Dev) (f : Follow) (q : Req) (outcome : Nat) : List Bool :=
  let bit := fun (k : Nat) => f.flags.testBit k
  let served := outcome != 2
  let rd := served && q.op.isRead && !bit 0
  [true, bit 8, true, served, served && d.winShared f.win && (!q.op.isRead || bit 5 || bit 6),
   served && !bit 0 && (d.winTiered f.win || decide (2 ≤ d.krMode (d.winKr f.win))), rd && !bit 1, rd && !bit 1,
   rd || (served && q.op.isWrite && d.winMirrored f.win), true]

/-- R429: the ns charged to each stage: a free value where it was passed, else 0. -/
def Dev.stageTimes (d : Dev) : List Bool → List Nat × Dev
  | [] => ([], d)
  | true :: t => let r := Dev.stageTimes d.free.2 t; (d.free.1 % 2 ^ 32 :: r.1, r.2)
  | false :: t => let r := Dev.stageTimes d t; (0 :: r.1, r.2)

/-- The followed request of q's port, where it is q. -/
def Dev.followed (d : Dev) (q : Req) : Option Follow := (d.smpOf q.head).fol.filter (fun f => q.org = .host ∧ f.tag = q.tag)

/-- R429: the stage times of a request that ends; none where no sampler follows it. -/
def Dev.stages (d : Dev) (q : Req) (outcome : Nat) : List Nat × Dev :=
  match d.followed q with
  | some f => d.stageTimes (d.stagesPassed f q outcome)
  | none => ([], d)

/-- R428, R429: the followed request ends: its SAMPLE packet goes to the port's ring; each stage field saturates at 65,535. -/
def Dev.smpEnd (d : Dev) (q : Req) (outcome : Nat) (ns : List Nat) : Dev :=
  match d.followed q with
  | some f =>
      let d := { d with smp := tins d.smp q.head { d.smpOf q.head with fol := none } }
      let un := outcome == 2
      let fld := fun (k : Nat) => min (ns.getD k 0) 65535
      let word := fun (k : Nat) => fld k + fld (k + 1) * 2 ^ 16 + fld (k + 2) * 2 ^ 32 + fld (k + 3) * 2 ^ 48
      let w1 := f.hpa % 2 ^ 52 + f.alias_ * 2 ^ 52 + q.head * 2 ^ 55 + f.cls * 2 ^ 60
      let w2 := (if un then 0 else f.dpa + f.win * 2 ^ 46) + f.opc * 2 ^ 54 + f.mv * 2 ^ 57 + outcome * 2 ^ 59
      ((d.ringPut (d.get (fSMP_CTL_RING q.head)) 2 [f.time, w1, w2, word 0, word 4, fld 8 + fld 9 * 2 ^ 16 + f.flags % 2 ^ 8 * 2 ^ 32]).bumpSat
        (fSMP_STS_TAKEN q.head) 1).pmu 43 0x7D 0 8 1
  | none => d

/-- R427: a request passes the sampler of its port: counted if it passes the filters, followed if it is the one drawn. -/
def Dev.smpCount (d : Dev) (q : Req) (hpa : Nat) : Dev :=
  let p := q.head
  let n := d.get (fSMP_CTL_N p)
  let cm := d.get (fSMP_CTL_CLASSMASK p)
  let k := d.get (fSMP_CTL_KIND p)
  let pass := n != 0 && (cm == 0 || cm.testBit q.cls) && (if k = 1 then q.op.isRead else if k = 2 then q.op.isWrite else true)
  if pass then
    let s := d.smpOf p
    let s := if s.cnt = 0 then { s with offset := Config.samplerDraw d.freeN % n } else s
    let d := if s.cnt = 0 then { d with freeN := d.freeN + 1 } else d
    let sel := s.cnt == s.offset
    let next := if n ≤ s.cnt + 1 then 0 else s.cnt + 1
    let d := if sel && s.fol.isSome then d.bumpSat (fSMP_STS_SKIP p) 1 else d
    let fol := if sel && s.fol.isNone then
        some ({ tag := q.tag, time := d.now, hpa := hpa, alias_ := q.alias_, cls := q.cls, dpa := q.dpa, win := q.win,
                opc := q.op.opc, mv := q.op.mv, flags := 0 } : Follow)
      else s.fol
    { d with smp := tins d.smp p { s with cnt := next, fol := fol } }
  else d

/-! ### Responses -/

/-- TGT_NS of a port as it acts (R122, R58, R323). -/
def Dev.target (d : Dev) (p : Nat) : Nat :=
  let t := d.get (fMCH_PTGT_TGT_NS p)
  if t = 0 then 0 else min (max t 50) 50000

/-- A response leaves on the link of a head; none leaves a link that is down (R60). -/
def Dev.respondTo (d : Dev) (h tag : Nat) (r : Rsp) (tiered : Bool) : Dev :=
  if (d.portOf h).up then
    let dl := d.devLoad h tiered
    let d := d.emit (.rsp h tag r dl)
    if 2 ≤ dl then d.pmuLnk h 0x16 8 1 else d
  else d

/-- Counts of a completed read (R58, R323, events 0x17 and 0x18): its latency is a free value, or the sum of its stages (R429). -/
def Dev.readDone (d : Dev) (q : Req) (ns : List Nat) : Dev :=
  let f := if ns.isEmpty then (d.free.1 % 2 ^ 32, d.free.2) else (ns.sum, d)
  let lat := f.1
  let d := f.2.updPort q.head (fun s => { s with reads := s.reads + 1, latSum := s.latSum + lat })
  let d := (d.pmuLnk q.head 0x17 q.cls 1).pmuLnk q.head 0x18 q.cls lat
  if q.conf && d.target q.head != 0 && d.target q.head < lat then d.bump (fQOS_PORT_LATE_COUNT q.head) 1 else d

/-- R61: the head of a request has sent viral, so that a read of it completes with poison HALT. -/
def Dev.viralRead (d : Dev) (q : Req) : Bool := q.op.isRead && (d.portOf q.head).viral

/-- An agent that comes back to learn what became of its write. -/
def Origin.collects : Origin → Bool
  | .jobWrite _ => true
  | .record _ _ => true
  | .export_ _ => true
  | _ => false

/-- The write of an agent has been applied, or dropped: its agent will learn of it. -/
def Dev.wroteFor (d : Dev) (q : Req) (lost : Bool) (msg : Option Nat) : Dev :=
  if q.org.collects then { d with home := { d.home with wrote := d.home.wrote ++ [(q.org, q.dpa / 64, lost, msg)] } } else d

/-- The response to a request: for a host, with its records; outcome as in Table 18.3. -/
def Dev.finish (d : Dev) (q : Req) (r : Rsp) (outcome : Nat) : Dev :=
  if q.org = .host then
    let outcome := if d.viralRead q then 1 else outcome
    let r := if d.viralRead q then .data 0 poisonHalt 0 else r
    let d := d.respondTo q.head q.tag r (d.winTiered q.win && outcome != 2)
    let st := d.stages q outcome
    let d := if q.op.isRead && (d.portOf q.head).up then st.2.readDone q st.1 else st.2
    let d := match r with
      | .data _ p _ => if p = 0 then d else d.emit (.mediaEvent q.head q.dpa p)
      | _ => d
    d.smpEnd q outcome st.1
  else d

/-- Data, or poison with its reason. -/
def Dev.respData (d : Dev) (q : Req) (x : LineData × Nat) (mv : Nat) : Dev :=
  d.finish q (.data x.1 x.2 mv) (if x.2 = 0 then 0 else 1)

/-- A completion. -/
def Dev.respCmp (d : Dev) (q : Req) (r : Rsp) : Dev := d.finish q r 0

/-- R457: a dropped write completes with a plain Cmp and changes nothing. -/
def Dev.respDrop (d : Dev) (q : Req) : Dev := (d.finish q .cmp 3).wroteFor q false none

/-- A request that is answered without service: reads with poison, writes dropped, others completed with no effect. -/
def Dev.refuseReq (d : Dev) (q : Req) (reason : Nat) : Dev :=
  if q.op.isRead then d.respData q (0, reason) 0
  else if q.op.isWrite then d.respDrop q else d.respCmp q .cmp

/-- The NDR of a write by its MetaValue (Table 4.3). -/
def wrRsp : Meta → Rsp
  | .i => .cmp
  | .s => .cmpS
  | .a => .cmpM

/-! ### Open transactions (R85, R101, R313) -/

/-- PINNED of a slice: its pinned directory cache entries (R101). -/
def Dev.pinStats (d : Dev) (sl : Nat) : Dev :=
  d.set (fHOME_SLICE_STS_PINNED sl) ((d.home.dcache.filter (fun e => lineSlice e.2.line == sl && d.pinned e.2.line)).length)

/-- A transaction opens. -/
def Dev.openTrans (d : Dev) (t : Trans) : Dev :=
  { d with home := { d.home with trans := d.home.trans ++ [t] } }.pinStats (lineSlice t.line)

/-- R426: a top-down slot is retired with a request that advances, or wasted on one that does not; an agent's counts as QA. -/
def Dev.topDown (d : Dev) (q : Req) (code : Nat) : Dev :=
  let sl := lineSlice (q.dpa / 64)
  let d := { d with home := { d.home with taken := tins d.home.taken sl (tget (fun _ => 0) d.home.taken sl + 1) } }
  d.pmuHome sl code (if q.org = .host then q.cls else 8)
def Dev.retired (d : Dev) (q : Req) : Dev := d.topDown q 0x20

/-- The transaction of a line closes. -/
def Dev.closeTrans (d : Dev) (dl : Nat) : Dev :=
  { d with home := { d.home with trans := d.home.trans.filter (fun t => t.line != dl) } }.pinStats (lineSlice dl)

/-- The transaction of a line becomes f of it. -/
def Dev.updTrans (d : Dev) (dl : Nat) (f : Trans → Trans) : Dev :=
  { d with home := { d.home with trans := d.home.trans.map (fun t => if t.line = dl then f t else t) } }

/-- Transactions of a slice that hold a kind of slot. -/
def Dev.slots (d : Dev) (sl : Nat) (p : SlotKind → Bool) : Nat :=
  (d.home.trans.filter (fun t => lineSlice t.line == sl && p t.slot)).length

/-- Slots reserved over all classes; the rest of 224 are common (R313). -/
def Dev.rsvSum (d : Dev) : Nat := ((List.range 8).map (fun c => d.get (fQOS_CLS_SLOT_RSV c))).sum

/-- R313: a class slot for a request of class c: a reserved one, else a common one within MAX; only a common one where `only`. -/
def Dev.classSlot (d : Dev) (sl c : Nat) (only : Bool) : Option SlotKind :=
  let mine := d.slots sl (· == .rsv c)
  if !only && mine < d.get (fQOS_CLS_SLOT_RSV c) then some (.rsv c)
  else
    let com := d.slots sl (fun k => match k with | .common _ => true | _ => false)
    if com < 224 - d.rsvSum && mine + d.slots sl (· == .common c) < d.get (fQOS_CLS_SLOT_MAX c) then some (.common c) else none

/-- A slot for an agent (QA), and for a write that opens a transaction (16 each). -/
def Dev.agentSlot (d : Dev) (sl : Nat) : Option SlotKind := if d.slots sl (· == .agent) < 16 then some .agent else none
def Dev.writeSlot (d : Dev) (sl : Nat) : Option SlotKind := if d.slots sl (· == .write) < 16 then some .write else none

/-- The slot that a request takes when it opens a transaction; a non-conforming one that was held for a common slot takes one (R312). -/
def Dev.slotOf (d : Dev) (q : Req) : Option SlotKind :=
  let sl := lineSlice (q.dpa / 64)
  if q.cls = 8 then d.agentSlot sl else if q.op.isWrite then d.writeSlot sl else d.classSlot sl q.cls (q.gr && !q.conf)

/-! ### Weights (R314) -/

/-- The weight of a class; QA is class 8. -/
def Dev.weightOf (d : Dev) (c : Nat) : Nat :=
  let w := if c = 8 then d.get fQOS_CTL_AGENT_W else d.get (fQOS_CLS_WEIGHT c)
  if w = 0 then 1 else w

/-- The class with the least virtual time, ties to the lowest; V of arbiter k and class c stands at k * 16 + c. -/
def leastV (t : Tbl Nat) (k : Nat) : List Nat → Option Nat
  | [] => none
  | c :: l => some (l.foldl (fun b x => if tget (fun _ => 0) t (k * 16 + x) < tget (fun _ => 0) t (k * 16 + b) then x else b) c)

/-- Class c of arbiter k is served. -/
def Dev.served (d : Dev) (k c : Nat) (t : Tbl Nat) : Tbl Nat :=
  tins t (k * 16 + c) (tget (fun _ => 0) t (k * 16 + c) + 65536 / d.weightOf c)

/-- A class that had no candidate has one now: its virtual time rises to the least of the others that have one. -/
def joinV (t : Tbl Nat) (k c : Nat) (others : List Nat) : Tbl Nat :=
  match leastV t k (others.filter (· != c)) with
  | some o => tins t (k * 16 + c) (max (tget (fun _ => 0) t (k * 16 + c)) (tget (fun _ => 0) t (k * 16 + o)))
  | none => t

/-- Held by the escapement: resolved and still in the receive buffer. -/
def Dev.heldOf (d : Dev) (p : Nat) : List Req := (d.portOf p).rx.filter (·.res)

/-- Classes with a request for a slice that waits for a common slot: held at its port, or in the crossbar's queue. -/
def Dev.heldClasses (d : Dev) (sl : Nat) : List Nat :=
  let at_ := fun (c : Nat) (q : Req) => q.cls == c && lineSlice (q.dpa / 64) == sl
  (List.range 8).filter (fun c => d.home.xbar.any (at_ c) || heads.any (fun p => (d.heldOf p).any (at_ c)))

/-- The class of a request joins the common-slot arbiter of its slice. -/
def Dev.joinSlots (d : Dev) (q : Req) : Dev :=
  let sl := lineSlice (q.dpa / 64)
  let cs := d.heldClasses sl
  if cs.contains q.cls then d else { d with home := { d.home with vt := joinV d.home.vt sl q.cls cs } }

/-- A common slot of its slice is granted to a request: its class is charged, and its port served last. -/
def Dev.charge (d : Dev) (q : Req) : Dev :=
  let sl := lineSlice (q.dpa / 64)
  let vt := d.served sl q.cls d.home.vt
  { d with home := { d.home with vt := if q.org = .host then tins vt (sl * 16 + 15) q.head else vt } }

/-- A request takes its slot: a common one that the arbiter has not granted it before is charged now. -/
def Dev.takeSlot (d : Dev) (q : Req) (sk : SlotKind) : Dev :=
  match sk with
  | .common _ => if q.gr then d else d.charge q
  | _ => d

/-- A request stays in the crossbar's queue for its slice (R104, R313). -/
def Dev.toXbar (d : Dev) (q : Req) : Dev :=
  let d := d.joinSlots q
  { d with home := { d.home with xbar := d.home.xbar ++ [q] } }

/-- A request joins the wait list of its line, or the writeback lane's (R85, R93). -/
def Dev.pushWait (d : Dev) (q : Req) : Dev :=
  { d with home := { d.home with waits := d.home.waits ++ [q] } }.pinStats (lineSlice (q.dpa / 64))

/-- The requests that wait at their slices: on wait lists and in the writeback lane, for tiering, for the mirror queue. -/
def Dev.waiting (d : Dev) : List Req := d.home.waits ++ d.tier.waits ++ d.mir.waits

/-- A request waits for the line. -/
def Dev.waitsOn (d : Dev) (dl : Nat) : Bool := d.waiting.any (fun q => q.dpa / 64 == dl)

/-- A write waits for room in the mirror queue (R261), or for tiering (R209, R226). -/
def Dev.waitMir (d : Dev) (q : Req) : Dev := { d with mir := { d.mir with waits := d.mir.waits ++ [q] } }
def Dev.waitTier (d : Dev) (q : Req) : Dev := { d with tier := { d.tier with waits := d.tier.waits ++ [q] } }

/-- A request waits in a retry queue for the line. -/
def Dev.retryOn (d : Dev) (dl : Nat) : Bool := d.home.retry.any (fun q => q.dpa / 64 == dl)

/-- A write of a line. -/
def Req.writes (r : Req) (dl : Nat) : Bool := r.op.isWrite && r.dpa / 64 == dl

/-- Two requests are of one head or one agent. -/
def Req.mate (q r : Req) : Bool := r.org = q.org && r.head == q.head

/-- R87: a write of a line of which an earlier one waits to be applied joins that one's list, behind it; none where none waits so. In a
SHARED window the writes of other heads that wait for transactions do not hold it. -/
def Dev.waitBehind (d : Dev) (q : Req) : Option Dev :=
  let same := fun (r : Req) => r.writes (q.dpa / 64)
  if d.mir.waits.any same then some (d.waitMir q) else if d.tier.waits.any same then some (d.waitTier q)
  else if d.home.waits.any (fun r => same r && (!d.winShared q.win || q.mate r)) then some (d.pushWait q) else none

/-- R87: a request that has been tried, and is the oldest of its line, waits on: it stands first, and behind a write the later writes of its
line that waited with it. -/
def Dev.waitFirst (d : Dev) (q : Req) : Dev :=
  let mine := fun (r : Req) => q.op.isWrite && r.writes (q.dpa / 64)
  { d with home := { d.home with waits := q :: (d.mir.waits ++ d.tier.waits).filter mine ++ d.home.waits }
           mir := { d.mir with waits := d.mir.waits.filter (fun r => !mine r) }
           tier := { d.tier with waits := d.tier.waits.filter (fun r => !mine r) } }.pinStats (lineSlice (q.dpa / 64))

/-! ### The line buffer (R17, R18) -/

/-- A line's newest data enters the line buffer; one more write of it is on its way to DRAM. -/
def Dev.bufPut (d : Dev) (dl : Nat) (data : LineData) (poison more : Nat) : Dev :=
  let p := match tfind d.home.lbuf dl with
    | some b => b.pend
    | none => 0
  { d with home := { d.home with lbuf := tins d.home.lbuf dl ⟨data, poison, p + more, none⟩ } }

/-- A write of the line has reached DRAM, or is given up. -/
def Dev.bufDone (d : Dev) (dl : Nat) : Dev :=
  match tfind d.home.lbuf dl with
  | some b =>
    let lb := if b.pend ≤ 1 ∧ b.part = none then tdel d.home.lbuf dl else tins d.home.lbuf dl { b with pend := b.pend - 1 }
    { d with home := { d.home with lbuf := lb } }
  | none => d

end Sys2Proof.Machine
end

