-- ==== Sys2Proof/Machine/Link.lean ====
section
/-! DEFINITION. The pair link's queues and its going down (09_pair_link.md R236, R246, R247), and what mirrored windows share:
dirty granules, mirror messages, SOLO, read-through requests (10_mirroring.md R258 to R267). -/

namespace Sys2Proof.Machine

/-! ### States -/

/-- PAIR_STS.STATE: 0 DOWN, 1 TRAIN, 2 SETUP, 3 UP, 4 PAUSED, 5 SLEEP. -/
def Dev.linkSt (d : Dev) : Nat := d.get fPAIR_STS_STATE
def Dev.linkUp (d : Dev) : Bool := d.linkSt == 3

/-- UP, or paused within an UP period (R249): what changes meanwhile is sent after the pause (R257). -/
def Dev.linkOpen (d : Dev) : Bool := d.linkSt == 3 || d.linkSt == 4

/-- PAIR_MIRn_STS.STATE (Table 10.3). -/
def Dev.mirSt (d : Dev) (w : Nat) : Nat := d.get (fPAIR_MIRW_STS_STATE w)
def mirCopy : Nat := 1
def mirInsync : Nat := 2
def mirSolo : Nat := 3
def mirYielded : Nat := 4
def mirTarget : Nat := 5
def mirPromoted : Nat := 6

/-- COPY or INSYNC: writes are sent. -/
def Dev.mirLive (d : Dev) (w : Nat) : Bool := d.mirSt w == mirCopy || d.mirSt w == mirInsync

/-- Number a precedes count c (serial comparison modulo 2^32). -/
def covered (c a : Nat) : Bool := (c + 2 ^ 33 - a - 1) % 2 ^ 32 < 2 ^ 31

/-! ### Sending -/

/-- Messages waiting on a virtual channel. -/
def Dev.txq (d : Dev) (v : Nat) : List PMsg := tget (fun _ => []) d.pair.txq v
def Dev.setTxq (d : Dev) (v : Nat) (l : List PMsg) : Dev := { d with pair := { d.pair with txq := tset (fun _ => []) d.pair.txq v l } }

/-- A message waits to be sent on virtual channel v. -/
def Dev.pairPush (d : Dev) (v : Nat) (m : PMsg) : Dev := d.setTxq v (d.txq v ++ [m])

/-- A message of a type with a payload. -/
def pmsg (ty : Nat) (payload : List Byte) : PMsg := { mtype := ty, payload := payload }

/-- A VC0 message is queued: it takes the next number and waits for a MACK (R259, R260). -/
def Dev.mirPush (d : Dev) (m : PMsg) : Dev :=
  let m := { m with num := d.mir.nextNum }
  let d := { d with mir := { d.mir with nextNum := (d.mir.nextNum + 1) % 2 ^ 32, unacked := d.mir.unacked ++ [m] } }
  d.pairPush 0 m

/-- R261: the mirror queue of 4,096 is full. -/
def Dev.mirFull (d : Dev) : Bool := 4096 ≤ (d.txq 0).length

/-- The first eight bytes of a mirror message: partner window, a byte, LINE, zero (Table 10.2). -/
def mirHead (peer b line : Nat) : List Byte := leOf 1 peer ++ leOf 1 b ++ leOf 5 line ++ leOf 1 0

/-- The message for a write of window line k: MWR, MWRP or MPOI. -/
def mirMsg (peer k : Nat) (data : LineData) (mask : Option (BitVec 64)) (poison : Nat) (copy : Bool) : PMsg :=
  let c := copy.toNat
  let m := if poison != 0 then pmsg 3 (mirHead peer poison k)
    else match mask with
      | none => pmsg 1 (mirHead peer c k ++ bytesOfLine data)
      | some b => pmsg 2 (mirHead peer c k ++ leOf 8 b.toNat ++ bytesOfLine data)
  { m with granule := k / 4, copy := copy }

/-- An MSTATE of a window is sent. -/
def Dev.sendMstate (d : Dev) (w : Nat) : Dev :=
  let fl := (d.flag (fPAIR_MIRW_STS_VALID w)).toNat + 2 * (d.flag (fPAIR_MIRW_STS_FULL w)).toNat
  let peer := if d.flag (fPAIR_MIRW_STS_PEER_SET w) then d.get (fPAIR_MIRW_STS_PEER w) else 0xffff
  if d.linkOpen then d.pairPush 2 (pmsg 0x2A (leOf 1 w ++ leOf 1 (d.mirSt w) ++ leOf 1 fl ++ leOf 2 peer)) else d

/-! ### Dirty granules (R264) -/

/-- The key of granule g of window w; of bitmap block b. -/
def granKey (w g : Nat) : Nat := w * 2 ^ 40 + g

/-- Blocks in the bitmap area. -/
def Dev.bmBlocks (d : Dev) : Nat := d.get fPAIR_MIR_BMAREA_UNITS * 32

def Dev.isDirty (d : Dev) (w g : Nat) : Bool := (tfind d.mir.dirty (granKey w g)).isSome

/-- FREE follows the blocks allotted. -/
def Dev.bmFree (d : Dev) : Dev := d.set fPAIR_MIR_BMAREA_FREE (d.bmBlocks - d.mir.blocks.length)

/-- R264: a granule becomes dirty; without a block for its bit the window's FULL is set, which the partner is told (R257). -/
def Dev.markDirty (d : Dev) (w g : Nat) : Dev :=
  if d.isDirty w g then d
  else
    let b := granKey w (g / 524288)
    let have_ := d.mir.blocks.contains b
    if !have_ && d.bmBlocks ≤ d.mir.blocks.length then
      if d.flag (fPAIR_MIRW_STS_FULL w) && d.flag fPAIR_MIR_STS_BM_FULL then d
      else
        let told := d.flag (fPAIR_MIRW_STS_FULL w)
        let d := ((d.setFlag (fPAIR_MIRW_STS_FULL w) true).setFlag fPAIR_MIR_STS_BM_FULL true).raise { src := src 32 3, sev := 1, obj := w }
        if told then d else d.sendMstate w
    else
      let d := { d with mir := { d.mir with dirty := tins d.mir.dirty (granKey w g) true
                                            blocks := if have_ then d.mir.blocks else d.mir.blocks ++ [b] } }
      (d.bump (fPAIR_MIRW_DIRTY_GRANULES w) 1).bmFree

/-- A granule is clean again; a block without dirty bits is freed. -/
def Dev.clearDirty (d : Dev) (w g : Nat) : Dev :=
  if d.isDirty w g then
    let t := tdel d.mir.dirty (granKey w g)
    let b := granKey w (g / 524288)
    let more := t.any (fun e => e.1 / 2 ^ 40 == w && e.1 % 2 ^ 40 / 524288 == g / 524288)
    let d := { d with mir := { d.mir with dirty := t, blocks := if more then d.mir.blocks else d.mir.blocks.filter (· != b) } }
    (d.drop (fPAIR_MIRW_DIRTY_GRANULES w) 1).bmFree
  else d

/-- Every dirty bit of a window is dropped. -/
def Dev.dropDirty (d : Dev) (w : Nat) : Dev :=
  let d := { d with mir := { d.mir with dirty := tdrop (fun k => k / 2 ^ 40 == w) d.mir.dirty
                                        blocks := d.mir.blocks.filter (fun b => b / 2 ^ 40 != w) } }
  (d.set (fPAIR_MIRW_DIRTY_GRANULES w) 0).bmFree

/-- R264: a bitmap line cannot be read: every granule of its block counts as dirty. Block i of the area is the i-th allotted. -/
def Dev.bmLost (d : Dev) (l : Nat) : Dev :=
  let lo := (d.get (fCDC_LAYOUT_SIZE 0) - d.get fPAIR_MIR_BMAREA_UNITS) * 32768
  if l < lo ∨ d.get (fCDC_LAYOUT_SIZE 0) * 32768 ≤ l then d
  else
    match d.mir.blocks[(l - lo) / 1024]? with
    | none => d
    | some b =>
      let w := b / 2 ^ 40
      let d := ((List.range 524288).map (b % 2 ^ 40 * 524288 + ·)).foldl (fun d g => if g * 256 < d.winSize w then d.markDirty w g else d) d
      (d.setFlag (fPAIR_MIRW_STS_BMLOST w) true).raise { src := src 32 3, sev := 1, code := 264, obj := w, addr := 64 * l, akind := 2 }

/-- Table 10.3: a granule is partner-current. -/
def Dev.partnerCurrent (d : Dev) (w g : Nat) : Bool :=
  d.mirSt w == mirInsync ||
  (d.mirSt w == mirCopy && !d.isDirty w g &&
    (!d.flag (fPAIR_MIRW_STS_FULL w) || d.winBase w + g * 256 < d.get (fPAIR_MIRW_CURSOR_DPA w)))

/-- The granule of a DPA line of window w. -/
def Dev.granOf (d : Dev) (w dl : Nat) : Nat := (dl - d.winBase w / 64) / 4

/-! ### State records (R257) -/

/-- The GEN of a record by kind * 256 + index: 1 until its first change. -/
def Dev.genOf (d : Dev) (i : Nat) : Nat := tget (fun _ => 1) d.mir.gens i

/-- The next GEN of a record: kind 0 windows, 1 key ranges. -/
def Dev.nextGen (d : Dev) (kind i : Nat) : Nat × Dev :=
  let g := d.genOf (kind * 256 + i) + 1
  (g % 2 ^ 32, { d with mir := { d.mir with gens := tins d.mir.gens (kind * 256 + i) (g % 2 ^ 32) } })

/-- An SREC of a window, or of its removal, is sent; its GEN rises if the record changed. -/
def Dev.sendSrec (d : Dev) (kind i gen : Nat) : Dev :=
  let body := if kind = 0 then (winWords i).flatMap (fun p => leOf 4 (d.rd p.1))
    else if kind = 1 then leOf 4 (d.rd (rSEC_KR_CFG i)) ++ leOf 4 (d.rd (rSEC_KR_BASE i)) ++ leOf 4 (d.rd (rSEC_KR_SIZE i)) else []
  if d.linkOpen then d.pairPush 2 (pmsg 0x28 (leOf 1 kind ++ leOf 1 i ++ leOf 4 gen ++ body)) else d

/-- A window entry changed, or was removed. -/
def Dev.winChanged (d : Dev) (w : Nat) : Dev :=
  let r := d.nextGen 0 w
  r.2.sendSrec (if r.2.winValid w then 0 else 2) w r.1

/-- A key range changed. -/
def Dev.krChanged (d : Dev) (n : Nat) : Dev :=
  let r := d.nextGen 1 n
  r.2.sendSrec 1 n r.1

/-! ### Fences (R262) -/

/-- A held fence read of a window returns a result. -/
def Dev.fenceEnd (d : Dev) (w result : Nat) : Dev :=
  let mine := d.mir.fences.filter (fun f => f.2.1 == w)
  if mine.isEmpty then d
  else
    let d := { d with mir := { d.mir with fences := d.mir.fences.filter (fun f => f.2.1 != w) } }
    (d.set (fPAIR_MIRW_FENCE_RESULT w) result).emits (mine.map (fun f => .csrValue f.1 result))

/-! ### Mirror states -/

/-- A window takes a mirror state, and reports it. One that leaves COPY gives up what its copy has read (R21); one that leaves INSYNC ends
its held fences (R262). -/
def Dev.setMir (d : Dev) (w st : Nat) : Dev :=
  let d := if d.mirSt w == mirInsync && st != mirInsync then d.fenceEnd w 1 else d
  let d := if d.mirSt w == mirCopy && st != mirCopy then d.agentsGone (fun o => decide (o = .copy w)) else d
  (d.set (fPAIR_MIRW_STS_STATE w) st).sendMstate w

/-! ### SOLO (R263) -/

/-- R263: a window enters SOLO with a cause (1 LINK, 2 TARGET, 3 RESET): messages not acknowledged become dirty granules. -/
def Dev.enterSolo (d : Dev) (w cause : Nat) : Dev :=
  if d.mirLive w then
    let d := (d.mir.unacked.filter (fun m => m.win == w)).foldl (fun d m => d.markDirty w m.granule) d
    let d := (d.set (fPAIR_MIRW_STS_CAUSE w) cause).setMir w mirSolo
    d.raise { src := src 32 0, sev := 3, code := cause, obj := w }
  else d

/-- A held completion of a message is given. -/
def Dev.giveCpl (d : Dev) (m : PMsg) : Dev :=
  match m.cpl with
  | some (h, tag, r) => d.finish { head := h, tag := tag, op := .wr .i 0 false, win := m.win } r 0
  | none => d

/-! ### Read-through (R267) -/

/-- R267: an RTRD for a DPA line of window w is sent, after the VC0 messages queued before it. -/
def Dev.sendRt (d : Dev) (w dl : Nat) (rebuild : Bool) : Dev :=
  let tag := d.mir.nextRt
  let k := dl - d.winBase w / 64
  let m := { pmsg 0x30 (leOf 1 (d.get (fPAIR_MIRW_STS_PEER w)) ++ leOf 5 k ++ leOf 2 tag) with num := (d.mir.nextNum + 2 ^ 32 - 1) % 2 ^ 32 }
  let d := { d with mir := { d.mir with nextRt := (tag + 1) % 65536, rtPend := d.mir.rtPend ++ [(⟨tag, dl, w, rebuild, true⟩ : RtPend)] } }
  (d.pairPush 3 m).pmu 41 0x65 0 8 1

/-- The poison of a read that cannot be read through (R267): MIRROR_LOST on an out slot, else MEDIA. -/
def Dev.rtPoison (d : Dev) (w dl : Nat) : Nat :=
  if d.lineOut (d.backedMpa w (dl * 64) / 64) then poisonMirrorLost else poisonMedia

/-- A transaction ends with data: a host receives it, an agent may use it when it comes back for it. -/
def Dev.endRead (d : Dev) (t : Trans) (x : LineData × Nat) (direct : Bool) : Dev :=
  let d := d.closeTrans t.line
  if t.req.org = .host then d.respData t.req x t.mv
  else { d with home := { d.home with got := d.home.got ++ [(t.req.org, t.line, if direct then some x else none)] } }

/-- A read-through ends without data. -/
def Dev.rtFail (d : Dev) (r : RtPend) (reason : Nat) : Dev :=
  if r.rebuild then d
  else match d.transOf r.line with
    | some t => d.endRead t (0, reason) true
    | none => d

/-! ### Resume (R265, R266) -/

/-- R266: a COPY window with nothing left to copy or to be acknowledged is INSYNC. -/
def Dev.copyCheck (d : Dev) (w : Nat) : Dev :=
  if d.mirSt w == mirCopy && !d.flag (fPAIR_MIRW_STS_FULL w) && d.get (fPAIR_MIRW_DIRTY_GRANULES w) == 0 &&
    !d.mir.unacked.any (fun m => m.win == w && m.copy) then d.setMir w mirInsync else d

/-- R265: the cases of a window that resumes. -/
def Dev.resumeWin (d : Dev) (w : Nat) : Dev :=
  let peer := d.get (fPAIR_MIRW_STS_PEER w)
  let r := tget (fun _ => []) d.mir.shMst peer
  let known := d.flag (fPAIR_MIRW_STS_PEER_SET w) && r.getD 2 0xffff == w
  if known && r.headD 0 == mirTarget then
    if r.getD 1 0 % 2 = 1 ∧ d.flag (fPAIR_MIRW_STS_FULL w) = false then (d.setMir w mirCopy).copyCheck w
    else (((d.setFlag (fPAIR_MIRW_STS_FULL w) true).set (fPAIR_MIRW_CURSOR_DPA w) (d.winBase w)).setMir w mirCopy)
  else if known && r.headD 0 == mirPromoted then
    (d.setFlag (fPAIR_MIRW_STS_DIVERGED w) true).raise { src := src 32 1, sev := 3, code := 265, obj := w }
  else d.set (fPAIR_MIRW_STS_CAUSE w) 2

/-- R265: the windows in SOLO with cause LINK or RESET resume. -/
def Dev.resumeAll (d : Dev) : Dev :=
  ((List.range 256).filter (fun w => d.mirSt w == mirSolo && (d.get (fPAIR_MIRW_STS_CAUSE w) == 1 || d.get (fPAIR_MIRW_STS_CAUSE w) == 3))).foldl
    Dev.resumeWin d

/-! ### TRAIN and wake (R246, R252) -/

/-- R246: the frame state at entry to TRAIN; both directions are at count 0 of the setup key. -/
def Dev.enterTrain (d : Dev) : Dev :=
  let d := (d.wr rPAIR_SEQ 0).set fPAIR_SEQ_ACKED 4095
  let d := ((d.set fPAIR_STS_STATE 1).set fPAIR_STS_KEYPH_TX 0).set fPAIR_STS_KEYPH_RX 0
  { d with pair := { d.pair with txCnt := 0, rxH := 0, rxAny := false, rxOldH := 0, txKey := some ⟨0, 0⟩, rxKey := some ⟨0, 0⟩, rxOld := none,
                                 txOld := none, rxNew := none, txNext := none, spdmIn := none, str := {}, session := false, setupTx := false,
                                 setupRx := false, ret := [], freed := [], crvc := 0, sinceVc0 := 0, rx := [], outst := [], replay := [],
                                 expiries := 0, waking := false, pauseSeq := none, credits := [], sleepReq := false, sleepOk := false,
                                 sleepAcked := false } }.emit (.pairPattern 1)

/-- R252: a link that sleeps: this controller sends the wake pattern. -/
def Dev.wakePartner (d : Dev) : Dev :=
  if d.linkSt = 5 ∧ d.pair.waking = false then { d with pair := { d.pair with waking := true } }.emit (.pairPattern 0) else d

/-- R252: a controller that is awake again, its pair link in SLEEP: the partner's wake pattern has come, or it sends its own. -/
def Dev.pairWake (d : Dev) : Dev :=
  if d.linkSt = 5 ∧ d.get fPWR_SLEEP_STS_LAST_WAKE = 3 then d.enterTrain else d.wakePartner

/-- The link may leave DOWN (Table 9.6); its domain has power (R384). -/
def Dev.canTrain (d : Dev) : Bool :=
  d.linkSt == 0 && d.pair.retryOk && d.flag fPAIR_CTL_EN && d.pin.pairPresent && !d.halted && !d.pair.held && d.fwUp &&
  d.flag fMGT_STS_READY && d.get fMGT_STS_MODE == 0 && d.bit fPWR_DOM_STS_ON 32

/-- The link leaves DOWN when all its conditions hold. -/
def Dev.tryTrain (d : Dev) : Dev := if d.canTrain then d.enterTrain else d

/-! ### Link-down (R247) -/

/-- R247: the link goes down with a cause of Table 9.7. -/
def Dev.linkDown (d : Dev) (cause : Nat) : Dev :=
  if d.linkSt = 0 then d
  else
    let d := if d.mir.shCur then d.setFlag fPAIR_MIR_STS_SHADOW_OLD true else d
    let d := if cause = 6 ∨ cause = 7 then d else d.raise { src := src 31 cause, sev := 3, code := cause }
    let d := (((d.set fPAIR_STS_STATE 0).set fPAIR_STS_TX_W 0).set fPAIR_STS_RX_W 0).set fPAIR_STS_DOWN_CAUSE cause
    let d := ((d.wr rPAIR_LANE_STS 0).bumpSat fPAIR_ERRCNT1_DOWNS 1).set fPAIR_SEQ_OUTSTANDING 0
    let d := (List.range 4).foldl (fun d v => d.set (fPAIR_VC_AVAIL v) 0) d
    let un := d.mir.unacked
    let rts := d.mir.rtPend
    let bg := d.pair.pauseBg
    let d := { d with pair := { d.pair with txq := [], outst := [], replay := [], rx := [], expiries := 0, session := false, setupTx := false,
                                            setupRx := false, retryOk := false, txKey := none, rxKey := none, rxOld := none, txOld := none,
                                            rxNew := none, txNext := none, spdmIn := none, str := {}, pause := 0, pauseBg := none,
                                            pauseSeq := none, credits := [], sleepReq := false, sleepOk := false, sleepAcked := false, halt := none, rxDrop := [], txRestripe := [], waking := false } }
    let d := (List.range 256).foldl (fun d w => d.enterSolo w 1) d
    let d := { d with mir := { d.mir with unacked := [], rtPend := [], rtHeld := [], apply := [], rbGot := [], shGot := false, shCur := false } }
    let d := un.foldl Dev.giveCpl d
    let d := rts.foldl (fun d r => d.rtFail r (d.rtPoison r.win r.line)) d
    d.bgDoneOpt bg stPairLinkDown noDetail []

end Sys2Proof.Machine
end

