-- ==== Sys2Proof/Machine/PairFrame.lean ====
section
/-! DEFINITION. Frames of the pair link (09_pair_link.md R229 to R235): the header word, AES-256-GCM, the coding of the stream over the
lanes, and messages in a body. -/

namespace Sys2Proof.Machine

/-! ### The header (R232) -/

/-- The fields of Table 9.3. -/
structure FrameHdr where
  null : Bool
  vc : Nat
  seq : Nat
  ack : Nat
  crvc : Nat
  crtot : Nat
  keyph : Nat
  fcnt : Nat
deriving DecidableEq, Repr

/-- The header word. -/
def FrameHdr.word (h : FrameHdr) : Nat :=
  h.null.toNat + h.vc * 2 + h.seq * 2 ^ 3 + h.ack * 2 ^ 15 + h.crvc * 2 ^ 27 + h.crtot * 2 ^ 29 + h.keyph * 2 ^ 41 + h.fcnt * 2 ^ 42

/-- The fields of a header word. -/
def hdrOf (w : Nat) : FrameHdr :=
  { null := w % 2 == 1, vc := w / 2 % 4, seq := w / 2 ^ 3 % 4096, ack := w / 2 ^ 15 % 4096, crvc := w / 2 ^ 27 % 4,
    crtot := w / 2 ^ 29 % 4096, keyph := w / 2 ^ 41 % 2, fcnt := w / 2 ^ 42 % 2 ^ 22 }

/-- The header of a frame that has arrived. -/
def inHdr (f : FrameIn) : FrameHdr := hdrOf (leBytes f.bytes 0 8)

/-! ### Protection (R193, R231) -/

/-- The all-zero key and IV base of SETUP (R246). -/
def setupKey : PKey := ⟨0, 0⟩

/-- The nonce of count c, little-endian as the frame header is (DESIGN CHOICE, log entry 88). -/
def PKey.nonce (k : PKey) (c : Nat) : List Nat := toBytes 12 ((k.iv ^^^ c) % 2 ^ 96)

/-- The leftmost 64 bits of the GCM tag of a header and an encrypted body. -/
def PKey.tag (k : PKey) (c : Nat) (hdr body : List Nat) : List Nat := (gcmTag (toBytes 32 k.key) (k.nonce c) hdr body).take 8

/-- A body, encrypted or decrypted. -/
def PKey.crypt (k : PKey) (c : Nat) (body : List Nat) : List Nat := gcmCrypt (toBytes 32 k.key) (k.nonce c) body

/-- The 256 bytes of a frame: header, encrypted body, tag. -/
def PKey.frame (k : PKey) (c : Nat) (h : FrameHdr) (body : List Byte) : List Byte :=
  let hdr := toBytes 8 h.word
  let ct := k.crypt c (body.map BitVec.toNat)
  (hdr ++ ct ++ k.tag c hdr ct).map (BitVec.ofNat 8)

/-- A frame verifies under a key and a count. -/
def PKey.verifies (k : PKey) (c : Nat) (f : List Byte) : Bool :=
  let b := f.map BitVec.toNat
  k.tag c (b.take 8) ((b.drop 8).take 240) == (b.drop 248).take 8

/-- The body of a frame. -/
def PKey.body (k : PKey) (c : Nat) (f : List Byte) : List Byte :=
  (k.crypt c (((f.map BitVec.toNat).drop 8).take 240)).map (BitVec.ofNat 8)

/-! ### The stream on the lanes (R229). The spec names RS(544,514) over 10-bit symbols; its field and generator are those of IEEE
802.3's code of that name, and bits enter symbols lowest first (PRESUMED, log entry 89). -/

/-- The product of a and the low n bits of b in GF(2^10), modulo x^10 + x^3 + 1. -/
def f10MulN : Nat → Nat → Nat → Nat
  | 0, _, _ => 0
  | n + 1, a, b => (if b % 2 = 1 then a else 0) ^^^ f10MulN n (if a < 512 then 2 * a else (2 * a) ^^^ 0x409) (b / 2)
def f10Mul (a b : Nat) : Nat := f10MulN 10 a b

/-- The generator polynomial without its leading 1, highest coefficient first: the product of x + 2^i, i = 0 to 29. -/
def fecGen : List Nat :=
  ((List.range 30).foldl (fun (p : List Nat × Nat) _ => (xorL (p.1 ++ [0]) (0 :: p.1.map (f10Mul p.2)), f10Mul p.2 2)) ([1], 1)).1.drop 1

/-- The codeword of 514 symbols: they, and 30 of parity. -/
def fecWord (m : List Nat) : List Nat :=
  m ++ m.foldl (fun r s => let t := s ^^^ r.headD 0; xorL (r.drop 1 ++ [0]) (fecGen.map (f10Mul t))) (List.replicate 30 0)

/-- A codeword over the active lanes, one symbol at a time from a place in the round robin. -/
def stripe (lanes : List Nat) (first : Nat) (cw : List Nat) : List (Nat × List Nat) :=
  lanes.zipIdx.map (fun l => (l.1, (cw.zipIdx.filter (fun s => (first + s.2) % lanes.length == l.2)).map (·.1)))

/-- The active transmit lanes, in ascending order. -/
def Dev.txLanes (d : Dev) : List Nat := bitsOf 16 (d.get fPAIR_LANE_STS_TX_ACTIVE)

/-- A frame joins the stream: 5,140 bits make a codeword, and an alignment slot follows every 20,480th. -/
def Dev.carry (d : Dev) (f : List Byte) : Dev :=
  let s := d.pair.str
  let v := s.bits + ofBytes (f.map BitVec.toNat) * 2 ^ s.len
  let n := s.len + 2048
  let lanes := d.txLanes
  if n < 5140 then { d with pair := { d.pair with str := { s with bits := v, len := n } } }
  else
    let m := (List.range 514).map (fun i => v / 1024 ^ i % 1024)
    let more := s.words + 1 < 20480
    let d := { d with pair := { d.pair with str := { s with bits := v / 2 ^ 5140, len := n - 5140, lane := (s.lane + 544) % lanes.length,
                                                             words := if more then s.words + 1 else 0 } } }
    let d := d.emit (.codeword (stripe lanes s.lane (fecWord m)))
    if more then d else d.emit (.alignSlot lanes lanes.length s.epoch)

/-- A frame goes out. -/
def Dev.putFrame (d : Dev) (f : List Byte) : Dev := (d.emit (.frame f)).carry f

/-- R250: at a codeword boundary that is a frame boundary, restripe slots drop the lanes that wait: one slot a lane. -/
def Dev.restripe (d : Dev) : Dev :=
  if d.pair.str.len ≠ 0 then d
  else
    d.pair.txRestripe.foldl (fun d k =>
      let d := { d with pair := { d.pair with txRestripe := d.pair.txRestripe.drop 1, str := { d.pair.str with lane := 0, epoch := d.pair.str.epoch + 1 } } }
      let d := ((d.emit (.pairPattern 2)).setBit fPAIR_LANE_STS_TX_ACTIVE k false).bumpSat fPAIR_ERRCNT1_LANE_DROPS 1
      d.set fPAIR_STS_TX_W (popCount 16 (d.get fPAIR_LANE_STS_TX_ACTIVE))) d

/-! ### Messages in frames (R233, R234) -/

/-- A message as its bytes: an RTRD carries the number of the last VC0 message queued before it (R267). -/
def PMsg.bytes (m : PMsg) : List Byte :=
  let p := if m.mtype = 0x30 then m.payload ++ leOf 4 m.num else m.payload
  leOf 2 (m.mtype + p.length * 64) ++ p

/-- The messages at the head of a list that fit in n bytes. -/
def fitting : Nat → List PMsg → List PMsg
  | _, [] => []
  | n, m :: t => if m.bytes.length ≤ n then m :: fitting (n - m.bytes.length) t else []

/-- A frame body: messages and padding. -/
def bodyOf (l : List PMsg) : List Byte := let b := l.flatMap PMsg.bytes; b ++ List.replicate (240 - b.length) 0

/-- The payload lengths of a message type on a virtual channel (Tables 9.5, 10.2); none for a type that it does not carry. A length
that differs from the table is a protocol error (log entry 33). -/
def mlenOk (v ty n : Nat) : Bool :=
  if v = 0 then (ty == 1 && n == 72) || (ty == 2 && n == 80) || (ty == 3 && n == 8)
  else if v = 1 then (ty == 0x10 && n == 4) || (ty == 0x11 && n == 5)
  else if v = 2 then
    (ty == 0x20 && 2 ≤ n) || (ty == 0x21 && n == 2) || (ty == 0x22 && n == 0) || (ty == 0x23 && n == 1) || (ty == 0x24 && n == 0) ||
    (ty == 0x25 && n == 1) || (ty == 0x26 && n == 1) || (ty == 0x28 && (n == 30 || n == 18 || n == 6)) || (ty == 0x29 && n == 6) ||
    (ty == 0x2A && n == 5)
  else (ty == 0x30 && n == 12) || (ty == 0x31 && n == 67)

/-- The messages of a body; none for a protocol error (R233). The first argument bounds the number of messages. -/
def parseBody (v : Nat) : Nat → List Byte → Option (List PMsg)
  | 0, b => if b.all (· == 0) then some [] else none
  | f + 1, b =>
    let h := leBytes b 0 2
    if b.length < 2 ∨ h % 64 = 0 then (if b.all (· == 0) then some [] else none)
    else
      let n := h / 64
      if b.length < 2 + n ∨ !mlenOk v (h % 64) n then none
      else (parseBody v f (b.drop (2 + n))).map (fun l => pmsg (h % 64) ((b.drop 2).take n) :: l)

/-- R235: an SPDM message in fragments of at most 237 bytes, with FIRST and LAST. -/
def spdmParts (m : List Byte) : List PMsg :=
  let n := (m.length + 236) / 237
  (List.range n).map (fun i => pmsg 0x20 (leOf 1 ((i == 0).toNat + 2 * (i + 1 == n).toNat) ++ (m.drop (237 * i)).take 237))

/-- R235: firmware sends the next message of a handshake; its bytes are a free value (log entry 94). -/
def Dev.spdmSend (d : Dev) : Dev :=
  (spdmParts (Config.pairSpdm d.freeN)).foldl (fun d m => d.pairPush 2 m) { d with freeN := d.freeN + 1 }

end Sys2Proof.Machine
end

