-- ==== Sys2Proof/Machine/Home.lean ====
section
/-! DEFINITION. Home slices at work (04_coherence.md): Table 4.3, snoops and their completion, storing and reading lines of
every window kind, and the accesses of internal agents (R85 to R106). -/

namespace Sys2Proof.Machine

/-! ### Lines in windows -/

/-- Window n is down (R107). -/
def Dev.winDown (d : Dev) (n : Nat) : Bool := d.bit (fHOME_WDOWN_DOWN (n / 32)) (n % 32)

/-- The window serves no read and no write: its range has no usable key (R187). -/
def Dev.winNoKey (d : Dev) (n : Nat) : Bool := !d.krUsable (d.winKr n)

/-- The leaf of a line is locked by a minor overflow (R177). -/
def Dev.ovfLocked (d : Dev) (w dl : Nat) : Bool :=
  let n := d.winKr w
  d.krFresh n && d.sec.ovf.any (fun o => o.n == n && o.leaf == d.leafOf n dl)

/-- Where a line is stored in line form: its MPA line in a BACKED window, or in the frame of a NEAR page. -/
def Acc.lineAt (a : Acc) (w dl : Nat) : Option Nat × Acc :=
  if a.dev.winTiered w then
    let r := a.pent w (dl / 64)
    if peState r.1 = 1 then (some (r.2.dev.redirect (peLoc r.1 * 512 + dl % 64 * 64) / 64), r.2) else (none, r.2)
  else (some (a.dev.backedMpa w (dl * 64) / 64), a)

/-- What a request writes: data, byte mask, poison. -/
structure WrIn where
  data : LineData
  mask : Option (BitVec 64)
  poison : Bool

/-- The write of a request. -/
def ROp.wrIn : ROp → WrIn
  | .wr _ x p => ⟨x, none, p⟩
  | .wrPtl _ x m p => ⟨x, some m, p⟩
  | _ => ⟨0, some 0, false⟩

/-- MetaValue of a write. -/
def ROp.meta_ : ROp → Meta
  | .wr m _ _ => m
  | .wrPtl m _ _ _ => m
  | .rd m => m
  | .inv m => m
  | _ => .i

/-! ### Storing a line (R17, R142, R208, R210) -/

/-- Whether a write was stored, was lost with its page (R221), was dropped (R457), must wait at its slice, or must wait for tiering or
for the mirror queue. -/
inductive SRes where
  | ok | lost | drop | wait | waitTier | waitMir
deriving DecidableEq, Repr

/-- A full line is sealed and joins the write queue; its newest data stands in the line buffer. -/
def Acc.storeFull (a : Acc) (w dl l cls : Nat) (q : Req) (data : LineData) : SRes × Acc :=
  let n := a.dev.winKr w
  if !a.dev.krUsable n then (.ok, a) else
  let f := if a.dev.krFresh n then a.fetch n 0 (a.dev.leafOf n dl) else (.ok 0, a)
  match f with
  | (.lost, a) => (.wait, a)
  | (.halt, a) => (.ok, a)
  | (.ok _, a) =>
    let full := a.minorFull n dl
    let a := full.2
    if full.1 then
      (.ok, a.upd (fun d =>
        let d := { d with sec := { d.sec with ovf := d.sec.ovf ++ [(⟨n, d.leafOf n dl, dl / 32 * 32 * 64, q⟩ : Ovf)] } }
        (((d.bump fSEC_OVF_CNT_COUNT 1).pmu (30 + lineChan dl / 4) 0x46 0 8 1).bufPut dl data 0 1)))
    else
      match a.sealLine n dl data.toNat with
      | (some c, a) => (.ok, a.upd (fun d => (d.bufPut dl data 0 1).pushDram l (some c) 0 (.line dl) cls q.conf q.hostHead))
      | (none, a) => (.ok, a)

/-- A marker of a reason joins the write queue in place of a line (R140), at the urgency of the port whose write it answers (R115). -/
def Dev.storeMarker (d : Dev) (dl l cls reason : Nat) (conf : Bool) (port : Option Nat) : Dev :=
  (d.bufPut dl 0 reason 1).pushDram l (some (markerWord reason)) 0 (.line dl) cls conf port

/-- R140: a write of part of a poisoned line is lost with it, and recorded. -/
def Dev.ptlLost (d : Dev) (l dl : Nat) : Dev :=
  d.raise { src := srcMch (lineChan l) 1, sev := 2, code := 140, obj := lineChan l, addr := dl * 64, akind := 1 }

/-- A write of a line kept in line form. -/
def Acc.storeAt (a : Acc) (w dl l cls : Nat) (q : Req) (x : WrIn) : SRes × Acc :=
  if a.dev.ovfLocked w dl ∨ (a.dev.krFresh (a.dev.winKr w) = true ∧ a.dev.inQuar (a.dev.winKr w) 0 (a.dev.leafOf (a.dev.winKr w) dl) = true) then
    (.wait, a)
  else if x.poison then (.ok, a.upd (fun d => d.storeMarker dl l cls poisonMedia q.conf q.hostHead))
  else
    match x.mask with
    | none => a.storeFull w dl l cls q x.data
    | some m =>
      match tfind a.dev.home.lbuf dl with
      | some b =>
        match b.part with
        | some pm =>
          let b' : LBuf := { b with data := mergeLine b.data x.data m, part := some (pm ||| m) }
          (.ok, a.upd (fun d => { d with home := { d.home with lbuf := tins d.home.lbuf dl b' } }))
        | none => if b.poison != 0 then (.ok, a.upd (fun d => d.ptlLost l dl)) else a.storeFull w dl l cls q (mergeLine b.data x.data m)
      | none =>
        (.ok, a.upd (fun d =>
          let d := { d with home := { d.home with lbuf := tins d.home.lbuf dl ⟨mergeLine 0 x.data m, 0, 0, some m⟩ } }
          d.pushDram l none 0 (.rmw dl) cls q.conf q.hostHead))

/-- R208, R140: the line into which a byte-enabled write of a FAR page, or of a VOID page of reason 0, merges where no entry holds it, and
the sub-block where it decodes whole; none after a halt. -/
def Acc.mergeFar (a : Acc) (w dl e : Nat) : Option (PLine × Option (List LineData)) × Acc :=
  if peState e = 2 then
    match a.farSub w (dl / 64) e (dl / 16 % 4) false 2 with
    | (some l, a) => (some (l.getD (dl % 16) (0, 0), if peCls e != 7 && l.all (·.2 == 0) then some (l.map (·.1)) else none), a)
    | (none, a) => (none, a)
  else (some ((0, peCls e), none), a)

/-- R208: a write to a FAR page or to a VOID page of reason 0 enters the hot-line cache. -/
def Acc.storeHlc (a : Acc) (w dl cls e : Nat) (x : WrIn) : SRes × Acc :=
  let sb := dl / 16
  let i := dl % 16
  let a := a.upd (fun d => d.hlcRead sb)
  let h := a.dev.hlcEnt sb
  let held := match h with
    | some h => h.valid.getLsbD i
    | none => false
  if h.isNone && (64 ≤ a.dev.reQn (hlcBank (dl / 64)) || (a.dev.hlcAlloc cls (HEnt.empty sb)).isNone) then (.waitTier, a)
  else
    let old : Option (PLine × Option (List LineData)) × Acc := match h, x.mask with
      | some h, some _ => if held then (some ((h.line i, if h.poison.getLsbD i then h.reason else 0), none), a) else a.mergeFar w dl e
      | none, some _ => a.mergeFar w dl e
      | _, none => (some ((0, 0), none), a)
    match old with
    | (none, a) => (.ok, a)
    | (some (o, sub), a) =>
      let v := match x.mask with
        | some m => mergeLine o.1 x.data m
        | none => x.data
      let rs : Nat := if x.poison then poisonMedia else o.2
      let lost := x.mask.isSome && o.2 != 0
      let fill := fun (h : HEnt) => match sub with
        | some l => h.fill l
        | none => h
      let a := if lost then a.upd (fun d => d.ptlLost (d.cellLine e 0) dl) else a
      match a.dev.hlcEnt sb with
      | some h => (.ok, a.upd (fun d => (d.pmu 40 0x58 (hlcBank (dl / 64)) cls 1).hlcPut sb ((fill h).write i v rs)))
      | none =>
        match (a.dev.pmu 40 0x59 (hlcBank (dl / 64)) cls 1).hlcAlloc cls ((fill (HEnt.empty sb)).write i v rs) with
        | some d => (.ok, { a with dev := d })
        | none => (.waitTier, a)

/-- A write of a line of window w by any agent, in whatever form its page stands; it counts once it is stored (R212). -/
def Acc.storeLine (a : Acc) (w dl cls : Nat) (q : Req) (x : WrIn) : SRes × Acc :=
  let pg := dl / 64
  let frame := fun (e : Nat) (a : Acc) => a.storeAt w dl (a.dev.redirect (peLoc e * 512 + dl % 64 * 64) / 64) cls q x
  if a.dev.winTiered w then
    let r := a.pent w pg
    let hlc := peState r.1 == 2 || (peState r.1 == 0 && peCls r.1 == 0 && a.dev.get (fCDC_WPOL_MODE w) != 1)
    if peState r.1 == 0 && !hlc && a.dev.tier.rebuild then (.waitTier, r.2)
    else
      let e := r.1
      let s := if peState e = 1 then frame e (if peCls e = 7 then r.2.setPent w pg (wordPut e 2 3 0) else r.2)
        else if hlc then r.2.storeHlc w dl cls e x
        else
          match r.2.firstWrite w pg with
          | (true, a) => let r := a.pent w pg; frame r.1 r.2
          | (false, a) => (.lost, a)
      if s.1 = .ok then (s.1, (s.2.pentCount w pg q.org.counts).2) else s
  else a.storeAt w dl (a.dev.backedMpa w (dl * 64) / 64) cls q x

/-! ### Accepting a write (R260, R261, R269, R376, R380, R457) -/

/-- The line lies on an out slot. -/
def Acc.onOut (a : Acc) (w dl : Nat) : Bool × Acc :=
  match a.lineAt w dl with
  | (some l, a) => (a.dev.lineOut l, a)
  | (none, a) => (false, a)

/-- R269, R380: a write of a line on an out slot is dropped, with its record; in SOLO its granule is dirty. -/
def Dev.outDropped (d : Dev) (w dl : Nat) (head : Option Nat) : Dev :=
  let d := if d.winMirrored w && d.mirSt w == mirSolo then d.markDirty w (d.granOf w dl) else d
  d.raise { src := if d.winMirrored w then src 32 2 else srcMch (d.locOf (d.backedMpa w (dl * 64))).chan 1, sev := 2,
            code := if d.winMirrored w then 269 else 380, obj := w, addr := dl * 64, akind := 1, head := head }

/-- R457: a write that is dropped and changes nothing: of any agent in a window that is down (R107), of a range without a usable key
(R158, R187), or of a line on an out slot (R380, R269); of a host that has sent viral (R61), or of a host in an exhausted range (R179). -/
def Acc.dropWrite (a : Acc) (q : Req) : Bool × Acc :=
  let w := q.win
  let dl := q.dpa / 64
  let n := a.dev.winKr w
  if (a.dev.winShared w && a.dev.winDown w) || a.dev.winNoKey w then (true, a)
  else if q.org = .host && (a.dev.portOf q.head).viral then (true, a)
  else if q.org = .host && a.dev.krExh n then
    (true, a.upd (fun d => (d.bumpSat (fSEC_KR_EVT_WDROP n) 1).emit (.mediaEvent q.head q.dpa poisonMedia)))
  else
    let o := a.onOut w dl
    if o.1 && !(o.2.dev.winMirrored w && o.2.dev.mirLive w) then
      (true, o.2.upd (fun d => d.outDropped w dl q.hostHead))
    else (false, o.2)

/-- R270: the granule of a line is being read from the partner for a rebuild; its slice holds its writes. -/
def Dev.rebuildReads (d : Dev) (dl : Nat) : Bool :=
  d.mir.rtPend.any (fun r => r.rebuild && r.line / 4 == dl / 4) || d.mir.rbGot.any (fun g => g.1 / 4 == dl / 4)

/-- A write is accepted (R17): stored, mirrored or marked, and completed with rsp; or it is dropped with a plain Cmp (R457); or the
reason it waits. -/
def Acc.tryWrite (a : Acc) (q : Req) (rsp : Rsp) : SRes × Acc :=
  let w := q.win
  let dl := q.dpa / 64
  let x := q.op.wrIn
  let dr := a.dropWrite q
  let a := dr.2
  if dr.1 then (.drop, a.upd (fun d => d.respDrop q))
  else if a.dev.basic && a.dev.winTiered w && q.org = .host then
    (.ok, a.upd (fun d => ((d.bump fFLT_WDROP_COUNT 1).emit (.mediaEvent q.head q.dpa 0)).finish q rsp 3))
  else
    let mir := a.dev.winMirrored w
    let live := mir && a.dev.mirLive w
    if a.dev.rebuildReads dl then (.wait, a)
    else if live && a.dev.mirFull then (.waitMir, a)
    else
      let o := a.onOut w dl
      let s := if o.1 then (SRes.ok, o.2) else o.2.storeLine w dl q.cls q x
      if s.1 = .wait ∨ s.1 = .waitTier then s
      else
        (s.1, s.2.upd (fun d =>
          let d := d.dropGot dl
          let lost := decide (s.1 = .lost)
          if live then
            let hold := o.1 || !d.winFenced w
            let n := d.mir.nextNum
            let m := mirMsg (d.get (fPAIR_MIRW_STS_PEER w)) (dl - d.winBase w / 64) x.data x.mask (if x.poison then poisonMedia else 0) false
            let d := d.mirPush { m with win := w, cpl := if hold && q.org = .host then some (q.head, q.tag, rsp) else none }
            if hold && q.org = .host then d else (d.finish q rsp 0).wroteFor q lost (if hold then some n else none)
          else
            let d := if mir && d.mirSt w == mirSolo then d.markDirty w (d.granOf w dl) else d
            (d.finish q rsp 0).wroteFor q lost none))

/-- R426: a write is applied in the writeback lane; one for which a transaction was opened retired its slot then. -/
def Dev.applied (d : Dev) (q : Req) : Dev :=
  match d.transOf (q.dpa / 64) with
  | some t => if t.req = q then d else d.retired q
  | none => d.retired q

/-- What became of a write at its slice. -/
inductive WRes where
  | done | dropped | waits
deriving DecidableEq, Repr

/-- As tryWrite; a write that must wait has joined the list it waits in, ahead of what has not been tried yet (R87). -/
def Acc.acceptWrite (a : Acc) (q : Req) (rsp : Rsp) : WRes × Acc :=
  match (a.serving q).tryWrite q rsp with
  | (.wait, a) => (.waits, a.upd (fun d => d.waitFirst q))
  | (.waitTier, a) => (.waits, a.upd (fun d => d.waitTier q))
  | (.waitMir, a) => (.waits, a.upd (fun d => d.waitMir q))
  | (.drop, a) => (.dropped, a.upd (fun d => d.applied q))
  | (_, a) => (.done, a.upd (fun d => d.applied q))

/-! ### Reading a line -/

/-- How a read can be served now. -/
inductive RRes where
  | have_ (x : PLine)
  | dram (l source : Nat)
  | decode (sb : Nat)
  | merge
  | through
deriving DecidableEq, Repr

/-- R205, R207: where the data of a read of a page of a tiered window stands, its entry e. -/
def Acc.findTiered (a : Acc) (dl cls e : Nat) (q : Req) : RRes × Acc :=
  let miss := fun (a : Acc) =>
    if peState e = 0 then (RRes.have_ (0, peCls e), a)
    else if peCls e = 7 then (.dram (a.dev.cellLine e (dl % 64)) 1, a)
    else (.decode (dl / 16), a)
  if peState e = 1 then
    let l := a.dev.redirect (peLoc e * 512 + dl % 64 * 64) / 64
    (if a.dev.lineOut l then .have_ (0, poisonMedia) else .dram l 0, a)
  else
    match a.dev.hlcEnt (dl / 16) with
    | some h =>
      if h.valid.getLsbD (dl % 16) then
        (.have_ (h.line (dl % 16), if h.poison.getLsbD (dl % 16) then h.reason else 0),
          a.upd (fun d => ((d.hlcTouch (dl / 16)).pmu 40 0x58 (hlcBank (dl / 64)) cls 1).smpFlag q 1))
      else miss a
    | none => miss (if peState e = 2 ∧ peCls e ≠ 7 then a.upd (fun d => d.pmu 40 0x59 (hlcBank (dl / 64)) cls 1) else a)

/-- R18, R205, R207, R267: where the data of a read of window w stands. A host's or job's access to a tiered page counts (R212), once, when
its data is found. A range that has lost its key serves none but what stands in the line buffer (R187). -/
def Acc.findData (a : Acc) (w dl cls : Nat) (q : Req) (count : Bool) : RRes × Acc :=
  let tiered := a.dev.winTiered w
  let miss := tiered && (tfind a.dev.sec.mlines (a.dev.pmapLoc w (dl / 64)).1).isNone
  let buf := tfind a.dev.home.lbuf dl
  let held := match buf with
    | some b => b.part.isSome
    | none => a.dev.ovfLocked w dl
  if held then (.merge, a) else
  let r := if tiered then a.pentCount w (dl / 64) count else (0, a)
  let a := r.2
  match buf with
  | some b => (.have_ (b.data, b.poison), a.upd (fun d => (d.pmuHome (lineSlice dl) 0x2B cls).smpFlag q 0))
  | none =>
    if a.dev.winNoKey w then (.have_ (0, if a.dev.halted then poisonHalt else poisonMedia), a)
    else if tiered then (a.upd (fun d => (if miss then d.smpFlag q 4 else d).hlcRead (dl / 16))).findTiered dl cls r.1 q
    else
      let l := a.dev.backedMpa w (dl * 64) / 64
      if a.dev.lineOut l then
        if a.dev.winMirrored w then
          if a.dev.partnerCurrent w (a.dev.granOf w dl) && a.dev.linkUp then (.through, a) else (.have_ (0, poisonMirrorLost), a)
        else (.have_ (0, poisonMedia), a)
      else (.dram l 0, a)

/-- R201: the reads of the stored lines of a sub-block join the far path's queue. -/
def Acc.decodeReads (a : Acc) (w sb : Nat) : Acc :=
  let r := a.pent w (sb / 4)
  if peState r.1 = 2 then (subRange (peCls r.1) (peSb r.1) (sb % 4)).foldl (fun (a : Acc) j => a.access (a.dev.cellLine r.1 j) 1 none) r.2
  else r.2

/-- A transaction enters the slice's table, or its entry changes. -/
def Dev.putTrans (d : Dev) (t : Trans) : Dev := if d.openOn t.line then d.updTrans t.line (fun _ => t) else d.openTrans t

/-- A read is served or sent on its way: its transaction stays open until its data is there. -/
def Acc.beginRead (a : Acc) (t : Trans) : Acc :=
  let q := t.req
  match (a.serving q).findData q.win t.line q.cls q q.org.counts with
  | (.have_ x, a) => a.upd (fun d => d.endRead t x true)
  | (.dram l source, a) => a.upd (fun d =>
      (d.putTrans { t with wait := .dram, snoops := [] }).pushDram l none source (.host t.line) q.cls q.conf q.hostHead)
  | (.decode sb, a) =>
    let a := a.upd (fun d => (d.putTrans { t with wait := .decode, snoops := [] }).smpFlag q 2)
    if a.dev.tier.decoding.contains sb then a
    else (a.decodeReads q.win sb).upd (fun d => { d with tier := { d.tier with decoding := d.tier.decoding ++ [sb] } })
  | (.merge, a) => a.upd (fun d => d.putTrans { t with wait := .merge })
  | (.through, a) => a.upd (fun d =>
      let tag := d.mir.nextRt
      ((d.putTrans { t with wait := .readThrough tag, snoops := [] }).sendRt q.win t.line false).smpFlag q 3)

/-- Reads that waited for a merge of a line, or for the lock on its leaf, go on. -/
def Acc.resumeMerge (a : Acc) (dl : Nat) : Acc :=
  match a.dev.transOf dl with
  | some t => if t.wait = .merge then a.beginRead t else a
  | none => a

/-! ### Snoops (R93, R96, R98) -/

/-- The decoder of head x that covers a DPA. -/
def Dev.coverDec (d : Dev) (x dpa : Nat) : Option (Nat × Decoder) :=
  (d.decs x).find? (fun e => e.2.size != 0 && e.2.dpaBase ≤ dpa && dpa < e.2.dpaBase + e.2.dpaSize)

/-- R96: the HPA line at which head x reaches a DPA through a decoder, alias 0. -/
def Decoder.hpaOf (c : Decoder) (h n dpa : Nat) : Nat :=
  let g := 2 ^ c.gran
  let off := dpa - c.dpaBase
  let pos := if c.ways ≤ 1 then 0 else Config.interleavePosition h n % c.ways
  (c.base + off / g * (g * c.ways) + pos * g + off % g) / 64

/-- R98, R105: the writes of head x for a line that wait at the slice when its snoop opens are the snoop's data, as those that come later are. -/
def Dev.claimData (d : Dev) (x dl : Nat) : Nat × Dev :=
  let mine := fun (q : Req) => q.org = .host && q.head == x && q.writes dl
  let mark := fun (l : List Req) => l.map (fun q => if mine q then { q with sd := true } else q)
  let n := (d.waiting.filter mine).length
  if n = 0 then (0, d)
  else (n, { d with home := { d.home with waits := mark d.home.waits }
                    tier := { d.tier with waits := mark d.tier.waits }
                    mir := { d.mir with waits := mark d.mir.waits } })

/-- A BISnp to head x for a line, one for each alias. -/
def Dev.sendSnoop (d : Dev) (x dl : Nat) (k : SnpKind) (n : Nat) (c : Decoder) : Snoop × Dev :=
  let w := d.claimData x dl
  let d := w.2
  let al := List.range (d.aliasN x n)
  let st := d.get (fPDV_ALIAS_CTL_STRIDE_SHIFT x n)
  let d := al.foldl (fun d i =>
    (d.emit (.bisnp x (c.hpaOf x n (dl * 64) + (if i = 0 then 0 else i * 2 ^ st / 64)) k)).pmuHome (lineSlice dl) 0x28 8) d
  ({ head := x, wait := al, kind := k, owe := w.1 }, d)

/-- The snoops of Table 4.3: the heads other than h that a request needs snooped in an entry. -/
def snoopsFor (op : ROp) (h : Option Nat) (e : Nat) : List (Nat × SnpKind) :=
  let others := (bitsOf 32 (entSharers e)).filter (fun x => some x != h)
  if entState e = 4 then []
  else
    match op with
    | .rd .s => if entOwned e then others.map (·, .data) else []
    | .rdData => if entOwned e then others.map (·, .data) else []
    | .rd .i => if entOwned e then others.map (·, .cur) else []
    | .clnEvct => []
    | _ => others.map (·, .inv)

/-- A head in an open transaction's snoops has no decoder for the line (R96): its snoop closes at once. -/
def Acc.snoopNone (a : Acc) (w dl x : Nat) : Acc :=
  let r := a.dirPeek w dl
  match r.1 with
  | some e =>
    let a := if entOwned e then r.2.dirPut w dl e (entLost false)
      else
        let sh := entSharers e - (entSharers e &&& 2 ^ x)
        r.2.dirPut w dl e (if sh = 0 then 0 else entOf 1 sh)
    a.upd (fun d => d.raise { src := srcHome (lineSlice dl) 0, sev := 2, code := 96, obj := x, addr := dl * 64, akind := 1, head := some x })
  | none => r.2

/-- The snoops of a list are sent; those of heads without a decoder close at once. -/
def Acc.openSnoops (a : Acc) (w dl : Nat) : List (Nat × SnpKind) → List Snoop × Acc
  | [] => ([], a)
  | (x, k) :: t =>
    match a.dev.coverDec x (dl * 64) with
    | some (n, c) =>
      let r := a.dev.sendSnoop x dl k n c
      let u := Acc.openSnoops { a with dev := r.2 } w dl t
      (r.1 :: u.1, u.2)
    | none => Acc.openSnoops (a.snoopNone w dl x) w dl t

/-- The answer of the owner's snoop, and the MetaValue it wrote back with. -/
def ownerAns (sn : List Snoop) (o : Nat) : BiRsp × Option Meta :=
  match sn.find? (fun s => s.head == o) with
  | some s => (s.ans, s.wb)
  | none => (.i, none)

/-- The sharers of an entry but h. -/
def minusHead (e : Nat) (h : Option Nat) : Nat :=
  match h with
  | some x => entSharers e - (entSharers e &&& 2 ^ x)
  | none => entSharers e

/-- An entry S with sharers, or I without. -/
def entS (sh : Nat) : Nat := if sh = 0 then 0 else entOf 1 sh

/-- Bit h, if a head asks. -/
def headBit (h : Option Nat) : Nat :=
  match h with
  | some x => 2 ^ x
  | none => 0

/-- Table 4.3: the entry after a request, and the MetaValue of its data response (0 I, 1 A, 2 S, 3 E). The table has no row for MemInv
with MetaValue S; it acts as with MetaValue I (DESIGN CHOICE, log entry 72). -/
def nextEntry (op : ROp) (h : Option Nat) (e : Nat) (sn : List Snoop) : Nat × Nat :=
  let o := entOwner e
  let foreign := entOwned e && h != some o
  let base := minusHead e h
  let a := ownerAns sn o
  let kept := if a.1 = .i then 0 else 2 ^ o
  let share := if foreign then entS (headBit h ||| kept) else entS (base ||| headBit h)
  match op with
  | .rd .s => (share, 2)
  | .rdData => if base = 0 then (entOf 2 (headBit h), 3) else (share, 2)
  | .rd .a => (entOf 2 (headBit h), 1)
  | .rd .i =>
    if foreign then
      match a.2 with
      | some .a => (entOf 3 (2 ^ o), 0)
      | some .s => (entS (2 ^ o), 0)
      | some .i => (0, 0)
      | none => (e, 0)
    else (e, 0)
  | .inv .a => (entOf 3 (headBit h), 0)
  | .inv _ => (0, 0)
  | .invNT => (0, 0)
  | .clnEvct => (if entState e = 1 then entS base else if entOwned e && h == some o then 0 else e, 0)
  | .wr .i _ _ => (0, 0)
  | .wrPtl .i _ _ _ => (0, 0)
  | .wr .s _ _ => (entS (headBit h), 0)
  | .wrPtl .s _ _ _ => (entS (headBit h), 0)
  | .wr .a _ _ => (entOf 3 (headBit h), 0)
  | .wrPtl .a _ _ _ => (entOf 3 (headBit h), 0)

/-- The completion of a request without data. -/
def ROp.cmp : ROp → Rsp
  | .inv .a => .cmpE
  | .wr m _ _ => wrRsp m
  | .wrPtl m _ _ _ => wrRsp m
  | _ => .cmp

/-- R94: a request for a line in L. A full-line write leaves L; the rest change nothing. A MemWrPtl grants nothing, and completes with Cmp
whatever its MetaValue (DESIGN CHOICE, log entry 102). -/
def Acc.serveLost (a : Acc) (t : Trans) (e : Nat) : Acc :=
  let q := t.req
  let dl := t.line
  match q.op with
  | .wr _ _ _ =>
    match a.acceptWrite q q.op.cmp with
    | (.done, a) => (a.dirPut q.win dl e (nextEntry q.op q.hostHead 0 []).1).upd (fun d => d.closeTrans dl)
    | (_, a) => a.upd (fun d => d.closeTrans dl)
  | .wrPtl _ _ _ _ => (a.acceptWrite q .cmp).2.upd (fun d => d.closeTrans dl)
  | .rd _ => a.upd (fun d => d.endRead t (0, entReason e) true)
  | .rdData => a.upd (fun d => d.endRead t (0, entReason e) true)
  | _ => a.upd (fun d => (d.closeTrans dl).respCmp q .cmp)

/-- A request answered without service: its transaction closes, with poison for a read. -/
def Dev.serveBad (d : Dev) (t : Trans) (reason : Nat) : Dev :=
  if t.req.op.isRead then d.endRead t (0, reason) true else (d.closeTrans t.line).refuseReq t.req reason

/-- The request of transaction t has nothing left to snoop, in entry e of a line of a SHARED window (R93, R94). -/
def Acc.serveEnt (a : Acc) (t : Trans) (e : Nat) : Acc :=
  let q := t.req
  let w := q.win
  let dl := t.line
  if entState e = 4 then a.serveLost t e
  else
    let n := nextEntry q.op q.hostHead e t.snoops
    if q.op.isRead then (a.dirPut w dl e n.1).beginRead { t with mv := n.2 }
    else if q.op.isWrite then
      match a.acceptWrite q q.op.cmp with
      | (.done, a) => (a.dirPut w dl e n.1).upd (fun d => d.closeTrans dl)
      | (.dropped, a) => a.upd (fun d => d.closeTrans dl)
      | (.waits, a) => a.upd (fun d => if d.openOn dl then d.updTrans dl (fun t => { t with snoops := [] }) else d)
    else (a.dirPut w dl e n.1).upd (fun d => (d.closeTrans dl).respCmp q q.op.cmp)

/-- The request of transaction t has nothing left to snoop: the directory takes its new entry and the request is served; bad is what
follows where the entry is unknown. -/
def Acc.serveWith (a : Acc) (t : Trans) (bad : Acc → Acc) : Acc :=
  let q := t.req
  let a := a.serving q
  let w := q.win
  let dl := t.line
  if a.dev.winShared w then
    if a.dev.winDown w then a.upd (fun d => d.serveBad t poisonLostOwner)
    else
      match a.dirPeek w dl with
      | (none, a) => bad a
      | (some e, a) => a.serveEnt t e
  else if q.op.isRead then a.beginRead t
  else if q.op.isWrite then
    match a.acceptWrite q q.op.cmp with
    | (_, a) => a.upd (fun d => d.closeTrans dl)
  else a.upd (fun d => (d.closeTrans dl).respCmp q q.op.cmp)

/-! ### Data of snoops (R98, R105) -/

/-- A snoop has closed: every BIRsp and every writeback that is its data has come (R98). -/
def Snoop.closed (s : Snoop) : Bool := s.wait.isEmpty && s.owe == 0

/-- A write from a head whose snoop of the line is open is the snoop's data (R98). -/
def Dev.isSnoopData (d : Dev) (q : Req) : Bool :=
  match d.transOf (q.dpa / 64) with
  | some t => q.org = .host && t.snoops.any (fun s => s.head == q.head && !s.closed)
  | none => false

/-- The open snoop of a write's head becomes f of it. -/
def Dev.updSnoop (d : Dev) (q : Req) (f : Snoop → Snoop) : Dev :=
  d.updTrans (q.dpa / 64) (fun t => { t with snoops := t.snoops.map (fun s => if s.head = q.head then f s else s) })

/-- R98: the snoop's data is accepted, and completes by its MetaValue. One that must wait is owed to the snoop until it is accepted, and
a later one waits behind it. -/
def Acc.takeData (a : Acc) (q : Req) : Acc :=
  match (if q.sd then none else a.dev.waitBehind { q with sd := true }) with
  | some d => { a with dev := d.updSnoop q (fun s => { s with owe := s.owe + 1 }) }
  | none =>
    match a.acceptWrite { q with sd := true } q.op.cmp with
    | (.waits, a) => if q.sd then a else a.upd (fun d => d.updSnoop q (fun s => { s with owe := s.owe + 1 }))
    | (r, a) => a.upd (fun d => d.updSnoop q (fun s =>
        { s with wb := if r = .done then some q.op.meta_ else s.wb, owe := if q.sd then s.owe - 1 else s.owe }))

/-- R105: the writes of a line that waited for their turn when its snoops opened are taken as their data. -/
def Acc.owedData (a : Acc) (dl : Nat) : Acc :=
  (a.dev.home.waits.filter (fun q => q.sd && q.writes dl && a.dev.isSnoopData q)).foldl (fun a q =>
    match takeFirst (fun r => r.writes dl && r.mate q) a.dev.home.waits with
    | some (r, rest) => if r = q then Acc.takeData (a.upd (fun d => { d with home := { d.home with waits := rest } })) q else a
    | none => a) a

/-! ### Unknown entries (R111) -/

/-- R111 step 4: the fault of a store line whose unknown entries have all been rebuilt: C where every one became I, else D. -/
def Dev.rebuiltLine (d : Dev) (w dl : Nat) : Dev :=
  if (storeMates dl).any (fun l => d.home.dirBad.contains l) then d
  else
    let lost := d.home.dirL.contains (dl / 8)
    { d with home := { d.home with dirL := d.home.dirL.filter (· != dl / 8) } }.raise
      { src := srcHome (lineSlice dl) 0, sev := if lost then 2 else 1, code := 111, obj := w, addr := dl * 64, akind := 1 }

/-- R111 steps 2 to 4: the snoops of an unknown entry have closed: the entry is rebuilt, the store line rewritten, and the
request served. HOME_HELD of heads whose bits the unknown entry held stays as it is (log entry 71). -/
def Acc.rebuildDone (a : Acc) (dl : Nat) : Acc :=
  match a.dev.transOf dl with
  | some t =>
    if t.wait = .rebuild && t.snoops.all Snoop.closed then
      let w := t.req.win
      let wrote := t.snoops.any (fun s => s.wb.isSome)
      let toI := wrote || (a.dev.get (fHOME_LOST_COUNT w) == 0 && a.dev.home.sweeps.all (fun s => !s.wins.contains w))
      let e := if toI then 0 else entLost true
      let a := a.upd (fun d => { d with home := { d.home with dirBad := d.home.dirBad.filter (· != dl) } })
      let a := (a.dirWrite w dl e).upd (fun d =>
        let d := if toI then d else { d with home := { d.home with dirL := (d.home.dirL ++ [dl / 8]).eraseDups } }.bump (fHOME_LOST_COUNT w) 1
        d.rebuiltLine w dl)
      if t.req.org = .dirRebuild then a.upd (fun d => d.closeTrans dl)
      else a.serveWith { t with snoops := [], wait := .snoops } (fun a => a.upd (fun d => d.serveBad t poisonMedia))
    else a
  | none => a

/-- R111 step 1: the transaction of an unknown entry sends BISnpInv to every member head with a decoder for the line that is not dead. -/
def Acc.rebuildTrans (a : Acc) (t : Trans) : Acc :=
  let w := t.req.win
  let hs := (bitsOf 32 (a.dev.winHeads w)).filter (fun x => (a.dev.coverDec x (t.line * 64)).isSome && !a.dev.bit fHOME_DEAD_HEAD x)
  let r := a.openSnoops w t.line (hs.map (·, SnpKind.inv))
  ((r.2.upd (fun d => d.putTrans { t with snoops := r.1, wait := .rebuild })).owedData t.line).rebuildDone t.line

/-- A request of the slice itself that rebuilds the entry of a line of window w. -/
def rebuildReq (w dl : Nat) : Req := { org := .dirRebuild, head := 0, op := .rd .i, cls := 8, dpa := dl * 64, win := w, res := true }

/-- R111: an unknown entry that no transaction holds is rebuilt, once an agent's slot is free. -/
def Acc.rebuildFor (a : Acc) (w dl : Nat) : Acc :=
  if a.dev.openOn dl || !a.dev.home.dirBad.contains dl then a
  else
    match a.dev.agentSlot (lineSlice dl) with
    | some sk => a.rebuildTrans { line := dl, req := rebuildReq w dl, wait := .rebuild, slot := sk }
    | none => a

/-- R111: a request meets an unknown entry: it is rebuilt for the request, and the other unknown entries of its store line with it. -/
def Acc.startRebuild (a : Acc) (q : Req) (sk : SlotKind) : Acc :=
  let dl := q.dpa / 64
  let a := (a.upd (fun d => d.retired q)).rebuildTrans { line := dl, req := q, wait := .rebuild, slot := sk }
  (storeMates dl).foldl (fun a l => a.rebuildFor q.win l) a

/-- The request of transaction t has nothing left to snoop; an entry that has become unknown meanwhile is rebuilt first. -/
def Acc.serve (a : Acc) (t : Trans) : Acc := a.serveWith t (fun a => a.rebuildTrans t)

/-- The snoops of a line's transaction may all have closed. -/
def Acc.snoopsDone (a : Acc) (dl : Nat) : Acc :=
  match a.dev.transOf dl with
  | some t => if t.wait = .snoops && t.snoops.all Snoop.closed then a.serve t else a
  | none => a

/-- A line's open snoops may all have closed, of whatever transaction. -/
def Acc.snoopsMoved (a : Acc) (dl : Nat) : Acc := (a.snoopsDone dl).rebuildDone dl

/-! ### Take-up (R85, R93, R101 to R104) -/

/-- Requests of a slice's retry queue. -/
def Dev.retryLen (d : Dev) (sl : Nat) : Nat := (d.home.retry.filter (fun r => lineSlice (r.dpa / 64) == sl)).length

/-- PTR and occupancy of a slice's retry queue. -/
def Dev.rqStats (d : Dev) (sl : Nat) : Dev :=
  let n := d.retryLen sl
  let d := d.set (fHOME_SLICE_STS_RQ_N sl) n
  if d.get (fHOME_SLICE_STS_RQ_HWM sl) < n then d.set (fHOME_SLICE_STS_RQ_HWM sl) n else d

/-- R102, R104: a request whose set is pinned enters the retry queue, or stays in the crossbar's queue when that is full. -/
def Dev.toRetry (d : Dev) (q : Req) : Dev :=
  let sl := lineSlice (q.dpa / 64)
  if d.retryLen sl < 64 then
    ((({ d with home := { d.home with retry := d.home.retry ++ [q] } }).rqStats sl).pmuHome sl 0x2A 8).topDown q 0x21
  else d.toXbar q

/-- The entry of a line for a request: a writeback whose set is pinned uses the store directly (R103), an agent's read allocates no
entry (R95). -/
def Acc.dirFor (a : Acc) (q : Req) : DRes × Acc :=
  let dl := q.dpa / 64
  let peek := fun (a : Acc) => match a.dirPeek q.win dl with
    | (some e, a) => (DRes.ent e, a)
    | (none, a) => (.unknown, a)
  if q.org != .host && q.op.isRead then peek a
  else
    let a := if (a.dev.dirWay dl).isNone then a.upd (fun d => d.smpFlag q 5) else a
    match a.dirGet q.win dl q.cls with
    | (.pinned, a) => if q.op.isWrite || q.op = .clnEvct then peek a else (.pinned, a)
    | r => r

/-- R104: a request that misses the directory cache is not taken up: the retry queue is full. -/
def Dev.missHeld (d : Dev) (q : Req) : Bool :=
  let dl := q.dpa / 64
  !q.op.isWrite && q.op != .clnEvct && (d.dirWay dl).isNone && 64 ≤ d.retryLen (lineSlice dl)

/-- A request finds its line free: it opens its transaction. A write without a slot waits in the writeback lane (R313); what becomes of
another request without one, or of a miss that a full retry queue holds back (R104), back says. -/
def Acc.takeUpOr (a : Acc) (q : Req) (back : Dev → Dev) : Acc :=
  let a := a.serving q
  let w := q.win
  let dl := q.dpa / 64
  let noSlot := fun (d : Dev) => if q.op.isWrite then d.waitFirst q else back d
  let fin := fun (d : Dev) => if q.op.isWrite then d else d.retired q
  if a.dev.winShared w && !a.dev.winDown w then
    if a.dev.missHeld q then a.upd back
    else
      match a.dirFor q with
      | (.pinned, a) => a.upd (fun d => d.toRetry q)
      | (.unknown, a) =>
        match a.dev.slotOf q with
        | some sk => (a.upd (fun d => d.takeSlot q sk)).startRebuild q sk
        | none => a.upd noSlot
      | (.ent e, a) =>
        let sn := snoopsFor q.op q.hostHead e
        if sn.isEmpty && !q.op.isRead then (a.serve { line := dl, req := q, wait := .snoops, slot := .write }).upd fin
        else
          match a.dev.slotOf q with
          | none => a.upd noSlot
          | some sk =>
            let a := a.upd (fun d => ((d.retired q).takeSlot q sk).openTrans { line := dl, req := q, wait := .snoops, slot := sk })
            let r := a.openSnoops w dl sn
            let a := r.2.upd (fun d => let d := d.updTrans dl (fun t => { t with snoops := r.1 }); if sn.isEmpty then d else d.smpFlag q 6)
            (a.owedData dl).snoopsDone dl
  else if q.op.isRead then
    match a.dev.slotOf q with
    | some sk => ((a.upd (fun d => d.takeSlot q sk)).serve { line := dl, req := q, wait := .snoops, slot := sk }).upd (fun d => d.retired q)
    | none => a.upd noSlot
  else (a.serve { line := dl, req := q, wait := .snoops, slot := .write }).upd fin

/-- As takeUpOr: a host's request stays in the crossbar's queue, an agent's in its agent (R313). -/
def Acc.takeUp (a : Acc) (q : Req) : Acc := a.takeUpOr q (fun d => if q.org = .host then d.toXbar q else d)

/-- R98: the snoop's data, at its slice; the transaction goes on where it was owed. -/
def Acc.snoopData (a : Acc) (q : Req) : Acc := if q.sd then (a.takeData q).snoopsMoved (q.dpa / 64) else a.takeData q

/-- A write that needs no snoop beside an open transaction of its line: accepted on arrival (R93), behind earlier ones (R87). -/
def Acc.writeNow (a : Acc) (q : Req) (e : Nat) : Acc :=
  match a.dev.waitBehind q with
  | some d => { a with dev := d }
  | none =>
    let rsp := match entState e, q.op with
      | 4, .wrPtl _ _ _ _ => .cmp
      | _, _ => q.op.cmp
    match a.acceptWrite q rsp with
    | (.done, a) =>
      let n := match entState e, q.op with
        | 4, .wrPtl _ _ _ _ => e
        | _, _ => (nextEntry q.op q.hostHead e []).1
      a.dirPut q.win (q.dpa / 64) e n
    | (_, a) => a

/-- A write outside SHARED windows is accepted, behind earlier ones of its line (R87). -/
def Acc.writePlain (a : Acc) (q : Req) : Acc :=
  match a.dev.waitBehind q with
  | some d => { a with dev := d }
  | none => (a.acceptWrite q q.op.cmp).2

/-- A write that waited is tried again: for its own open transaction, as the data of an open snoop, or anew. -/
def Acc.retryWrite (a : Acc) (q : Req) : Acc :=
  let a := a.serving q
  let dl := q.dpa / 64
  match a.dev.transOf dl with
  | some t =>
    if t.req = q then a.serve t
    else if !a.dev.winShared q.win then (a.acceptWrite q q.op.cmp).2
    else if a.dev.isSnoopData q then a.snoopData q
    else a.upd (fun d => d.waitFirst { q with sd := false })
  | none => if a.dev.winShared q.win then a.takeUp { q with sd := false } else (a.acceptWrite q q.op.cmp).2

/-- Writes that waited in a list are tried again in their order; one of whose line an earlier one still waits joins it (R87). -/
def Acc.retryInOrder (a : Acc) (l : List Req) : Acc :=
  l.foldl (fun a q => match a.dev.waitBehind q with
    | some d => { a with dev := d }
    | none => a.retryWrite q) a

/-- Writes that wait at their slices for lines that p selects, each for its own open transaction, as the data of an open snoop, or in a
window without directory, are tried again, those of a line in their order (R87). -/
def Acc.wakeLines (a : Acc) (p : Nat → Bool) : Acc :=
  let mine := fun (q : Req) => q.op.isWrite && p (q.dpa / 64) &&
    (!a.dev.winShared q.win || a.dev.isSnoopData q || a.dev.home.trans.any (fun t => t.req = q))
  let a := (a.dev.home.waits.filter mine).foldl (fun a q =>
    match takeFirst (fun r => mine r && r.dpa / 64 == q.dpa / 64) a.dev.home.waits with
    | some (r, rest) =>
      if r = q && !(a.dev.tier.waits ++ a.dev.mir.waits).any (fun r => r.writes (q.dpa / 64)) then
        Acc.retryWrite (a.upd (fun d => { d with home := { d.home with waits := rest } })) q
      else a
    | none => a) a
  ((a.dev.home.trans.filter (fun t => p t.line)).map (·.line)).foldl Acc.resumeMerge a

/-- A write at its slice, in the writeback lane (R87, R93): the data of an open snoop; or accepted on arrival where it needs no snoop
and no earlier write waits, for the owner's none of its own; or it waits for the line's open transaction, or opens its own. -/
def Acc.orderWrite (a : Acc) (q : Req) (busy : Bool) : Acc :=
  if !a.dev.winShared q.win then a.writePlain q
  else if a.dev.isSnoopData q then a.snoopData q
  else if busy then
    match a.dirPeek q.win (q.dpa / 64) with
    | (some e, a) =>
      let behind := a.dev.home.waits.any (fun r => r.writes (q.dpa / 64) && (!entOwned e || q.mate r))
      if (snoopsFor q.op q.hostHead e).isEmpty && !behind then a.writeNow q e else a.upd (fun d => d.pushWait q)
    | (none, a) => a.upd (fun d => d.pushWait q)
  else a.takeUp q

/-- A request at its slice: writes pass in the writeback lane, others queue behind the line's open transaction. -/
def Acc.order (a : Acc) (q : Req) : Acc :=
  let a := a.serving q
  let dl := q.dpa / 64
  let busy := a.dev.openOn dl || a.dev.waitsOn dl || a.dev.retryOn dl
  if q.op.isWrite then
    let dr := a.dropWrite q
    if dr.1 then dr.2.upd (fun d => (d.retired q).respDrop q) else dr.2.orderWrite q busy
  else if q.op = .clnEvct then
    if busy then
      match a.dirPeek q.win dl with
      | (some e, a) =>
        if a.dev.winShared q.win && !a.dev.winDown q.win && entState e != 4 then
          (a.dirPut q.win dl e (nextEntry q.op q.hostHead e []).1).upd (fun d => (d.retired q).respCmp q .cmp)
        else a.upd (fun d => (d.retired q).respCmp q .cmp)
      | (none, a) => a.upd (fun d => (d.retired q).respCmp q .cmp)
    else a.takeUp q
  else if busy then a.upd (fun d => (d.retired q).pushWait q)
  else a.takeUp q

end Sys2Proof.Machine
end

