-- ==== Sys2Proof/Machine/JobQ.lean ====
section
/-! DEFINITION. Job queues: their states, jobs in flight and halts (11_job_engines.md R278 to R286, R302 to R305). -/

namespace Sys2Proof.Machine

/-- JDB_STS.STATE. -/
def qDisabled : Nat := 0
def qActive : Nat := 1
def qHalted : Nat := 2
def qDraining : Nat := 3

/-- The queue number of head h, queue q. -/
def qNum (h q : Nat) : Nat := h * 16 + q

/-- Jobs in flight of a queue. -/
def Dev.jobsOf (d : Dev) (h q : Nat) : List JobE := d.job.jobs.filter (fun j => j.head == h && j.queue == q)

/-- INFLIGHT follows the jobs. -/
def Dev.jobStats (d : Dev) (h q : Nat) : Dev := d.set (fJDB_STS_INFLIGHT h q) (d.jobsOf h q).length

/-- The jobs change; INFLIGHT of a queue follows. -/
def Dev.setJobs (d : Dev) (h q : Nat) (l : List JobE) : Dev := { d with job := { d.job with jobs := l } }.jobStats h q

/-- JOB_CAP.PRESENT: the slices of the part (R3, R4). -/
def Dev.present (d : Dev) : Nat := if d.ab then 0x0F else 0xFF

/-- STATE, HEAD and QUEUE of slice s follow what runs on it (R286). -/
def Dev.sliceStats (d : Dev) (s : Nat) : Dev :=
  match d.job.jobs.find? (fun j => j.slice == s && j.place == 1) with
  | some j => ((d.set (fJOB_SLC_STS_STATE s) 1).set (fJOB_SLC_STS_HEAD s) j.head).set (fJOB_SLC_STS_QUEUE s) j.queue
  | none => d.wr (rJOB_SLC_STS s) (if !d.present.testBit s then 3 else if !d.bit fJOB_CTL_SLICE_EN s then 2 else 0)

/-- Every slice's status follows. -/
def Dev.slicesStats (d : Dev) : Dev := (List.range 8).foldl Dev.sliceStats d

/-- Job j of the store becomes k. -/
def Dev.putJob (d : Dev) (j k : JobE) : Dev :=
  d.setJobs j.head j.queue (d.job.jobs.map (fun x => if x.head = j.head ∧ x.queue = j.queue ∧ x.seq = j.seq then k else x))

/-- A job ends with a status; a slice that ran it counts it. -/
def Dev.endJob (d : Dev) (j : JobE) : Dev :=
  let k := { j with place := 3, ready := false, todo := [] }
  let d := if j.slice < 8 then
      (d.bump (fJOB_SLC_DONE_JOBS j.slice) 1).agentsGone (fun o => o = .jobRead j.slice || o = .jobWrite j.slice)
    else d
  let d := if j.status = 0 then d else d.pmu 42 0x71 j.slice 8 1
  (d.putJob j k).slicesStats

/-- The staged job of slice s starts. -/
def Dev.startStaged (d : Dev) (s : Nat) : Dev :=
  match d.job.jobs.find? (fun j => j.slice == s && j.place == 2) with
  | some j => ((d.putJob j { j with place := 1 }).slicesStats).pmu 42 0x70 s 8 1
  | none => d

/-- A queue enters HALTED with a cause (Table 11.9); a halt without a record raises the queue's vector (R285). -/
def Dev.queueHalt (d : Dev) (h q cause dpa slot : Nat) (irq : Bool) : Dev :=
  let d := (d.set (fJDB_STS_STATE h q) qHalted).set (fJDB_STS_CAUSE h q) cause
  let d := (d.set (fJDB_HALTINFO_DPA h q) dpa).set (fJDB_HALTINFO_SLOT h q) slot
  if irq then d.msix h (d.get (fJDB_CTL_VEC h q)) else d

/-- The slot of a count in a queue's descriptor ring. -/
def Dev.dqSlot (d : Dev) (h q n : Nat) : Nat := n % 2 ^ d.get (fJDB_CTL_QLOG h q)

/-- The queues that are not DISABLED. -/
def Dev.liveQueues (d : Dev) : List (Nat × Nat) :=
  (heads.flatMap (fun h => (List.range 16).map (fun q => (h, q)))).filter (fun x => d.get (fJDB_STS_STATE x.1 x.2) != 0)

/-- The fetch of queue q of head h ends, and its accesses are given up. -/
def Dev.fetchGone (d : Dev) (h q : Nat) : Dev :=
  Dev.agentsGone { d with job := { d.job with fetching := d.job.fetching.filter (· != qNum h q) } } (fun o => decide (o = Origin.fetch h q))

/-- An access of the job engines. -/
def Origin.isJob : Origin → Bool
  | .jobRead _ => true
  | .jobWrite _ => true
  | .fetch _ _ => true
  | .record _ _ => true
  | _ => false

/-- An access for the queues that p selects, by a slice of the list or by the dispatcher. -/
def Origin.forQueue (slices : List Nat) (p : Nat → Nat → Bool) : Origin → Bool
  | .jobRead s => slices.contains s
  | .jobWrite s => slices.contains s
  | .fetch h q => p h q
  | .record h q => p h q
  | _ => false

/-- The jobs of the queues that p selects are abandoned, and their accesses given up. -/
def Dev.jobsGone (d : Dev) (p : Nat → Nat → Bool) : Dev :=
  let sl := (d.job.jobs.filter (fun j => p j.head j.queue && j.place == 1)).map (·.slice)
  { d with job := { d.job with jobs := d.job.jobs.filter (fun j => !p j.head j.queue)
                               fetching := d.job.fetching.filter (fun n => !p (n / 16) (n % 16))
                               halting := d.job.halting.filter (fun e => !p (e.1 / 16) (e.1 % 16))
                               badCount := d.job.badCount.filter (fun n => !p (n / 16) (n % 16)) } }.agentsGone (Origin.forQueue sl p)

/-- The staged job of a slice that runs none starts. -/
def Dev.startIdle (d : Dev) (s : Nat) : Dev := d.when (!d.job.jobs.any (fun j => j.slice == s && j.place == 1)) (fun d => d.startStaged s)

/-- R304: the jobs of head p are abandoned and its queues become DISABLED, with HEAD reset values; a job of another head that was staged
behind one of them starts. -/
def Dev.jobsHeadDown (d : Dev) (p : Nat) : Dev :=
  let d := ((d.jobsGone (fun h _ => h == p)).resetRegs (fun dom h => dom == .head && h == p)).slicesStats
  (List.range 8).foldl Dev.startIdle d

/-- Every job is abandoned without a record; every queue takes a state and a cause (R189 step 6, R374). -/
def Dev.jobsAbandon (d : Dev) (state cause : Nat) : Dev :=
  let d := { d with job := { d.job with jobs := [], fetching := [], halting := [] } }.agentsGone Origin.isJob
  let d := d.liveQueues.foldl (fun d x =>
    let d := ((d.set (fJDB_STS_STATE x.1 x.2) state).set (fJDB_STS_CAUSE x.1 x.2) cause).set (fJDB_STS_INFLIGHT x.1 x.2) 0
    if state = qHalted then d.msix x.1 (d.get (fJDB_CTL_VEC x.1 x.2)) else d.setFlag (fJDB_CTL_EN x.1 x.2) false) d
  d.slicesStats

/-- A job in flight at the entry into Basic service: it fails with BASIC_SERVICE (R304). -/
def basicEnd (j : JobE) : JobE :=
  { j with slice := if j.place = 1 || j.place = 3 then j.slice else 255, status := 0xD, opidx := 255, result := 0, bytes := 0, halt := true }

/-- R304: a job in flight, whose record is not written yet, ends with BASIC_SERVICE; one that had ended keeps its place. -/
def Dev.jobBasic (d : Dev) (j : JobE) : Dev := if j.place = 3 then d.putJob j (basicEnd j) else d.endJob (basicEnd j)

/-- R304: a queue halts with cause BASIC; one that stood HALTED keeps what JDB_HALTINFO latched, and a SECURITY halt stays (Table 11.9). -/
def Dev.queueBasic (d : Dev) (h q : Nat) : Dev :=
  if d.get (fJDB_STS_STATE h q) ≠ qHalted then d.queueHalt h q 6 0 0 (d.jobsOf h q).isEmpty
  else if d.get (fJDB_STS_CAUSE h q) = 5 then d
  else d.set (fJDB_STS_CAUSE h q) 6

/-- R304: entry into Basic service: every job in flight ends with BASIC_SERVICE, and every queue halts with cause BASIC. -/
def Dev.jobsBasic (d : Dev) : Dev :=
  let d := d.job.jobs.foldl Dev.jobBasic d
  let d := { d with job := { d.job with fetching := [], halting := [] } }.agentsGone Origin.isJob
  d.liveQueues.foldl (fun d x => d.queueBasic x.1 x.2) d

end Sys2Proof.Machine
end

