-- ==== Sys2Proof/Machine/Port.lean ====
section
/-! DEFINITION. Ports (02_host_links.md, 03_windows.md, 12_qos.md): requests from their arrival to their home slice, the escapement,
head loss (04_coherence.md R107, R108), and what a head reset does (R60). -/

namespace Sys2Proof.Machine

/-! ### Requests without service (R47, R74, R76) -/

/-- R47: UNCLAIMED and the one record of an access of head p that nothing claims; its CODE names the rule. -/
def Dev.unclaimedMark (d : Dev) (p code dpa hpa : Nat) : Dev :=
  (d.setFlag (fPDV_LNK_ERR_UNCLAIMED p) true).raise
    { src := srcPort p 2, sev := 1, code := code, obj := p, addr := if code = 76 then dpa else 0,
      akind := if code = 76 then 1 else 0, head := some p, aux0 := hpa * 64 }

/-- R47: a request that no decoder, no window or no membership claims: all ones or a plain completion, and the record. -/
def Dev.unclaimed (d : Dev) (q : Req) (code : Nat) : Dev :=
  ((d.pmuLnk q.head 0x15 8 1).unclaimedMark q.head code q.dpa q.hpa).finish { q with win := 256 }
    (if q.op.isRead then .data (~~~(0 : LineData)) 0 0 else .cmp) 2

/-- R76: what WIN_STS and WIN_MISS_DPA show of a miss. -/
def Dev.missSeen (d : Dev) (p dpa : Nat) : Dev :=
  ((d.setFlag fWIN_STS_MISS true).set fWIN_MISS_DPA_DPA dpa).set fWIN_MISS_DPA_HEAD p

/-- R76: the DPA lies in no valid window, or the head is no member. -/
def Dev.winMiss (d : Dev) (q : Req) : Dev := (d.missSeen q.head q.dpa).unclaimed q 76

/-- R74: a window's entry, or its key range, fails a check: the window is served no more. -/
def Dev.winFail (d : Dev) (w : Nat) (inj : Bool) : Dev :=
  let d := { d with win := { d.win with faulted := (d.win.faulted ++ [w]).eraseDups } }.setFlag fWIN_STS_CMP_ERR true
  d.raise { src := src 8 0, sev := 3, code := 74, obj := w, inj := inj }

/-- The first pair of range n that fails a use. -/
def Dev.krUse (d : Dev) (n : Nat) : Bool × Dev :=
  (krPairs n).foldl (fun a p => if a.1 then (let r := a.2.pairUse p.1 p.2; (r.1, r.2)) else a) (true, d)

/-- R154: a crypto pipe uses range n; a pair of it that does not match fails every window of the range (R74). -/
def Dev.krCheck (d : Dev) (n : Nat) : Bool × Dev :=
  let k := d.krUse n
  let inj := (krPairs n).all (fun p => d.pairMatch p.1 p.2)
  if k.1 then k
  else (false, (d.windows.filter (fun w => d.winKr w == n && !d.win.faulted.contains w)).foldl (fun d w => d.winFail w inj) k.2)

/-- Work of the controller's own under range n: it runs where the pairs of the range match (R154). -/
def Acc.underKr (a : Acc) (n : Nat) (f : Acc → Acc) : Acc :=
  let k := a.dev.krCheck n
  if k.1 then f { a with dev := k.2 } else { a with dev := k.2 }

/-- R74, R154, R65: the entry of window w and its key range pass their checks; a failure is recorded. -/
def Dev.winCheck (d : Dev) (w : Nat) : Bool × Dev :=
  match d.winUse w with
  | (some x, d) => (false, d.winFail w x.2)
  | (none, d) =>
    let k := d.krCheck (d.winKr w)
    if !k.1 || k.2.winModeOk w then k else (false, k.2.winFail w false)

/-- R74: the entry serves a request at stage 3: it has not failed before, and passes its checks now. -/
def Dev.entryUse (d : Dev) (w : Nat) : Bool × Dev := if d.win.faulted.contains w then (false, d) else d.winCheck w

/-- A window-table change holds a DPA: it lies in the old or the new range (Table 3.4 step 1). -/
def Dev.chgHolds (d : Dev) (dpa : Nat) (c : WinChg) : Bool :=
  let nb := c.img.getD 1 0 % 2 ^ 25 * unit2M
  let ns := c.img.getD 2 0 % 2 ^ 25 * unit2M
  (d.winValid c.win && d.winHas c.win dpa) || (nb ≤ dpa && dpa < nb + ns)

/-! ### Requests of one cycle (R86) -/

/-- The ports of a mask in the order from the rotating pointer. -/
def ptrOrder (ptr mask : Nat) : List Nat :=
  ((List.range 32).map (fun i => (ptr + i) % 32)).filter (fun p => mask.testBit p)

/-- The port of two that is nearest at or above a pointer, counting upward modulo 32. -/
def nearer (ptr x y : Nat) : Nat := if (x + 32 - ptr) % 32 ≤ (y + 32 - ptr) % 32 then x else y

/-- R86: a request of a group that arrives in one cycle takes its place in the order of the pointer as it stood when the cycle began:
that order and the group's number, and the device with the group and the pointer moved. Groups of a slice that overlap are of one
cycle, and the pointer ends above the first port of the group that is nearest (log entry 19). -/
def Dev.cycleIn (d : Dev) (q : Req) : Option (List Nat × Nat) × Dev :=
  let dl := q.dpa / 64
  let sl := lineSlice dl
  match tfind d.home.cyc dl with
  | some g =>
    if g.2.1.testBit q.head then
      let m := g.2.1 - 2 ^ q.head
      let cyc := if m = 0 then tdel d.home.cyc dl else tins d.home.cyc dl (g.1, m, g.2.2)
      let c0 := if cyc.any (fun e => lineSlice e.1 == sl) then d.home.cyc0 else tdel d.home.cyc0 sl
      (some (g.1, g.2.2), { d with home := { d.home with cyc := cyc, cyc0 := c0 } })
    else (none, d)
  | none =>
    let m := q.rivals - (q.rivals &&& 2 ^ q.head)
    if m = 0 then (none, d)
    else
      let ptr := d.get (fHOME_SLICE_STS_PTR sl)
      let p0 := (tfind d.home.cyc0 sl).getD ptr
      let o := ptrOrder p0 (m + 2 ^ q.head)
      let first := if (tfind d.home.cyc0 sl).isSome then nearer p0 (o.headD 0) ((ptr + 31) % 32) else o.headD 0
      let d := d.set (fHOME_SLICE_STS_PTR sl) (first + 1)
      let n := d.home.grpN + 1
      (some (o, n), { d with home := { d.home with cyc := tins d.home.cyc dl (o, m, n), cyc0 := tins d.home.cyc0 sl p0, grpN := n } })

/-- The request joins the wait list of its line before the first waiting request of its group that follows it: of a port later in the
order, or of an agent. -/
def waitInsert (o : List Nat) (q : Req) : List Req → List Req
  | [] => [q]
  | r :: t =>
    if r.dpa / 64 = q.dpa / 64 ∧ r.grp = q.grp ∧ (r.org ≠ .host ∨ o.idxOf q.head < o.idxOf r.head) then q :: r :: t else r :: waitInsert o q t

/-- A request that needs an order among rivals. -/
def Acc.grouped (a : Acc) (q : Req) : Acc :=
  if q.op.isWrite || q.op = .clnEvct then a.order q
  else
    match a.dev.cycleIn q with
    | (none, d) => Acc.order { a with dev := d } q
    | (some (o, n), d) =>
      let dl := q.dpa / 64
      let q := { q with grp := n }
      let ahead := (d.waiting ++ d.home.retry).any (fun r => r.dpa / 64 == dl && r.grp != n)
      if o.headD 0 = q.head ∧ !d.openOn dl ∧ !ahead then Acc.takeUp { a with dev := d } q
      else Acc.upd { a with dev := { d with home := { d.home with waits := waitInsert o q d.home.waits } } }
        (fun d => (d.retired q).pinStats (lineSlice dl))

/-! ### At the slice (stages 3 and 4 of Table 1.2) -/

/-- Checker 3 of Table 15.9: a transfer toward the slice of a request whose first transmission fails parity is resent, at the cost of a slot
(R426). -/
def Dev.toSlice (d : Dev) (q : Req) : Dev :=
  let r := d.crossed (src 35 (lineSlice (q.dpa / 64) / 2))
  if r.1 then r.2.topDown q 0x21 else d

/-- A request in its turn at the slice: the window-table lookup and its checks, then the order of its line. -/
def Acc.slice (a : Acc) (q : Req) : Acc :=
  let p := q.head
  match a.dev.win.chg.find? (a.dev.chgHolds q.dpa) with
  | some c => a.upd (fun d => { d with win := { d.win with chg := d.win.chg.map (fun x => if x.win = c.win then { x with held := x.held ++ [q] } else x) } })
  | none =>
    let a := a.upd (fun d => d.toSlice q)
    if a.dev.halted then a.upd (fun d => d.refuseReq q poisonHalt)
    else if a.dev.fatal then a.upd (fun d => d.refuseReq q poisonMedia)
    else if (a.dev.portOf p).viral && (q.op.isRead || q.op.isWrite) then a.upd (fun d => d.refuseReq q poisonHalt)
    else
      match a.dev.winOf q.dpa with
      | none => a.upd (fun d => d.winMiss q)
      | some w =>
        let q := { q with win := w }
        if !a.dev.winMember w p then a.upd (fun d => d.winMiss q)
        else if a.dev.mirSt w = mirTarget then a.upd (fun d => d.unclaimed q 47)
        else
          let c := a.dev.entryUse w
          let a := { a with dev := c.2 }
          if !c.1 then a.upd (fun d => d.refuseReq q poisonMedia)
          else if a.dev.winNoKey w && !q.op.isWrite then a.upd (fun d => d.refuseReq q poisonMedia)
          else a.grouped q

/-- A resolved request that has left the escapement: behind one of its line that stays in the crossbar's queue, it stays there too (R85). -/
def Acc.enter (a : Acc) (q : Req) : Acc :=
  if !q.op.isWrite && q.op != .clnEvct && a.dev.home.xbar.any (fun r => r.dpa / 64 == q.dpa / 64) then a.upd (fun d => d.toXbar q) else a.slice q

/-! ### The escapement (R309 to R313, R316, R320) -/

/-- HELD_REQ and HELD_RWD of a port. -/
def Dev.heldStats (d : Dev) (p : Nat) : Dev :=
  let h := d.heldOf p
  (d.set (fQOS_PORT_STS_HELD_REQ p) (h.filter (fun q => !q.op.isWrite)).length).set (fQOS_PORT_STS_HELD_RWD p) (h.filter (·.op.isWrite)).length

/-- A request takes 64 B of tokens of its class if its bucket holds them (R310). -/
def Dev.takeTokens (d : Dev) (p c : Nat) : Bool × Dev :=
  let t := tget (fun _ => 0) (d.portOf p).tokens c
  if d.get (fQOS_PORT_CFG_MODE p) = 0 && d.get (fQOS_CLS_KIND c) == 1 && 64 ≤ t then
    (true, d.updPort p (fun s => { s with tokens := tins s.tokens c (t - 64) }))
  else (false, d)

/-- A common slot at the request's slice is free for its class (R313). -/
def Dev.commonFree (d : Dev) (sl c : Nat) : Bool :=
  let com := d.slots sl (fun k => match k with | .common _ => true | _ => false)
  com < 224 - d.rsvSum && d.slots sl (· == .rsv c) + d.slots sl (· == .common c) < d.get (fQOS_CLS_SLOT_MAX c)

/-- R316: the budget of a COMPAT port's window leaves room. -/
def Dev.compatRoom (d : Dev) (p : Nat) : Bool :=
  let b := d.get (fQOS_PORT_BUDGET_BYTES p)
  d.get (fQOS_PORT_CFG_MODE p) == 0 || b == 0 || (d.portOf p).compat < max b 64

/-- An earlier held request of the same port, channel and line (R312). -/
def heldAhead (q : Req) (l : List Req) : Bool :=
  l.any (fun r => r.res && r.op.isWrite == q.op.isWrite && r.dpa / 64 == q.dpa / 64)

/-- A non-conforming request may pass now: budget, common slot, excess bucket. -/
def Dev.mayPass (d : Dev) (q : Req) : Bool :=
  d.compatRoom q.head && d.commonFree (lineSlice (q.dpa / 64)) q.cls && (!d.flag fQOS_STS_THERM || 64 ≤ d.qos.excess)

/-- A request passes: its bytes count in a COMPAT window, and a non-conforming one draws on the excess bucket (R320). -/
def Dev.passed (d : Dev) (q : Req) : Dev :=
  let d := if q.op.hasData && d.get (fQOS_PORT_CFG_MODE q.head) = 1 then d.updPort q.head (fun s => { s with compat := s.compat + 64 }) else d
  if !q.conf && d.flag fQOS_STS_THERM then { d with qos := { d.qos with excess := d.qos.excess - 64 } } else d

/-- R312: a non-conforming request passes with a common slot granted to it. -/
def Acc.passFree (a : Acc) (q : Req) : Acc := (a.upd (fun d => (d.passed q).charge q)).enter { q with gr := true }

/-- A request is held in its port's receive buffer. -/
def Dev.holdReq (d : Dev) (q : Req) : Dev :=
  (((d.joinSlots q).updPort q.head (fun s => { s with rx := s.rx ++ [q], heldThis := true })).heldStats q.head).smpFlag q 8

/-- The escapement takes a resolved request. -/
def Acc.escape (a : Acc) (q : Req) : Acc :=
  if !q.op.hasData then a.enter q
  else
    let p := q.head
    let t := a.dev.takeTokens p q.cls
    let a := { a with dev := t.2 }
    let q := { q with conf := t.1 }
    let shared := match a.dev.winOf q.dpa with
      | some w => a.dev.winShared w
      | none => false
    let rx := (a.dev.portOf p).rx
    if q.op.isWrite && shared then (a.upd (fun d => d.passed q)).enter q
    else if heldAhead q rx then a.upd (fun d => d.holdReq q)
    else if q.conf then (a.upd (fun d => d.passed q)).enter q
    else if !rx.any (fun r => r.res && r.cls == q.cls) && a.dev.mayPass q then a.passFree q
    else a.upd (fun d => d.holdReq q)

/-! ### Arrival (R37, R46, R55, R62) -/

/-- Ports release requests: not while the device sleeps or a WARM reset runs. -/
def Dev.portsOpen (d : Dev) : Bool :=
  d.get fPWR_SLEEP_STS_STATE == 0 && d.pin.warm == 0 && !d.pwr.exiting && d.pwr.entering.isNone

/-- MEM_READY follows its conditions (R62, R55, R37); a MAC failure ends it too, since CXL.mem is then unusable (R56; DEDUCED, log entry
73). -/
def Dev.memReady (d : Dev) (p : Nat) : Bool :=
  let s := d.portOf p
  s.restored && s.memEn && s.up && s.cxl && !s.macStop && !s.needKeys && (!d.flag (fPDV_PORT_STS_IDE_REQUIRED p) || d.get (fPDV_PORT_STS_IDE_MEM p) == 1)

/-- A request is resolved: class alias, decoder, DPA; then the escapement. -/
def Acc.resolveReq (a : Acc) (q : Req) : Acc :=
  let p := q.head
  match a.dev.resolve p (q.hpa * 64) with
  | none => a.upd (fun d => ((d.pmuLnk p (if q.op.isWrite then 0x11 else 0x10) 8 1).smpCount q (q.hpa * 64)).unclaimed q 47)
  | some (c, al, cls, hpa) =>
    let dpa := c.dpa hpa / 64 * 64
    let q := { q with alias_ := al, cls := cls, dpa := dpa, res := true, win := (a.dev.winOf dpa).getD 0 }
    let a := a.upd (fun d => (d.pmuLnk p (if q.op.isWrite then 0x11 else 0x10) cls 1).smpCount q (q.hpa * 64))
    if a.dev.flag (fPDV_PORT_STS_IDE_REQUIRED p) && a.dev.get (fPDV_PORT_STS_IDE_MEM p) != 1 then a.upd (fun d => d.unclaimed q 47)
    else a.escape q

/-- A request passes stage 1 of Table 1.2: it is held in the receive buffer (R62), or resolved. Where IDE_REQUIRED is set and no CXL.mem
stream is Secure, the requests that waited for the restore stay held and newer ones queue behind them, though those of a restored head are
answered under R47 (DESIGN CHOICE, log entry 101). -/
def Acc.letIn (a : Acc) (q : Req) : Acc :=
  let s := a.dev.portOf q.head
  if !s.restored || !s.memEn || !a.dev.portsOpen || s.rx.any (fun r => !r.res) then
    a.upd (fun d => d.updPort q.head (fun s => { s with rx := s.rx ++ [q] }))
  else a.resolveReq q

/-- R309, R104: the receive buffer has an entry for a request with data, or for one without; the head holds a credit for it. A request in
the crossbar's queue of a slice keeps its entry: it backs up to its port (DEDUCED, log entry 97). -/
def Dev.room (d : Dev) (p : Nat) (data : Bool) : Bool :=
  let s := d.portOf p
  decide (((s.rx ++ s.epoch ++ d.home.xbar.filter (fun q => q.org = .host && q.head == p)).filter (fun q => q.op.isWrite == data)).length <
    if data then 128 else 256)

/-- The requests held for Mem_Enable, restore, IDE or sleep proceed in arrival order once nothing holds them (R62). -/
def Acc.releaseRx (a : Acc) (p : Nat) : Acc :=
  let a := a.upd (fun d => d.setFlag (fPDV_PORT_STS_MEM_READY p) (d.memReady p))
  if a.dev.memReady p && a.dev.portsOpen then
    let l := (a.dev.portOf p).rx.filter (fun q => !q.res)
    let a := a.upd (fun d => d.updPort p (fun s => { s with rx := s.rx.filter (·.res) }))
    l.foldl Acc.resolveReq a
  else a

/-- R393: an entry aborts; a pair link that had gone to sleep for it is woken (R252). -/
def Dev.abortSleep (d : Dev) (code : Nat) : Dev :=
  let d := { d with pwr := { d.pwr with entering := none } }
  (((d.setFlag fPWR_SLEEP_STS_ABORTED true).set fPWR_SLEEP_STS_LAST_WAKE code).bumpSat fPWR_ENTRIES_ABORTS 1).pairWake

/-- R393, R394: a wake source activates. An aborted entry lets the ports go on at once. -/
def Acc.wake (a : Acc) (k : Nat) : Acc :=
  match a.dev.pwr.entering with
  | some (st, _) => if a.dev.wakes k st then heads.foldl Acc.releaseRx (a.upd (fun d => d.abortSleep k)) else a
  | none => a.upd (fun d => d.rouse k)

/-- A CXL.mem request arrives at its port; without a credit none can (log entry 97). A flit received wakes a controller that sleeps or is
about to (R394). On a Secure stream a request passes no further until the MAC of its epoch has verified (R54): it waits with the requests of
its epoch, and the one that the MAC comes with takes them along in their order (log entry 74). -/
def Acc.arrive (a : Acc) (i : ReqIn) (op : ROp) : Acc :=
  let p := i.head.toNat
  let s := a.dev.portOf p
  if !s.up || !s.cxl || s.macStop || s.needKeys || !a.dev.room p op.isWrite then a
  else
    let q : Req := { head := p, hpa := i.hpa.toNat, tag := i.tag.toNat, op := op, rivals := i.rivals.toNat }
    let secure := a.dev.get (fPDV_PORT_STS_IDE_MEM p) == 1
    let a := (a.upd (fun d => d.updPort p (fun s => { s with inL1 := false }))).wake 1
    if secure && i.macOpen then a.upd (fun d => d.updPort p (fun s => { s with epoch := s.epoch ++ [q] }))
    else
      let a := if s.epoch.isEmpty then a else a.upd (fun d => d.updPort p (fun s => { s with epoch := [] }))
      (s.epoch ++ [q]).foldl Acc.letIn a

/-- The CXL.mem stream of port p runs no more: the requests whose epoch has not verified never will, and are discarded (R54; DESIGN CHOICE, log
entry 74). -/
def Dev.ideStopped (d : Dev) (p : Nat) : Dev :=
  let d := if (d.portOf p).epoch.isEmpty then d else d.updPort p (fun s => { s with epoch := [] })
  d.set (fPDV_PORT_STS_IDE_MEM p) 0

/-! ### Head loss (R107, R108) -/

/-- Every open snoop of head p in the windows of a list closes as BIRspI without data. -/
def Dev.closeSnoops (d : Dev) (p : Nat) (wins : List Nat) : Dev :=
  { d with home := { d.home with trans := d.home.trans.map (fun t => if !wins.contains t.req.win then t else
      { t with snoops := t.snoops.map (fun s => if s.head = p then { s with wait := [], owe := 0, ans := .i } else s) }) } }

/-- The transactions of lines go on where their snoops have closed. -/
def Acc.resumeAll (a : Acc) (l : List Nat) : Acc := l.foldl Acc.snoopsMoved a

/-- R107: the writes of a window that wait at their slices are given up; those of hosts that no transaction completes are dropped. -/
def Dev.dropWaiting (d : Dev) (w : Nat) : Dev :=
  let mine := fun (q : Req) => q.win == w && q.op.isWrite
  let gone := d.waiting.filter (fun q => mine q && q.org = .host && !d.home.trans.any (fun t => t.req = q))
  let d := { d with home := { d.home with waits := d.home.waits.filter (fun q => !mine q) }
                    tier := { d.tier with waits := d.tier.waits.filter (fun q => !mine q) }
                    mir := { d.mir with waits := d.mir.waits.filter (fun q => !mine q) } }
  gone.foldl Dev.respDrop d

/-- R107: a DOMAIN window goes down: viral once to each surviving member, poison to the reads that wait. A window that is down already
signals no viral again (DESIGN CHOICE, log entry 75). -/
def Acc.domainDown (a : Acc) (w p : Nat) : Acc :=
  let a := a.upd (fun d =>
    let was := d.winDown w
    let d := d.setBit (fHOME_WDOWN_DOWN (w / 32)) (w % 32) true
    let d := if was then d else d.emits (((bitsOf 32 (d.winHeads w)).filter (fun h => h != p && (d.portOf h).up)).map Out.viral)
    let d := d.dropWaiting w
    { d with home := { d.home with trans := d.home.trans.map (fun t => if t.req.win = w then { t with wait := .snoops, snoops := [] } else t) } })
  ((a.dev.home.trans.filter (fun t => t.req.win == w)).map (·.line)).foldl Acc.snoopsDone a

/-- R107, R108: head p is lost for the SHARED windows of a list. -/
def Acc.headLoss (a : Acc) (p : Nat) (wins : List Nat) : Acc :=
  let dom := wins.filter (fun w => !a.dev.winReclaim w)
  let rec_ := wins.filter a.dev.winReclaim
  let a := a.upd (fun d =>
    if rec_.isEmpty then d
    else
      let d := rec_.foldl (fun d w => d.set (fHOME_HELD_COUNT p w) 0) d
      let d := (d.setBit fHOME_DEAD_HEAD p true).setFlag fHOME_SWEEP_ACTIVE true
      let d := if d.home.sweeps.isEmpty then d.set fHOME_SWEEP_WINDOW (rec_.headD 0) else d
      { d with home := { d.home with sweeps := d.home.sweeps ++ [(⟨p, rec_, 0⟩ : Sweep)] } })
  let a := dom.foldl (fun a w => a.domainDown w p) a
  let ls := (a.dev.home.trans.filter (fun t => wins.contains t.req.win && t.snoops.any (fun s => s.head == p))).map (·.line)
  (a.upd (fun d => d.closeSnoops p wins)).resumeAll ls

/-- The SHARED windows that a head's committed decoders cover. -/
def Dev.affected (d : Dev) (p : Nat) : List Nat :=
  ((d.decs p).flatMap (fun e => (d.decWins e.2).filter d.winShared)).eraseDups

/-! ### Head reset (R60, Table 2.5) -/

/-- Requests of head p that no slice has accepted are discarded (step 2). -/
def Dev.dropHeadReqs (d : Dev) (p : Nat) : Dev :=
  let keep := fun (q : Req) => q.org != .host || q.head != p
  let lost := (d.smpOf p).fol.isSome
  let cyc := (d.home.cyc.map (fun e => (e.1, (e.2.1, e.2.2.1 - (e.2.2.1 &&& 2 ^ p), e.2.2.2)))).filter (fun e => e.2.2.1 != 0)
  let d := { d with home := { d.home with waits := d.home.waits.filter keep, retry := d.home.retry.filter keep, xbar := d.home.xbar.filter keep
                                          trans := d.home.trans.filter (fun t => keep t.req), biConf := d.home.biConf.filter (fun c => c.1 != p)
                                          cyc := cyc, cyc0 := d.home.cyc0.filter (fun e => cyc.any (fun c => lineSlice c.1 == e.1)) }
                    tier := { d.tier with waits := d.tier.waits.filter keep }
                    mir := { d.mir with waits := d.mir.waits.filter keep, fences := d.mir.fences.filter (fun f => f.1 != p)
                                        unacked := d.mir.unacked.map (fun m => if m.cpl.any (fun c => c.1 == p) then { m with cpl := none } else m) }
                    win := { d.win with chg := d.win.chg.map (fun c => { c with held := c.held.filter keep }) } }
  let d := (List.range 16).foldl (fun d s => (d.pinStats s).rqStats s) d
  if lost then { d with smp := tdel d.smp p }.bumpSat (fSMP_STS_LOST p) 1 else d

/-- R32, Table 2.2: the width code of port p if the bifurcation in force forms it. -/
def Dev.formed (d : Dev) (p : Nat) : Option Nat :=
  match d.mgt.linkCfg.getD (p / 4) 0 with
  | 0 => if p % 4 = 0 then some 2 else none
  | 1 => if p % 2 = 0 then some 1 else none
  | _ => some 0

/-- R419: the monitor units and rings that a head holds lose their holder. -/
def Dev.dropClaims (d : Dev) (p : Nat) : Dev :=
  let d := (List.range 44).foldl (fun d u => if d.get (fPMU_U_CLAIM_HOLDER u) = p then d.set (fPMU_U_CLAIM_HOLDER u) 63 else d) d
  (List.range 8).foldl (fun d n => if d.get (fRING_CLAIM_HOLDER n) = p then d.set (fRING_CLAIM_HOLDER n) 63 else d) d

/-- Step 5: HEAD-domain registers reset, decoders uncommitted, IDE streams cleared, offers returned, its DOE sessions ended, its
claims released (R419); the replies of its commands in progress or in the queue are discarded (R335). After a MAC failure the head needs new keys still (R56). -/
def Dev.headRegs (d : Dev) (p : Nat) : Dev :=
  let s := d.portOf p
  let d := (d.dropClaims p).resetRegs (fun dom h => dom == .head && h == p)
  let d := d.updPort p (fun _ => { PortS.empty with perst := s.perst, up := s.up, cxl := s.cxl, adv := s.cap, cap := s.cap, sris := s.sris,
                                                    extents := s.extents, cdat := s.cdat, needKeys := s.needKeys || s.macStop })
  let d := d.set (fPDV_PORT_STS_FORMED p) ((d.formed p).getD 0)
  { d with mgt := { d.mgt with sessions := d.mgt.sessions.filter (fun x => match x.via with
                                 | .doe h => h.toNat != p
                                 | _ => true)
                               bg := d.mgt.bg.map (fun e => (e.1, if e.2.link = some p then { e.2 with tr := 4 } else e.2))
                               cmdq := d.mgt.cmdq.map (fun q => if d.linkOf q.pkt = some p then { q with mute := true } else q)
                               bgStat := tdel d.mgt.bgStat p } }

/-- Table 2.5: HEAD_PERST_N asserts or the link goes down. The head is lost where its Mem_Enable is set, or where R100 applies. -/
def Acc.headDown (a : Acc) (p : Nat) (perst lost : Bool) : Acc :=
  let s := a.dev.portOf p
  let wins := a.dev.affected p
  let a := a.upd (fun d =>
    let d := d.updPort p (fun s => { s with perst := s.perst || perst, up := false, cxl := false, rx := [], epoch := [] })
    ((d.dropHeadReqs p).jobsHeadDown p).heldStats p)
  let a := if s.memEn || lost then a.headLoss p wins else a
  let ls := (a.dev.home.trans.filter (fun t => t.snoops.any (fun s => s.head == p))).map (·.line)
  let a := (a.upd (fun d => d.closeSnoops p (List.range 256))).resumeAll ls
  a.upd (fun d => d.headRegs p)

end Sys2Proof.Machine
end

