-- ==== Sys2Proof/Machine/Settle.lean ====
section
/-! DEFINITION. What follows a command whose effect met a check that failed: the security halt (07_encryption_integrity.md R189), the
fatal stop and the entry into Basic service (15_faults.md R373 to R375); and acknowledgements of BIConflict (R99). -/

namespace Sys2Proof.Machine

/-! ### The copies of a block in flash (R345) -/

/-- The record's contents as numbers: keys excluded, each image with its complement (R336). -/
def CfgRec.nums (c : CfgRec) : List Nat :=
  (c.regs ++ c.comps).flatMap (fun e => [e.1, e.2]) ++ c.link ++ c.dc.flatMap (fun e => [e.1, e.2.1, e.2.2.1, e.2.2.2]) ++
  c.wins.flatMap (fun e => e.1 :: e.2) ++ c.krs.flatMap (fun e => e.1 :: e.2) ++ (match c.pairing with
    | some x => [x.1, x.2]
    | none => []) ++ c.targets.flatMap (fun e => [e.1, e.2]) ++ c.tierLim ++ c.layout ++ [c.bmUnits, c.smbAddr]

/-- The contents of the boot-select block as numbers. -/
def BootSel.nums (b : BootSel) : List Nat := [b.active, b.try_.toNat] ++ b.confirmed

/-- The CRC-32C of a copy, over its sequence number and its contents. -/
def copyCrc (seq : Nat) (nums : List Nat) : Nat := crc32c (toBytes 8 seq ++ (Config.recordBytes nums).map BitVec.toNat)

/-- Of two copies, the one with the higher sequence number. -/
def newest {α : Type} (a b : Option (Copy α)) : Option (Copy α) :=
  match a, b with
  | some x, some y => if y.seq < x.seq then some x else some y
  | some x, none => some x
  | none, y => y

/-- The copies after one more write: it goes to the other copy than the last. -/
def putCopy {α : Type} (nums : α → List Nat) (a b : Option (Copy α)) (v : α) : Option (Copy α) × Option (Copy α) :=
  let last := ((newest a b).map (·.seq)).getD 0
  let n := (last + 1) % 2 ^ 64
  let c : Copy α := ⟨n, v, copyCrc n (nums v)⟩
  if a.any (fun x => x.seq == last) then (a, some c) else (some c, b)

/-- What a reader finds: the intact copy with the higher sequence number. -/
def readCopy {α : Type} (nums : α → List Nat) (a b : Option (Copy α)) : Option α :=
  let ok := fun (c : Copy α) => c.crc == copyCrc c.seq (nums c.body)
  (newest (a.filter ok) (b.filter ok)).map (·.body)

/-- The boot-select block is written to flash. -/
def Flash.putSel (f : Flash) : Flash :=
  let r := putCopy BootSel.nums f.selA f.selB f.sel
  { f with selA := r.1, selB := r.2 }

/-- The record, or the boot-select block, has changed since it was written last. -/
def Flash.recOld (f : Flash) : Bool := !decide ((newest f.recA f.recB).map (·.body) = some f.cfg)
def Flash.selOld (f : Flash) : Bool := !decide ((newest f.selA f.selB).map (·.body) = some f.sel)

/-- What has changed is written. -/
def Flash.sync (f : Flash) : Flash :=
  let f := if f.selOld then f.putSel else f
  let r := putCopy CfgRec.nums f.recA f.recB f.cfg
  if f.recOld then { f with recA := r.1, recB := r.2 } else f

/-- Flash can be written, and holds an older record or boot-select block. -/
def Dev.flashOld (d : Dev) : Bool := d.flashUp && (d.flash.recOld || d.flash.selOld)

/-- Firmware writes a changed record, or boot-select block, to flash (R336, R351). -/
def Dev.flashSync (d : Dev) : Dev := if d.flashOld then { d with flash := d.flash.sync } else d

/-- R345: what a boot finds in flash. -/
def Dev.flashRead (d : Dev) : Dev :=
  let f := d.flash
  { d with flash := { f with sel := (readCopy BootSel.nums f.selA f.selB).getD f.sel, cfg := (readCopy CfgRec.nums f.recA f.recB).getD f.cfg } }

/-! ### The pair sideband (R271) -/

/-- Flags of a sideband message. -/
def Dev.sbFlags (d : Dev) : Nat :=
  let paired := d.mir.pairing.isSome
  let role := match d.mir.pairing with
    | some r => r.1 % 2
    | none => 0
  role + 2 * (d.halted || d.fatal).toNat + 4 * d.linkUp.toNat + 8 * paired.toNat

/-- A sideband message is sent. -/
def Dev.sbSend (d : Dev) (ty arg : Nat) : Dev :=
  let fl := d.sbFlags
  d.emit (.sideband ty fl arg (crc16 ([ty, fl] ++ toBytes 4 arg)))

/-! ### Requests that will not be served -/

/-- Every outstanding read completes with poison of a reason; every waiting write is dropped with its completion. -/
def Dev.refuseAll (d : Dev) (reason : Nat) : Dev :=
  let ts := d.home.trans
  let held := d.home.waits ++ d.home.retry ++ d.home.xbar ++ d.tier.waits ++ d.mir.waits ++ d.win.chg.flatMap (·.held)
  let d := { d with home := { d.home with trans := [], waits := [], retry := [], xbar := [], cyc := [], cyc0 := [], got := [], wrote := [] }
                    tier := { d.tier with waits := [], decoding := [] }
                    mir := { d.mir with waits := [] }
                    win := { d.win with chg := d.win.chg.map (fun c => { c with held := [] }) } }
  let d := ts.foldl (fun d t => d.refuseReq t.req reason) d
  let d := held.foldl (fun d q => d.refuseReq q reason) d
  (List.range 16).foldl (fun d s => (d.pinStats s).rqStats s) d

/-- Viral is signalled on the link of every head. -/
def Dev.viralAll (d : Dev) : Dev := d.emits ((heads.filter (fun h => (d.portOf h).up)).map Out.viral)

/-- SPARES_FREE follows the spares taken; RETIRED the frames whose redirect is valid (Table 6.6 steps 1 and 3). -/
def Dev.retStats (d : Dev) : Dev :=
  (d.set fMCH_RET_STS_SPARES_FREE (8192 - d.mch.spares.length)).set fMCH_RET_STS_RETIRED (d.mch.spares.length - d.mch.retiring.isSome.toNat)

/-- R335: retirement, repair, promotion and sleep stop with the command that started them: what they hold goes on, and a spare frame that
has not been put in place is free again. -/
def Dev.cmdsStop (d : Dev) : Dev :=
  let m := d.mch
  let free := m.ppr.isEmpty
  let taken := m.retiring.map (fun x => x.2.1)
  { d with mch := { m with retiring := none, spares := m.spares.filter (fun s => some s != taken), ppr := [], pprBuf := [],
                           sub := if free then m.sub else m.sub.map (fun (e : Nat × SubS) => (e.1, { e.2 with blocked := [] })) }
           mir := { d.mir with claim := none }
           pwr := { d.pwr with sleepReq := d.pwr.sleepReq.filter (fun x => x.2.isNone) } }.retStats

/-- Steps 2 to 4 and 6 of Table 7.12; steps 1 and 5 were done at the failed check (haltNow). -/
def Dev.haltRest (d : Dev) (cause kr source addr : Nat) (isMpa : Bool) : Dev :=
  let d := { d with sec := { d.sec with haltPend := none, init := [] } }
  let d := (d.refuseAll poisonHalt).viralAll
  let d := heads.foldl (fun d p => d.ideStopped p) d
  let d := { d with mgt := { d.mgt with sessions := [] }, win := { d.win with chg := [] } }
  let d := if d.linkUp then { d with pair := { d.pair with halt := some cause } }
    else ({ (d.linkDown 7) with pair := { (d.linkDown 7).pair with held := true } }).sbSend 2 cause
  let d := (d.jobsAbandon qHalted 5).exportStopAll
  let d := d.raise { src := src 24 0, sev := 5, code := cause, obj := kr, addr := addr, akind := if isMpa then 2 else 1, aux0 := source }
  let d := d.logPut 9 5 (src 24 0) (cause + kr * 2 ^ 8 + source * 2 ^ 16 + addr * 2 ^ 64)
  d.cmdsStop.bgEndAll (fun _ => true) stDeviceHalted

/-- Table 15.5. -/
def Dev.fatalStop (d : Dev) : Dev :=
  let d := { d with flt := { d.flt with escFatal := false, escBasic := false } }
  if d.halted || d.fatal then d
  else
    let d := ((d.setFlag fFLT_STS_FATAL true).setFlag fFLT_STS_BASIC false).viralAll
    let d := d.refuseAll poisonMedia
    let d := { d with win := { d.win with chg := [] } }
    let d := (d.setFlag fPAIR_CTL_EN false).linkDown 6
    let d := (d.jobsAbandon qDisabled 0).exportStopAll
    let d := d.sec.init.foldl (fun d n => d.set (fSEC_KR_STS_STATE n) 1) d
    let d := { d with sec := { d.sec with init := [] } }
    d.cmdsStop.bgEndAll (fun b => b.op != 0xC602 && b.op != 0xC600) stDeviceHalted

/-- Table 15.6, steps 1 to 4; step 5 is BASIC_WRITEOUT_DONE. -/
def Dev.basicEntry (d : Dev) : Dev :=
  let d := { d with flt := { d.flt with escBasic := false } }
  if d.halted || d.fatal || d.basic then d
  else
    let d := d.setFlag fFLT_STS_BASIC true
    let d := { d with flt := { d.flt with basicStep := 1 }, tier := { d.tier with promoQ := [] } }
    d.jobsBasic

/-- The tags of the requests of head h for a DPA line that reached the slice and have not completed yet. -/
def Dev.owed (d : Dev) (h dl : Nat) : List Nat :=
  ((d.home.trans.filter (fun t => t.req.org = .host && t.req.head == h && t.line == dl)).map (fun t => t.req.tag)) ++
  (((d.home.waits ++ d.home.retry ++ d.home.xbar ++ d.tier.waits ++ d.mir.waits).filter (fun q =>
    q.org = .host && q.head == h && q.dpa / 64 == dl)).map (·.tag)) ++
  d.mir.unacked.filterMap (fun m => match m.cpl with
    | some (x, tag, _) => if x = h ∧ d.winBase m.win / 64 + m.at_ 2 5 = dl then some tag else none
    | none => none)

/-- R99: BIConflictAck follows every earlier completion. -/
def Dev.ackConflicts (d : Dev) : Dev :=
  let l := d.home.biConf.map (fun c => (c.1, c.2.1, c.2.2.1, c.2.2.2.filter (fun t => (d.owed c.1 c.2.2.1).contains t)))
  let d := { d with home := { d.home with biConf := l.filter (fun c => !c.2.2.2.isEmpty) } }
  (l.filter (fun c => c.2.2.2.isEmpty)).foldl (fun d c => if (d.portOf c.1).up then d.emit (.biConflictAck c.1 c.2.1 (d.devLoad c.1 (d.winTiered (d.lineWin c.2.2.1)))) else d) d

/-- R388: the target P-level is the slowest request. -/
def Dev.pTarget (d : Dev) : Nat :=
  max (max (d.get fPWR_PSTS_FW_REQ) (d.get fPWR_PSTS_THERM_REQ)) (if d.basic then 2 else 0)

/-- VDD_CORE of a level in mV (Table 16.2). -/
def voltOf (l : Nat) : Nat := if l = 0 then 800 else if l = 1 then 720 else if l = 2 then 620 else 550

/-- R389: the next step of the V/F sequencer: lowering switches the clock before the slew, raising slews first. -/
def Dev.vfNext (d : Dev) : Dev :=
  let t := d.get fPWR_PSTS_TARGET
  let c := d.get fPWR_PSTS_CUR
  let step := if c < t then 1 else if c = t then (if d.pwr.vdd = voltOf t then 0 else 2) else if d.pwr.vdd < voltOf t then 2 else 1
  { d with pwr := { d.pwr with vf := step, vfTo := t } }.setFlag fPWR_PSTS_BUSY (step != 0)

/-- R388: the requests and the target follow; an idle sequencer starts. -/
def Dev.retarget (d : Dev) : Dev :=
  let t := d.pTarget
  if d.flag fPWR_PSTS_BASIC_REQ = d.basic ∧ d.get fPWR_PSTS_TARGET = t then d
  else
    let d := (d.setFlag fPWR_PSTS_BASIC_REQ d.basic).set fPWR_PSTS_TARGET t
    if d.pwr.vf = 0 then d.vfNext else d

/-- R392: something that sleep waits for is at work (Table 16.4, BUSY, for every state). -/
def Dev.atWork (d : Dev) : Bool :=
  !d.home.trans.isEmpty || !d.job.jobs.isEmpty || !d.job.fetching.isEmpty || !d.mir.rebuild.isEmpty ||
  (List.range 16).any (fun n => d.krState n == 4) || !d.sec.quar.isEmpty || !d.sec.ovf.isEmpty || !d.sec.init.isEmpty ||
  !d.tier.decoding.isEmpty || !d.tier.promoQ.isEmpty || !d.tier.reQ.isEmpty || d.tier.rebuild || d.flag fCDC_STS_ORPHAN_SWEEP ||
  !d.home.sweeps.isEmpty || d.mch.rank.any (fun e => e.2.retrain) || !d.mch.retrainQ.isEmpty || d.mch.retiring.isSome ||
  !d.mch.ppr.isEmpty || !d.win.chg.isEmpty || (List.range 256).any (fun w => d.mirSt w == mirCopy)

/-- Table 16.4: the first condition for entry to a state that does not hold, 0 for none. -/
def Dev.sleepBlock (d : Dev) (st : Nat) : Nat :=
  let ports := (heads.map d.portOf)
  if d.get fPWR_LIMITS_DEEPEST < st then 1
  else if 2 ≤ st ∧ (List.range 256).any d.mirLive = true then 2
  else if 2 ≤ st ∧ d.linkSt ≠ 0 ∧ d.linkSt ≠ 5 then 3
  else if d.atWork = true ∨ (st = 2 ∧ ports.any (fun s => s.up && !s.inL1) = true) then 4
  else if st = 3 ∧ (ports.any (·.up) = true ∨ d.rd rHOME_DEAD ≠ 0 ∨ d.mgt.bg.any (fun e => !e.2.fg && !e.2.done) = true) then 5
  else 0

/-- R392, R393: a sleep request whose conditions hold starts the entry; S1 is complete at once. -/
def Dev.trySleep (d : Dev) : Dev :=
  match d.pwr.sleepReq with
  | some (st, bg) =>
    if d.sleepBlock st = 0 then
      let d := { d with pwr := { d.pwr with sleepReq := none } }.bgDoneOpt bg stSuccess noDetail []
      if st = 1 then (d.set fPWR_SLEEP_STS_STATE 1).bumpSat fPWR_ENTRIES_S1 1
      else { d with pwr := { d.pwr with entering := some (st, none) } }
    else d
  | none => d

/-- R373: what a command's effect brought about takes effect in the same step, and flash holds what changed. -/
def Dev.settle (d : Dev) : Dev :=
  let d := match d.sec.haltPend with
    | some (c, k, s, a, m) => d.haltRest c k s a m
    | none => d
  let d := if d.flt.escFatal then d.fatalStop else d
  let d := if d.flt.escBasic then d.basicEntry else d
  d.ackConflicts.retarget.trySleep.flashSync

/-- The effect of a command that touches the device only, settled. -/
def run (f : Dev → Dev) : State → Result := onDev (fun d => (f d).settle)

/-- The effect of a command that stores to DRAM, settled. -/
def runAcc (f : Acc → Acc) : State → Result := onAcc (fun a => ((f a).settleQuar 8).upd Dev.settle)

/-! ### Internal agents (R95, R16) -/

/-- What an agent's read or write meets. -/
inductive ARes where
  | have_ (x : PLine)
  | wait
deriving DecidableEq, Repr

/-- The agent's collected line is used up. -/
def Dev.takeGot (d : Dev) (o : Origin) (dl : Nat) : Option (Option (LineData × Nat)) × Dev :=
  match takeFirst (fun g => g.1 = o && g.2.1 == dl) d.home.got with
  | some (g, r) => (some g.2.2, { d with home := { d.home with got := r } })
  | none => (none, d)

/-- An agent opens a transaction for a line: it takes an agent or class slot, or waits. -/
def Dev.agentTrans (d : Dev) (q : Req) (t : TWait) : Option Trans :=
  if d.openOn (q.dpa / 64) then none
  else (d.slotOf q).map (fun sk => { line := q.dpa / 64, req := q, wait := t, slot := sk })

/-- The request of an agent; one that comes in a cycle whose requests are still arriving ranks after its ports (R86). -/
def agentReq (o : Origin) (cls w dl : Nat) (op : ROp) : Req := { org := o, head := 0, op := op, cls := cls, dpa := dl * 64, win := w, res := true }
def Dev.inCycle (d : Dev) (q : Req) : Req :=
  match tfind d.home.cyc (q.dpa / 64) with
  | some g => { q with grp := g.2.2 }
  | none => q

/-- R85: a request of the agent for the line is at the slice already. -/
def Dev.agentAt (d : Dev) (o : Origin) (dl : Nat) : Bool :=
  d.home.trans.any (fun t => t.line == dl && t.req.org = o) ||
  (d.waiting ++ d.home.retry).any (fun q => q.org = o && q.dpa / 64 == dl)

/-- Requests for the line stand before an agent's that comes now (R85, R86). -/
def Dev.lineBusy (d : Dev) (dl : Nat) : Bool :=
  d.openOn dl || d.waitsOn dl || d.retryOn dl || (tfind d.home.cyc dl).isSome || d.home.xbar.any (fun q => q.dpa / 64 == dl)

/-- An agent's request that must wait its turn joins the line's wait list (R85), once. -/
def Dev.agentWait (d : Dev) (q : Req) : Dev := if d.agentAt q.org (q.dpa / 64) then d else (d.retired q).pushWait (d.inCycle q)

/-- An agent's transaction opens. -/
def Dev.openAgent (d : Dev) (t : Trans) : Dev := ((d.retired t.req).takeSlot t.req t.slot).openTrans t

/-- A line's data as it stands, for an agent that needs no snoop; a bad line of a mirrored window is read through (R267). A read without a
free slot waits in its agent (R313). -/
def Acc.readNow (a : Acc) (o : Origin) (cls w dl : Nat) (count : Bool) : ARes × Acc :=
  let q := agentReq o cls w dl (.rd .i)
  let through := fun (a : Acc) =>
    match a.dev.agentTrans q (.readThrough a.dev.mir.nextRt) with
    | some t => (ARes.wait, a.upd (fun d => (d.openAgent t).sendRt w dl false))
    | none => (ARes.wait, a)
  let counted := fun (a : Acc) =>
    if count && a.dev.winTiered w then let r := a.pent w (dl / 64); r.2.countAcc w (dl / 64) r.1 else a
  match tfind a.dev.home.lbuf dl with
  | some b => if b.part.isSome then (.wait, a) else (.have_ (b.data, b.poison), counted a)
  | none =>
    if a.dev.ovfLocked w dl then (.wait, a)
    else if a.dev.winNoKey w then (.have_ (0, if a.dev.halted then poisonHalt else poisonMedia), a)
    else if a.dev.winTiered w then
      let r := a.pent w (dl / 64)
      if peState r.1 = 1 then
        match (counted r.2).nearLine w (dl / 64) (peLoc r.1 / 8) (dl % 64) 0 with
        | (some x, a) => (.have_ x, a)
        | (none, a) => (.have_ (0, poisonHalt), a)
      else
        let a := r.2
        match a.dev.agentTrans q .decode with
        | none => (.wait, if a.dev.openOn dl then a.upd (fun d => d.agentWait q) else a)
        | some t =>
          let a := (a.upd (fun d => d.takeSlot q t.slot)).beginRead t
          match a.dev.takeGot o dl with
          | (some (some x), d) => (.have_ x, { a with dev := d })
          | _ => (.wait, a)
    else
      let l := a.dev.backedMpa w (dl * 64) / 64
      let cur := a.dev.winMirrored w && a.dev.partnerCurrent w (a.dev.granOf w dl) && a.dev.linkUp
      if a.dev.lineOut l then
        if cur then through a else (.have_ (0, if a.dev.winMirrored w then poisonMirrorLost else poisonMedia), a)
      else
        match a.rdQueued l 0 (some (dl * 64)) with
        | (.inr r, a) => if r = poisonMedia && cur then through a else (.have_ (0, r), a)
        | (.inl v, a) =>
          match a.openLine (a.dev.winKr w) dl v 1 with
          | (.data x, a) => (.have_ (BitVec.ofNat 512 x, 0), a)
          | (.poison r, a) => if r = poisonMedia && cur then through a else (.have_ (0, r), a)
          | (.halt, a) => (.have_ (0, poisonHalt), a)

/-- R426: an agent's access that is served at once retires a slot. -/
def Acc.readDone (q : Req) : ARes × Acc → ARes × Acc
  | (.have_ x, a) => (.have_ x, a.upd (fun d => d.retired q))
  | r => r

/-- R95, R21: an agent reads a line with BISnpCur, without allocation; a miss waits while the retry queue is full (R104). Where the line is
busy (R85), or a snoop, a read-through or a decode must run first, it waits and comes back. Its window entry is checked as a host's
request's is (R65, R74). -/
def Acc.agentRead (a : Acc) (o : Origin) (cls w dl : Nat) : ARes × Acc :=
  let count := match o with
    | .jobRead _ => true
    | _ => false
  let q := agentReq o cls w dl (.rd .i)
  let g := a.dev.takeGot o dl
  match g.1 with
  | some (some x) => (.have_ x, { a with dev := g.2 })
  | some none => Acc.readNow { a with dev := g.2 } o cls w dl count
  | none =>
    if a.dev.winShared w && a.dev.winDown w then Acc.readDone q (.have_ (0, poisonLostOwner), a)
    else if a.dev.agentAt o dl then (.wait, a)
    else
    let u := a.dev.entryUse w
    let a := { a with dev := u.2 }
    if !u.1 || a.dev.winNoKey w then Acc.readDone q (.have_ (0, poisonMedia), a)
    else if a.dev.lineBusy dl then (.wait, a.upd (fun d => d.agentWait q))
    else if a.dev.winShared w then
      if a.dev.missHeld q then (.wait, a)
      else
        match a.dirPeek w dl with
        | (none, a) =>
          match a.dev.agentTrans q .rebuild with
          | some t => (.wait, (a.upd (fun d => d.takeSlot q t.slot)).startRebuild t.req t.slot)
          | none => (.wait, a)
        | (some e, a) =>
          if entState e = 4 then Acc.readDone q (.have_ (0, entReason e), a)
          else if entOwned e then (.wait, a.takeUp q)
          else Acc.readDone q (a.readNow o cls w dl count)
    else Acc.readDone q (a.readNow o cls w dl count)

/-- What an agent learns of its write: it has been accepted (or dropped), with the mirror message whose MACK it must wait for; its page was
lost (R221); or it waits at the slice, and the agent comes back. -/
inductive AWr where
  | ok (msg : Option Nat)
  | lost
  | wait
deriving DecidableEq, Repr

/-- The agent is told of a write that its slice has applied. -/
def Dev.takeWrote (d : Dev) (o : Origin) (dl : Nat) : AWr × Dev :=
  match takeFirst (fun g => g.1 = o && g.2.1 == dl) d.home.wrote with
  | some (g, r) => (if g.2.2.1 then .lost else .ok g.2.2.2, { d with home := { d.home with wrote := r } })
  | none => (.wait, d)

/-- R95: an agent writes a line as MemWr with MetaValue I, in the writeback lane, ordered as a host's write is (R87, R93). One whose window
entry fails its checks is dropped (R65, R74). -/
def Acc.agentWrite (a : Acc) (o : Origin) (cls w dl : Nat) (x : WrIn) : AWr × Acc :=
  let op : ROp := match x.mask with
    | some m => .wrPtl .i x.data m x.poison
    | none => .wr .i x.data x.poison
  let q := agentReq o cls w dl op
  let told := fun (a : Acc) => let r := a.dev.takeWrote o dl; (r.1, { a with dev := r.2 })
  match told a with
  | (.wait, a) =>
    if a.dev.agentAt o dl || (tfind a.dev.home.cyc dl).isSome then (.wait, a)
    else
      let u := a.dev.entryUse w
      let a := { a with dev := u.2 }
      if !u.1 then (.ok none, a.upd (fun d => d.retired q)) else told (a.order q)
  | r => r

end Sys2Proof.Machine
end

