-- ==== Sys2Proof/Machine/RegIo.lean ====
section
/-! DEFINITION. Register accesses (00_scope.md R6 to R9, 01_architecture.md R28 to R30, 18_telemetry.md R418, R424): who may write
what, locks, and what a write does to the fields of a register. -/

namespace Sys2Proof.Machine

/-- A field of a register is locked (Table 0.4, RWL). -/
def Dev.lockedAt (d : Dev) (k : Nat) : Bool :=
  if k < 0x500200 then d.flag fWIN_CTL_MAP_LOCK
  else if 0xb00100 ≤ k && k < 0xb00120 then d.flag fWIN_CTL_MAP_LOCK
  else if 0x1100100 ≤ k && k < 0x1100500 then d.flag (fRING_CTL_XEN ((k - 0x1100100) / 0x80))
  else if 0x2000000 ≤ k && k < 0x4000000 then d.get (fJDB_STS_STATE ((k - 0x2000000) / 0x100000) ((k - 0x2000000) % 0x100000 / 0x1000)) != 0
  else if 0x8000000 ≤ k then (tfind (d.portOf ((k - 0x8000000) / 0x1000)).decoders ((k % 0x1000 - 0x100) / 8)).isSome
  else true

/-- What a write of v makes of a field that holds o. A RW1C count clears when its lowest bit is written 1; the bits of
PMU_Uu_CTL.OVF clear one by one. -/
def fieldAfter (ty : FTy) (w o v : Nat) (locked perBit : Bool) : Nat :=
  match ty with
  | .rw => v
  | .rwl => if locked then o else v
  | .rw1c => if w = 1 ∨ perBit then o - (o &&& v) else if v % 2 = 1 then 0 else o
  | .rw1s => o ||| v
  | _ => o

/-- The word that a write of v, of the bits that mask selects, makes of a register's word. -/
def Dev.wordAfter (d : Dev) (a : RegAt) (v mask : Nat) : Nat :=
  let old := d.rd a.key
  let lk := d.lockedAt a.key
  let perBit := 0x1001000 ≤ a.key && a.key < 0x1006800
  a.r.fields.foldl (fun w f =>
    let o := wordField w f.lo f.w
    let m := wordField mask f.lo f.w
    let x := match f.ty with
      | .rw1c => wordField v f.lo f.w &&& m
      | .rw1s => wordField v f.lo f.w &&& m
      | _ => (wordField v f.lo f.w &&& m) ||| (o - (o &&& m))
    wordPut w f.lo f.w (fieldAfter f.ty f.w o x lk perBit)) old

/-- R8: a register is written; its fields take what their types allow. -/
def Dev.regWrite (d : Dev) (a : RegAt) (v mask : Nat) : Dev := d.wr a.key (d.wordAfter a v mask)

/-- R6: a naturally aligned access of the register's width; a register wider than 64 bits is accessed in 64-bit words. -/
def accessOk (off size : Nat) : Option RegAt :=
  match regAt off with
  | some a =>
    let sz := if 64 < a.r.width then 8 else a.r.width / 8
    if size = sz ∧ off % sz = 0 ∧ off < 2 ^ 26 ∧ (64 < a.r.width ∨ a.key = off) then some a else none
  | none => none

/-- The unit or ring whose claim governs a key: the holder's field. -/
def claimOf (k : Nat) : Option Fld :=
  if 0x1001000 ≤ k ∧ k < 0x1001000 + 44 * 0x200 then some (fPMU_U_CLAIM_HOLDER ((k - 0x1001000) / 0x200))
  else if 0x1100100 ≤ k ∧ k < 0x1100500 then some (fRING_CLAIM_HOLDER ((k - 0x1100100) / 0x80))
  else none

/-- R37: the writer is a head whose port offers configuration space only, so that no register access of its reaches the controller. -/
def Dev.unheard (d : Dev) (by_ : Writer) : Bool :=
  match by_ with
  | .firmware => false
  | .head h => d.cfgOnly h.toNat

/-- R30: head h holds TOP_CSR_WRGRANT; a failed pair grants nothing and is recorded. -/
def Dev.csrGrant (d : Dev) (h : Nat) : Bool × Dev :=
  let r := d.pairUse rTOP_CSR_WRGRANT rTOP_CSR_WRGRANT_C
  if r.1 then (r.2.bit fTOP_CSR_WRGRANT_HEAD h, r.2) else (false, r.2.pairFail rTOP_CSR_WRGRANT rTOP_CSR_WRGRANT_C)

/-- R30, R418, R427: head h may write the register. -/
def Dev.mayWrite (d : Dev) (h : Nat) (a : RegAt) : Bool × Dev :=
  let k := a.key
  let rwc := a.r.fields.any (fun f => f.ty == .rwc)
  if 0x2000000 ≤ k then ((k - 0x2000000) / 0x100000 == h, d)
  else if 0x1008000 ≤ k && k < 0x1008400 then ((k - 0x1008000) / 0x20 == h, d)
  else if 0x1000000 ≤ k && k < 0x1200000 && k != 0x1100000 then
    match claimOf k with
    | some f =>
      let x := d.get f
      (x == h || 32 ≤ x || k == f.reg, d)
    | none => (true, d)
  else if rwc || (0x501000 ≤ k && k < 0x520000) || (0xa01000 ≤ k && k < 0xa02000) then (false, d)
  else d.csrGrant h

/-- R424: a monitor unit that is not powered takes no write. -/
def Dev.unitOff (d : Dev) (k : Nat) : Bool :=
  0x1001000 ≤ k && k < 0x1001000 + 44 * 0x200 && !d.bit fPMU_GSTS_ON ((k - 0x1001000) / 0x200)

/-- A write by a head or by firmware of one register, under R6, R30 and R418; act is what the write does. -/
def Dev.writeBy (d : Dev) (by_ : Writer) (k : Nat) (act : Dev → Dev) : Dev :=
  match by_ with
  | .firmware => if d.unitOff k then d else act d
  | .head h =>
    if d.cfgOnly h.toNat then d
    else match regAt k with
    | some a =>
      let m := d.mayWrite h.toNat a
      if !m.1 then m.2.accessFault h.toNat k else if m.2.unitOff k then m.2 else act m.2
    | none => d.accessFault h.toNat k

/-! ### The image of a register in the record (R336) -/

/-- Counts and pointers of the telemetry blocks, which are no settings: CYC, the counters and their snapshots, PTR (log entry 118). -/
def cfgCount (k : Nat) : Bool :=
  (decide (0x1001000 ≤ k) && decide (k < 0x1001000 + 44 * 0x200) && ((k - 0x1001000) % 0x200 == 0x10 || decide (0x80 ≤ (k - 0x1001000) % 0x200))) ||
  (decide (0x1100100 ≤ k) && decide (k < 0x1100500) && (k - 0x1100100) % 0x80 == 8)

/-- The bits of a register's fields of type RW. -/
def rwMask (r : RegD) : Nat := r.fields.foldl (fun m f => if f.ty == .rw then m ||| ((2 ^ f.w - 1) <<< f.lo) else m) 0

/-- A register's image for the record: of HOME_SWEEP and of telemetry, whose other fields are status, the settings alone, without a ring's
XEN, whose buffer the record does not hold (log entry 118). -/
def Dev.regImage (d : Dev) (k : Nat) : Nat :=
  let tele := decide (0x1000000 ≤ k) && decide (k < 0x1200000)
  match regAt k with
  | some a =>
    let v := if k = rHOME_SWEEP ∨ tele = true then d.rd k &&& rwMask a.r else d.rd k
    if decide (0x1100100 ≤ k) && decide (k < 0x1100500) && (k - 0x1100100) % 0x80 == 4 then wordPut v 0 1 0 else v
  | none => d.rd k

end Sys2Proof.Machine
end

