-- ==== Sys2Proof/Machine/Cxl.lean ====
section
/-! DEFINITION. CXL.mem commands (02_host_links.md R42 to R47, R60 to R62; 04_coherence.md R84 to R106; 12_qos.md R309 to R314):
requests at their ports, answers to snoops, and what the home slices take up later. -/

namespace Sys2Proof.Machine

/-! ### Requests (R93) -/

/-- R93: MemRd. -/
def execMemRd (q : ReqIn) (m : Meta) : State → Result := runAcc (fun a => a.arrive q (.rd m))

/-- R93: MemRdData. -/
def execMemRdData (q : ReqIn) : State → Result := runAcc (fun a => a.arrive q .rdData)

/-- R93: MemInv. -/
def execMemInv (q : ReqIn) (m : Meta) : State → Result := runAcc (fun a => a.arrive q (.inv m))

/-- R93: MemInvNT. -/
def execMemInvNT (q : ReqIn) : State → Result := runAcc (fun a => a.arrive q .invNT)

/-- R93: MemClnEvct. -/
def execMemClnEvct (q : ReqIn) : State → Result := runAcc (fun a => a.arrive q .clnEvct)

/-- R93, R17: MemWr. -/
def execMemWr (q : ReqIn) (m : Meta) (data : LineData) (poison : Bool) : State → Result :=
  runAcc (fun a => a.arrive q (.wr m data poison))

/-- R93, R142: MemWrPtl. -/
def execMemWrPtl (q : ReqIn) (m : Meta) (data : LineData) (mask : BitVec 64) (poison : Bool) : State → Result :=
  runAcc (fun a => a.arrive q (.wrPtl m data mask poison))

/-! ### Requests taken up later (R85, R102, R104, R312 to R314) -/

/-- A request in the crossbar's queue can go on: it is the first of its line there, and it joins a wait list, or it finds a slot and is no miss
that a full retry queue holds back (R104). -/
def Dev.xbarReady (d : Dev) (q : Req) : Bool :=
  let dl := q.dpa / 64
  d.home.xbar.find? (fun r => r.dpa / 64 == dl) == some q &&
  (d.openOn dl || d.waitsOn dl || ((d.slotOf q).isSome && (!d.winShared q.win || d.winDown q.win || !d.missHeld q)))

/-- It goes on with a common slot, which the arbiter of its slice must grant (R314). -/
def Dev.xbarAsks (d : Dev) (q : Req) : Bool :=
  let dl := q.dpa / 64
  !q.gr && !d.openOn dl && !d.waitsOn dl && (match d.slotOf q with | some (.common _) => true | _ => false)

/-- A request leaves the crossbar's queue for its slice. -/
def Acc.fromXbar (a : Acc) (q : Req) : Acc :=
  Acc.slice (a.upd (fun d => { d with home := { d.home with xbar := d.home.xbar.erase q } })) q

/-- The first request of the crossbar's queue for a slice that can go on without a grant leaves it; false if none can. -/
def Acc.pullXbar (a : Acc) (sl : Nat) : Bool × Acc :=
  match a.dev.home.xbar.find? (fun q => lineSlice (q.dpa / 64) == sl && a.dev.xbarReady q && !a.dev.xbarAsks q) with
  | some q => (true, a.fromXbar q)
  | none => (false, a)

/-- R312: the held requests of a port that may ask slice sl for a grant: the first of each class, behind no earlier one of its line. -/
def Dev.heldCands (d : Dev) (p sl : Nat) : List Req :=
  let rx := d.heldOf p
  (List.range 8).filterMap (fun c =>
    match rx.find? (fun q => q.cls == c) with
    | some q =>
      if lineSlice (q.dpa / 64) = sl ∧ heldAhead q (rx.takeWhile (fun r => r != q)) = false ∧ (q.conf || d.mayPass q) = true then some q
      else none
    | none => none)

/-- R313: the requests that ask slice sl for a common slot: in the crossbar's queue, and held at their ports. -/
def Dev.slotCands (d : Dev) (sl : Nat) : List Req :=
  d.home.xbar.filter (fun q => lineSlice (q.dpa / 64) == sl && d.xbarReady q && d.xbarAsks q) ++ heads.flatMap (fun p => d.heldCands p sl)

/-- R314: the request that a slice's common-slot arbiter grants: conforming ones first, the class with the least virtual time, round
robin over ports from the one after the last granted. -/
def Dev.grantPick (d : Dev) (sl : Nat) : Option Req :=
  let all := d.slotCands sl
  let all := if all.any (·.conf) then all.filter (·.conf) else all
  let last := tget (fun _ => 31) d.home.vt (sl * 16 + 15)
  match leastV d.home.vt sl ((List.range 8).filter (fun c => all.any (fun q => q.cls == c))) with
  | some c =>
    let mine := all.filter (fun q => q.cls == c)
    (((List.range 32).map (fun i => (last + 1 + i) % 32)).findSome? (fun p => mine.find? (fun q => q.head == p)))
  | none => none

/-- The granted request leaves the crossbar's queue, or its port's receive buffer, for its slice. -/
def Acc.grant (a : Acc) (q : Req) : Acc :=
  if a.dev.home.xbar.contains q then
    Acc.slice (a.upd (fun d => { d with home := { d.home with xbar := d.home.xbar.erase q } }.charge q)) { q with gr := true }
  else
    Acc.passFree (a.upd (fun d => (d.updPort q.head (fun s => { s with rx := s.rx.erase q })).heldStats q.head)) q

/-- R312, R314: a request that waits in a slice's crossbar queue for no grant goes on; else the slice grants a common slot. -/
def Acc.heldRelease (a : Acc) (sl : Nat) : Acc :=
  match a.pullXbar sl with
  | (true, a) => a
  | (false, a) =>
    match a.dev.grantPick sl with
    | some q => a.grant q
    | none => a

/-- R312. -/
def execHeldRequestRelease (slice : BitVec 4) : State → Result := runAcc (fun a => a.heldRelease slice.toNat)

/-- R85: the first request that waits for a line is taken up; without a slot it stays first. -/
def Acc.takeWaiting (a : Acc) (dl : Nat) : Acc :=
  if a.dev.openOn dl || a.dev.retryOn dl || (a.dev.tier.waits ++ a.dev.mir.waits).any (fun q => q.dpa / 64 == dl) then a
  else
    match takeFirst (fun q => q.dpa / 64 == dl) a.dev.home.waits with
    | some (q, r) =>
      let a := a.upd (fun d => { d with home := { d.home with waits := r } }.pinStats (lineSlice dl))
      if q.op.isWrite then
        let x := a.dropWrite q
        if x.1 then x.2.upd (fun d => (d.retired q).respDrop q) else x.2.retryWrite q
      else a.takeUpOr q (fun d => d.waitFirst q)
    | none => a

/-- R85. -/
def execWaitListTakeUp (line : DpaLine) : State → Result := runAcc (fun a => a.takeWaiting line.toNat)

/-- R102: the oldest request of the retry queue for a set with an unpinned way goes on, and frees a place for the crossbar's queue. -/
def Acc.retryOne (a : Acc) (sl set : Nat) : Acc :=
  match takeFirst (fun q => lineSlice (q.dpa / 64) == sl && dirSet (q.dpa / 64) == set) a.dev.home.retry with
  | some (q, r) =>
    let dl := q.dpa / 64
    if ((a.dev.dirWay dl).isSome || (a.dev.dirVictim dl).isSome) && (a.dev.openOn dl || (a.dev.slotOf q).isSome) then
      let a := a.upd (fun d => { d with home := { d.home with retry := r } }.rqStats sl)
      let a := if a.dev.openOn dl then a.upd (fun d => (d.retired q).waitFirst q) else a.takeUp q
      (a.pullXbar sl).2
    else a
  | none => a

/-- R102. -/
def execRetryQueueRetry (slice : BitVec 4) (set : BitVec 12) : State → Result :=
  runAcc (fun a => a.retryOne slice.toNat set.toNat)

/-- R91: the store write of a victim completes. -/
def Acc.victimDone (a : Acc) (sl dl : Nat) : Acc :=
  match a.dev.home.victims.find? (fun v => v.line == dl && lineSlice v.line == sl) with
  | some v =>
    (a.dirWrite (a.dev.lineWin dl) dl v.ent).upd (fun d =>
      { d with home := { d.home with victims := d.home.victims.filter (fun x => x.line != dl) } })
  | none => a

/-- R91. -/
def execVictimWriteDone (slice : BitVec 4) (line : DpaLine) : State → Result :=
  runAcc (fun a => a.victimDone slice.toNat line.toNat)

/-! ### Answers of snooped heads (R98 to R100) -/

/-- The less invalid of two answers. -/
def BiRsp.max : BiRsp → BiRsp → BiRsp
  | .e, _ => .e
  | _, .e => .e
  | .s, _ => .s
  | _, .s => .s
  | .i, .i => .i

/-- R98: a BIRsp of head p for DPA line dl at alias al. -/
def Dev.biAnswer (d : Dev) (p dl al : Nat) (r : BiRsp) : Dev :=
  d.updTrans dl (fun t => { t with snoops := t.snoops.map (fun s =>
    if s.head = p ∧ s.wait.contains al = true then { s with wait := s.wait.filter (· != al), ans := BiRsp.max s.ans r } else s) })

/-- R98. -/
def Acc.biRsp (a : Acc) (p hpa : Nat) (r : BiRsp) : Acc :=
  match a.dev.resolve p (hpa * 64) with
  | some (c, al, _, h) =>
    let dl := c.dpa h / 64
    (a.upd (fun d => d.biAnswer p dl al r)).snoopsMoved dl
  | none => a

/-- R98. -/
def execBirsp (h : Head) (hpa : HpaLine) (r : BiRsp) : State → Result :=
  runAcc (fun a => a.when (a.dev.portOf h.toNat).up (fun a => a.biRsp h.toNat hpa.toNat r))

/-- R99: a BIConflict waits for the completions owed; its answer follows in the same step where none is. -/
def Dev.conflict (d : Dev) (p hpa : Nat) : Dev :=
  match d.resolve p (hpa * 64) with
  | some (c, _, _, h) =>
    let dl := c.dpa h / 64
    let d := d.pmuHome (lineSlice dl) 0x29 8
    { d with home := { d.home with biConf := d.home.biConf ++ [(p, hpa, dl, d.owed p dl)] } }
  | none => { d with home := { d.home with biConf := d.home.biConf ++ [(p, hpa, 2 ^ 40, [])] } }

/-- R99. -/
def execBiConflict (h : Head) (hpa : HpaLine) : State → Result :=
  run (fun d => d.when (d.portOf h.toNat).up (fun d => d.conflict h.toNat hpa.toNat))

/-- R100: the snoop of head p for a line is still open when HOME_BI_TMO elapses. -/
def Acc.snoopTmo (a : Acc) (p dl : Nat) : Acc :=
  match a.dev.transOf dl with
  | some t =>
    if t.snoops.any (fun s => s.head == p && !s.wait.isEmpty) then
      let a := a.upd (fun d => (d.setFlag fHOME_STS_BI_TMO true).raise
        { src := srcHome (lineSlice dl) 1, sev := 3, code := 100, obj := p, addr := dl * 64, akind := 1, head := some p })
      a.headDown p false true
    else a
  | none => a

/-- R100. -/
def execSnoopTimeout (h : Head) (line : DpaLine) : State → Result := runAcc (fun a => a.snoopTmo h.toNat line.toNat)

/-- R61: a head sends viral: its writes are dropped and its reads return poison HALT from now on. -/
def execViral (h : Head) : State → Result :=
  run (fun d => d.when (d.portOf h.toNat).up (fun d => d.updPort h.toNat (fun s => { s with viral := true })))

end Sys2Proof.Machine
end

