-- ==== Sys2Proof/Machine/HostLink.lean ====
section
/-! DEFINITION. Host links and heads (02_host_links.md R32 to R62), decoders (R42 to R45, 04_coherence.md R92, R108, R109),
Dynamic Capacity (R48 to R52), and what a port recomputes at each interval (R58, 12_qos.md R308 to R321). -/

namespace Sys2Proof.Machine

/-! ### Configuration space (R39) -/

/-- Boot has completed (R39). -/
def Dev.booted (d : Dev) : Bool := d.mgt.booted

/-- R31, Table 2.1: the features that the controller supports, and so advertises. -/
def featureSupported : Feature → Bool
  | .cxlCache | .hdmD | .multiLogical | .persistent | .globalPersistentFlush | .portBasedRouting | .gfam | .fabricAttached | .tsp
  | .srns | .l1Substates | .l0s | .sriov | .ats | .pasid => false
  | .type3 | .cxlIo | .cxlMem | .hdmH | .hdmDb | .multiHeaded | .dynamicCapacity | .sharable | .fmApi | .hbrSwitches | .cxlIde | .ideKm
  | .qosTelemetry | .cdatDoe | .poison | .viral | .memoryCommands | .eventRecords | .flit256 | .flit256Lo | .flit68 | .laneReversal
  | .polarityInversion | .retimers | .commonClock | .sris | .aspmL1 | .l0p | .laneMargining | .eqBypass | .aer | .cxlRas | .msix => true

/-- The headers of the port's DVSEC: vendor ID 0x1F3B, DVSEC ID 1, length 0x200, in the layout of PCIe (log entry 21); none elsewhere. -/
def dvsecHeader (off : Nat) : Option Nat :=
  if off = 0 then some 0x10023 else if off = 4 then some (0x1F3B + 0x200 * 2 ^ 20) else if off = 8 then some 1 else none

/-- A read of the port's DVSEC; what the manual does not state is a free value (log entry 21). -/
def Dev.dvsecRead (d : Dev) (p off : Nat) : Dev :=
  match regAt (0x8000000 + p * 0x1000 + off), dvsecHeader off with
  | some a, _ => d.emit (.cfgValue p (d.rd a.key))
  | none, some v => d.emit (.cfgValue p v)
  | none, none =>
    let f := d.free
    f.2.emit (.cfgValue p (f.1 % 2 ^ 32))

/-- R42: what the HDM Decoder Capability reports of decoder n. -/
def Dev.hdmImage (d : Dev) (p n : Nat) : List Nat :=
  let err := ((d.portOf p).decErr.testBit n).toNat
  match tfind (d.decs p) n with
  | some c => [c.base, c.size, c.dpaBase, c.ways, c.gran, c.bi.toNat, c.lock.toNat, 1, err]
  | none => [0, 0, 0, 0, 0, 0, 0, 0, err]

/-- A configuration write after boot (R39): it acts on the DVSEC registers by their types and clears correctable-error status; other
targets are only read. -/
def Dev.cfgWrite (d : Dev) (p : Nat) (at_ : CfgTarget) (value : Nat) : Dev :=
  match at_ with
  | .dvsec off =>
    match regAt (0x8000000 + p * 0x1000 + off.toNat) with
    | some a => d.regWrite a value 0xffffffff
    | none => d
  | .correctable => d.updPort p (fun s => { s with aer := s.aer - (s.aer &&& value) })
  | .feature _ => d
  | .hdmCount => d
  | .hdm _ => d
  | .l1Exit => d

/-- R395: the L1 Exit Latency of a port's Link Capabilities: 32 µs to 64 µs, code 6, while S2 is permitted; else left open. -/
def Dev.l1Read (d : Dev) (p : Nat) : Dev :=
  if 2 ≤ d.get fPWR_LIMITS_DEEPEST then d.emit (.cfgValue p 6) else let f := d.free; f.2.emit (.cfgValue p (f.1 % 8))

/-- A configuration read after boot (R39, R31, R42, R59, R395). -/
def Dev.cfgRead (d : Dev) (p : Nat) : CfgTarget → Dev
  | .dvsec off => d.dvsecRead p off.toNat
  | .feature f => d.emit (.cfgValue p (featureSupported f).toNat)
  | .correctable => d.emit (.cfgValue p (d.portOf p).aer)
  | .hdmCount => d.emit (.cfgValue p 32)
  | .hdm n => d.emit (.hdmDecoder p n.toNat (d.hdmImage p n.toNat))
  | .l1Exit => d.l1Read p

/-- A flit of a head arrives on its link: the port is out of L1, and a sleeping controller wakes (R394). -/
def Dev.outOfL1 (d : Dev) (p : Nat) : Dev := (d.updPort p (fun s => { s with inL1 := false })).rouse 1

/-- A configuration access (R39): Retry Status until boot completes. -/
def Dev.cfgAccess (d : Dev) (p : Nat) (write : Bool) (at_ : CfgTarget) (value : Nat) : Dev :=
  let x := d.outOfL1 p
  if !d.booted then x.emit (.cfgCrs p) else if write then (x.cfgWrite p at_ value).emit (.cfgValue p 0) else x.cfgRead p at_

/-- R39. -/
def execConfigurationRequest (p : Head) (write : Bool) (at_ : CfgTarget) (value : BitVec 32) : State → Result :=
  run (fun d => d.when (d.portOf p.toNat).up (fun d => d.cfgAccess p.toNat write at_ value.toNat))

/-- R62: Mem_Enable. -/
def execMemEnable (p : Head) (on : Bool) : State → Result :=
  runAcc (fun a => a.when (a.dev.portOf p.toNat).up (fun a =>
    (a.upd (fun d => d.updPort p.toNat (fun s => { s with memEn := on }))).releaseRx p.toNat))

/-- R62, R307, R339: firmware restores CLASSMAP and IDE_REQUIRED of a head from the configuration record. -/
def Dev.restoreHead (d : Dev) (p : Nat) : Dev :=
  let m := wordField (tget resetWord d.flash.cfg.regs (rPDV_ALIAS_MAP p 0)) 0 24
  let d := (List.range 32).foldl (fun d n => d.set (fPDV_ALIAS_MAP_CLASSMAP p n) m) d
  let d := d.setFlag (fPDV_PORT_STS_IDE_REQUIRED p) ((d.flash.cfg.link.getD (8 + p) 0).testBit 4)
  d.updPort p (fun s => { s with restored := true })

/-- R62. -/
def execHeadRestored (p : Head) : State → Result :=
  runAcc (fun a => a.when (a.dev.fwUp && (a.dev.formed p.toNat).isSome) (fun a =>
    (a.upd (fun d => d.restoreHead p.toNat)).releaseRx p.toNat))

/-! ### Decoders -/

/-- R48: the end of the static partition: the lowest Dynamic Capacity region base, in bytes. -/
def Dev.staticEnd (d : Dev) : Nat := (d.win.dc.map (fun e => e.2.1 * 2 ^ 28)).foldl min (2 ^ 46)

/-- Units [lo, hi) are covered by extents, extended from lo by at most n of them. -/
def coverRun (exts : List (Nat × Nat × Nat)) (hi : Nat) : Nat → Nat → Bool
  | 0, lo => hi ≤ lo
  | n + 1, lo =>
    hi ≤ lo || (match exts.find? (fun e => e.1 ≤ lo && lo < e.1 + e.2.1) with
      | some e => coverRun exts hi n (e.1 + e.2.1)
      | none => false)

/-- The BACKED windows that head p is a member of, as runs of 2 MiB units (R48). -/
def Dev.backedFor (d : Dev) (p : Nat) : List (Nat × Nat × Nat) :=
  (d.windows.filter (fun n => !d.winTiered n && d.winMember n p)).map (fun n => (d.winBase n / unit2M, d.winSize n / unit2M, n))

/-- R43, R48: DPA [lo, hi) is granted to head p: below the end of the static partition by BACKED windows that it is a member of (log
entry 20), above it by extents that it holds. -/
def Dev.granted (d : Dev) (p lo hi : Nat) : Bool :=
  let st := d.staticEnd
  let ex := (d.portOf p).extents
  let bw := d.backedFor p
  let units := fun (x : Nat) => (x + unit2M - 1) / unit2M
  hi ≤ 2 ^ 46 && (st ≤ lo || coverRun bw (units (min hi st)) (bw.length + 1) (lo / unit2M)) &&
  (hi ≤ st || coverRun ex (units hi) (ex.length + 1) (max lo st / unit2M))

/-- The end of the DPA range of the decoder before decoder n. -/
def Dev.prevEnd (d : Dev) (p n : Nat) : Nat :=
  if n = 0 then 0
  else match tfind (d.decs p) (n - 1) with
    | some c => c.dpaBase + c.dpaSize
    | none => 0

/-- The decoder that an image gives at position n of head p (R75). -/
def Dev.decoderOf (d : Dev) (p n : Nat) (g : DecoderImage) : Decoder :=
  { base := g.base.toNat * 2 ^ 28, size := g.size.toNat * 2 ^ 28, dpaBase := d.prevEnd p n + g.skip.toNat * 2 ^ 28,
    ways := g.ways, gran := g.granLog, bi := g.bi, lock := g.lock }

/-- R42: the ways and granularities that the controller supports. -/
def decoderForm (c : Decoder) : Bool := [1, 2, 3, 4, 6, 8, 12, 16].contains c.ways && 8 ≤ c.gran && c.gran ≤ 14

/-- R44: one less than the smallest alias count of the covered windows; 0 where the decoder covers none. -/
def Dev.aliasCount (d : Dev) (c : Decoder) : Nat :=
  match (d.decWins c).map d.winAliases with
  | [] => 0
  | x :: t => t.foldl min x - 1

/-- The alias ranges of a decoder with stride shift st and n + 1 aliases. -/
def aliasRanges (c : Decoder) (st n : Nat) : List (Nat × Nat) :=
  if c.size = 0 then []
  else (List.range (if st = 0 then 1 else n + 1)).map (fun a => (c.base + (if a = 0 then 0 else a * 2 ^ st), c.base + (if a = 0 then 0 else a * 2 ^ st) + c.size))

/-- R45: the alias rules hold for decoder n. -/
def Dev.aliasOk (d : Dev) (p n : Nat) (c : Decoder) : Bool :=
  let st := d.get (fPDV_ALIAS_CTL_STRIDE_SHIFT p n)
  let mine := aliasRanges c st (d.aliasCount c)
  let others := (d.decs p).flatMap (fun e => aliasRanges e.2 (d.get (fPDV_ALIAS_CTL_STRIDE_SHIFT p e.1)) (d.get (fPDV_ALIAS_MAP_ALIAS_N p e.1)))
  (st == 0 || (28 ≤ st && st ≤ 51 && c.size ≤ 2 ^ st)) && mine.all (fun r => r.2 ≤ 2 ^ 52) &&
  mine.all (fun r => others.all (fun o => r.2 ≤ o.1 || o.2 ≤ r.1))

/-- R43, R41, R109, R272: the commit of a decoder is refused, apart from R45. -/
def Dev.commitBad (d : Dev) (p n : Nat) (c : Decoder) : Bool :=
  let ws := d.decWins c
  let shared := ws.any d.winShared
  let flit68 := d.get (fPDV_PORT_STS_FLIT p) == 0
  !decoderForm c || (n != 0 && (tfind (d.decs p) (n - 1)).isNone) ||
  (c.size != 0 && !d.granted p c.dpaBase (c.dpaBase + c.dpaSize)) ||
  (shared && (!c.bi || flit68 || d.bit fHOME_DEAD_HEAD p)) || ws.any (fun w => d.mirSt w == mirYielded)

/-- R43 to R45: a decoder commits, or fails with Error Not Committed. -/
def Dev.commitDecoder (d : Dev) (p n : Nat) (g : DecoderImage) : Dev :=
  if (tfind (d.decs p) n).isSome then d
  else
    let c := d.decoderOf p n g
    let ok := d.aliasOk p n c
    let d := d.setFlag (fPDV_ALIAS_CTL_ERR p n) (!ok)
    if ok && !d.commitBad p n c then
      let d := d.set (fPDV_ALIAS_MAP_ALIAS_N p n) (if c.size = 0 then 0 else d.aliasCount c)
      d.updPort p (fun s => { s with decoders := tins s.decoders n c, decErr := s.decErr - (s.decErr &&& 2 ^ n) })
    else d.updPort p (fun s => { s with decErr := s.decErr ||| 2 ^ n })

/-- R43. -/
def execDecoderCommit (p : Head) (n : BitVec 5) (img : DecoderImage) : State → Result :=
  run (fun d => d.when ((d.portOf p.toNat).up && !d.cfgOnly p.toNat) (fun d => d.commitDecoder p.toNat n.toNat img))

/-- R92: a decoder is uncommitted; held lines of a covered SHARED window make the head lost for it. -/
def Acc.uncommit (a : Acc) (p n : Nat) : Acc :=
  match tfind (a.dev.decs p) n with
  | some c =>
    if c.lock then a
    else
      let ws := (a.dev.decWins c).filter (fun w => a.dev.winShared w && a.dev.get (fHOME_HELD_COUNT p w) != 0)
      let a := a.upd (fun d => (d.updPort p (fun s => { s with decoders := tdel s.decoders n })).set (fPDV_ALIAS_MAP_ALIAS_N p n) 0)
      ws.foldl (fun a w =>
        Acc.headLoss (a.upd (fun d => (d.setFlag fHOME_STS_UNCOMMIT_HELD true).raise
          { src := srcHome 0 0, sev := 3, code := 92, obj := w, head := some p })) p [w]) a
  | none => a

/-- R92. -/
def execDecoderUncommit (p : Head) (n : BitVec 5) : State → Result :=
  runAcc (fun a => a.when ((a.dev.portOf p.toNat).up && !a.dev.cfgOnly p.toNat) (fun a => a.uncommit p.toNat n.toNat))

/-! ### Head reset and head loss -/

/-- R60: HEAD_PERST_N asserts, or the link goes down. -/
def execHeadReset (p : Head) (perst : Bool) : State → Result :=
  runAcc (fun a =>
    let s := a.dev.portOf p.toNat
    a.when ((a.dev.formed p.toNat).isSome && (if perst then !s.perst else s.up)) (fun a => a.headDown p.toNat perst false))

/-- R60 step 6, R36: HEAD_PERST_N deasserts; training starts at the port's cap. In S3 it wakes the controller (R394). -/
def execHeadPerstDeassert (p : Head) : State → Result :=
  run (fun d => d.when (d.formed p.toNat).isSome (fun d =>
    (d.updPort p.toNat (fun s => { s with perst := false, adv := s.cap, eqFails := 0 })).rouse 2))

/-- The sweep's place moves on: past a window's end to the next window, past the last to the sweep's end (R108 step 5). -/
def Dev.sweepMove (d : Dev) (s : Sweep) (rest : List Sweep) : Dev :=
  let w := s.wins.headD 0
  let s' : Sweep := if s.cur + 8 < d.winSize w / 64 then { s with cur := s.cur + 8 } else { s with wins := s.wins.tail, cur := 0 }
  let l := if s'.wins.isEmpty then rest else s' :: rest
  let d := { d with home := { d.home with sweeps := l } }
  let d := if s'.wins.isEmpty && !rest.any (fun x => x.head == s.head) then d.setBit fHOME_DEAD_HEAD s.head false else d
  match l with
  | [] => d.setFlag fHOME_SWEEP_ACTIVE false
  | x :: _ => d.set fHOME_SWEEP_WINDOW (x.wins.headD 0)

/-- R108 step 4: the sweep visits the entries of its next store line. An unknown entry is rebuilt first (R111), and the sweep stays. -/
def Acc.sweepStep (a : Acc) : Acc :=
  match a.dev.home.sweeps with
  | [] => a
  | s :: rest =>
    let w := s.wins.headD 0
    let lines := (List.range 8).map (a.dev.winBase w / 64 + s.cur + ·)
    let a := lines.foldl (fun a dl => let r := a.dirPeek w dl; if r.1.isNone then r.2.rebuildFor w dl else r.2) a
    if lines.any (fun dl => a.dev.home.dirBad.contains dl) then a else a.upd (fun d => d.sweepMove s rest)

/-- R108. -/
def execReclaimSweepStep : State → Result := runAcc Acc.sweepStep

/-! ### Links (R34 to R38, R52) -/

/-- A rate code in tenths of GT/s. -/
def rateTenths (r : Nat) : Nat := [25, 50, 80, 160, 320, 640, 1280].getD r 1280

/-- R52: the DSMAS of the static partition (base 0 and its length in bytes), then each DC region (number, base and length in 256 MiB
units) with its Shareable flag. -/
def Dev.cdatMem (d : Dev) : List Nat :=
  [0, d.staticEnd] ++ d.win.dc.flatMap (fun e =>
    [e.1, e.2.1, e.2.2.1, (d.windows.any (fun n => d.winTiered n && d.winShared n && d.winDcr n == e.1)).toNat])

/-- R52, R40: the CDAT of a port: the DSLBIS figures (read latency of the static partition and of DC regions and write latency in ps,
bandwidth in MB/s), then its DSMAS entries. -/
def Dev.cdatOf (d : Dev) (p : Nat) : List Nat :=
  let w := d.get (fPDV_PORT_STS_WIDTH p)
  let r := rateTenths (d.get (fPDV_PORT_STS_RATE p))
  let t := 10240000 / (w * r)
  let f := 5440000 / (w * r)
  let add := match d.get (fPDV_PORT_STS_FLIT p) with
    | 2 => 2 * t
    | 1 => 4 * t
    | _ => 3 * f + 6000
  let rd := 104000 + add - (if d.get (fPDV_PORT_STS_IDE_MEM p) = 1 then 0 else 4000)
  let wr := 43000 + add - (if d.get (fPDV_PORT_STS_IDE_MEM p) = 1 then 0 else 4000)
  [rd, rd + 128000, wr, 895 * w * r / 80] ++ d.cdatMem

/-- R52: the CDAT is updated after a training, and its change notified. -/
def Dev.newCdat (d : Dev) (p : Nat) : Dev := (d.updPort p (fun s => { s with cdat := d.cdatOf p })).emit (.cdatChange p)

/-- R52: the DSMAS entries of the ports that have trained follow the regions and their SHARED windows; a change is notified. -/
def Dev.cdatFollow (d : Dev) : Dev :=
  let m := d.cdatMem
  heads.foldl (fun d p =>
    let c := (d.portOf p).cdat
    if c = [] ∨ c.drop 4 = m then d else (d.updPort p (fun s => { s with cdat := c.take 4 ++ m })).emit (.cdatChange p)) d

/-- R37: a link that cannot carry CXL.mem is recorded against its head. -/
def Dev.noMem (d : Dev) (p : Nat) : Dev := d.raise { src := srcPort p 0, sev := 3, code := 37, obj := p, head := some p }

/-- R34: the flit mode of a rate. -/
def flitOf (rate : Nat) (hostFlit hostLo : Bool) : Nat := if 5 ≤ rate then (if hostLo then 2 else 1) else if hostFlit then 1 else 0

/-- Lanes of a formed width code. -/
def formedLanes (c : Nat) : Nat := if c = 2 then 16 else if c = 1 then 8 else 4

/-- R34, R37, R38: the link of port p reaches L0. -/
def Acc.linkTrained (a : Acc) (p formed : Nat) (t : LinkTrain) : Acc :=
  let a := a.upd (fun d =>
    let rate := min (d.portOf p).adv t.rate.toNat
    let cxl := t.cxl && 2 ≤ rate
    let d := (d.set (fPDV_PORT_STS_WIDTH p) (min t.width (formedLanes formed))).set (fPDV_PORT_STS_RATE p) rate
    let d := (d.set (fPDV_PORT_STS_FLIT p) (flitOf rate t.hostFlit t.hostLo)).set (fPDV_PORT_STS_FORMED p) formed
    let d := d.updPort p (fun s => { s with up := true, cxl := cxl, inL1 := false, eqFails := 0, compat := 0 })
    let d := d.newCdat p
    if cxl then d else d.noMem p)
  a.releaseRx p

/-- A lane block has power: its LNK domain, which the deassertion of HEAD_PERST_N waits for (R384). -/
def Dev.lnkOn (d : Dev) (p : Nat) : Bool := d.pin.mainUp && d.bit fPWR_DOM_STS_ON (24 + p / 4)

/-- R34. -/
def execLinkUp (p : Head) (t : LinkTrain) : State → Result :=
  runAcc (fun a =>
    let s := a.dev.portOf p.toNat
    match a.dev.formed p.toNat with
    | some f => a.when (!s.perst && !s.up && a.dev.lnkOn p.toNat && 1 ≤ t.width) (fun a => a.linkTrained p.toNat f t)
    | none => a)

/-- R35: an equalization attempt fails at the advertised rate, 128 or 64 GT/s; the second lowers the rate. The attempt counts against the
advertised rate where the host supports less, too (DESIGN CHOICE, log entry 105). -/
def Dev.eqFail (d : Dev) (p : Nat) : Dev :=
  let s := d.portOf p
  if s.up || s.adv < 5 then d
  else if s.eqFails = 0 then d.updPort p (fun s => { s with eqFails := 1 })
  else (d.updPort p (fun s => { s with eqFails := 0, adv := s.adv - 1 })).bumpSat (fPDV_LNK_ERR_RATE_DROPS p) 1

/-- R35. -/
def execEqualizationFailure (p : Head) : State → Result := run (fun d => d.when (d.formed p.toNat).isSome (fun d => d.eqFail p.toNat))

/-- R36: the link retrains one rate lower. -/
def Acc.rateDrop (a : Acc) (p : Nat) : Acc :=
  let r := a.dev.get (fPDV_PORT_STS_RATE p)
  if r = 0 then a
  else
    let a := a.upd (fun d =>
      let d := (d.set (fPDV_PORT_STS_RATE p) (r - 1)).bumpSat (fPDV_LNK_ERR_RATE_DROPS p) 1
      let d := if r - 1 < 5 ∧ d.get (fPDV_PORT_STS_FLIT p) = 2 then d.set (fPDV_PORT_STS_FLIT p) 1 else d
      let was := (d.portOf p).cxl
      let d := d.updPort p (fun s => { s with adv := r - 1, cxl := s.cxl && 3 ≤ r })
      let d := d.newCdat p
      if was && r < 3 then d.noMem p else d)
    a.releaseRx p

/-- R59: correctable events of a head's link are reported through AER and the CXL RAS capability. -/
def Dev.correctable (d : Dev) (p kind n : Nat) : Dev :=
  if n = 0 then d else (d.updPort p (fun s => { s with aer := s.aer ||| 2 ^ kind })).emit (.correctable p kind n)

/-- R36, R59: replays and FEC corrections of the link in 10 ms. -/
def execReplayRateRetrain (p : Head) (x : LinkErrs) : State → Result :=
  runAcc (fun a => a.when (a.dev.portOf p.toNat).up (fun a =>
    let a := a.upd (fun d => (((d.bumpSat (fPDV_LNK_ERR_REPLAYS p.toNat) x.replays).pmuLnk p.toNat 0x14 8 x.replays).correctable
      p.toNat 0 x.replays).correctable p.toNat 1 x.fecs)
    a.when (256 < x.replays) (fun a => a.rateDrop p.toNat)))

/-! ### IDE (R53 to R56) -/

/-- R56: the requests of the failing epoch are discarded; CXL.mem of the head stops. Requests of earlier epochs have verified (R54):
those that the escapement holds go on (DEDUCED, log entry 73). MEM_READY falls: its text names R37, R55 and R62 only (log entry 73). -/
def Dev.macFail (d : Dev) (p : Nat) : Dev :=
  let d := (d.set (fPDV_PORT_STS_IDE_MEM p) 2).setFlag (fPDV_LNK_ERR_IDE_FAIL p) true
  let d := d.updPort p (fun s => { s with macStop := true, epoch := [], ide := tdel s.ide 3 })
  let d := d.setFlag (fPDV_PORT_STS_MEM_READY p) (d.memReady p)
  d.raise { src := srcPort p 1, sev := 3, code := 56, obj := p, head := some p }

/-- R56. -/
def execMacCheckFailure (p : Head) : State → Result :=
  run (fun d => d.when ((d.portOf p.toNat).up && d.get (fPDV_PORT_STS_IDE_MEM p.toNat) == 1) (fun d => d.macFail p.toNat))

/-- The number of a stream. -/
def ideIdx : IdeStream → Nat
  | .ioLink => 0
  | .ioSel0 => 1
  | .ioSel1 => 2
  | .mem => 3

/-- A stream of a port. -/
def PortS.stream (s : PortS) (k : IdeStream) : IdeS := (tfind s.ide (ideIdx k)).getD {}

/-- R53: a stream after an IDE_KM request; none for a switch to a key that has not been programmed (log entry 76). -/
def IdeS.after (s : IdeS) : IdeKmReq → Option IdeS
  | .keyProg tx set key => some { s with keys := tins s.keys (2 * set.toNat + tx.toNat) key }
  | .setGo tx set =>
    if (tfind s.keys (2 * set.toNat + tx.toNat)).isNone then none
    else some (if tx then { s with tx := true } else { s with rx := true })
  | .setStop tx => some (if tx then { s with tx := false } else { s with rx := false })

/-- The CXL.mem stream is Secure while both directions run; a stream that a MAC failure has made Insecure stays so until a link reset
(R56), and new keys let service resume. -/
def Dev.ideMem (d : Dev) (p : Nat) : Dev :=
  let s := d.portOf p
  let x := s.stream .mem
  if s.macStop then d
  else
    let secure := x.tx && x.rx
    let d := if secure then d.set (fPDV_PORT_STS_IDE_MEM p) 1 else d.ideStopped p
    if secure && s.needKeys then d.updPort p (fun s => { s with needKeys := false }) else d

/-- R53, R355: an IDE_KM request; one in a session that is not secured is refused, and any after the security halt. -/
def Dev.ideKey (d : Dev) (p session : Nat) (k : IdeStream) (r : IdeKmReq) : Dev :=
  if !d.secured session || d.halted then d.emit (.ideKm p 1)
  else
    match ((d.portOf p).stream k).after r with
    | none => d.emit (.ideKm p 1)
    | some x =>
      let d := d.updPort p (fun s => { s with ide := tins s.ide (ideIdx k) x })
      (if k = .mem then d.ideMem p else d).emit (.ideKm p 0)

/-- R53. -/
def execIdeKm (p : Head) (session : Nat) (go : IdeKm) : State → Result :=
  runAcc (fun a => a.when (a.dev.portOf p.toNat).up (fun a =>
    (a.upd (fun d => d.ideKey p.toNat session go.stream go.req)).releaseRx p.toNat))

/-! ### The 1 µs interval (R58, R308, R310, R312, R319 to R322) -/

/-- R58: L of a port for the interval as a fraction: the sum of the latencies of its completed reads, over their number times the
latency target; 0 where no read has completed, or where the target is 0. -/
def Dev.portLoad (d : Dev) (p : Nat) : Nat × Nat :=
  let s := d.portOf p
  let n := s.reads * d.target p
  if n = 0 then (0, 1) else (s.latSum, n)

/-- The level that L selects (Table 2.4). -/
def loadBand (l : Nat × Nat) : Nat := if 2 * l.1 < l.2 then 0 else if l.1 < l.2 then 1 else if 2 * l.1 < 3 * l.2 then 2 else 3

/-- R58, R312: level and floors of a port at an interval boundary; L at least 0.1 below the band counts toward a fall. -/
def Dev.portInterval (d : Dev) (p : Nat) : Dev :=
  let lev := d.get (fPDV_DEVLOAD_LEVEL p)
  let l := d.portLoad p
  let s := d.portOf p
  let low := 10 * l.1 + l.2 ≤ 5 * lev * l.2
  let runs := if low then s.lowRuns + 1 else 0
  let fall := lev != 0 && 4 ≤ runs
  let new := if lev < loadBand l then loadBand l else if fall then lev - 1 else lev
  let held := s.heldThis || !(d.heldOf p).isEmpty
  let quiet := if held then 0 else min (s.heldQuiet + 1) 4
  let d := d.updPort p (fun s => { s with lowRuns := if lev < loadBand l || fall then 0 else runs, heldThis := false, heldQuiet := quiet,
                                          reads := 0, latSum := 0 })
  let d := (d.set (fPDV_DEVLOAD_LEVEL p) new).set (fPDV_DEVLOAD_RATIO p) (min (64 * l.1 / l.2) 255)
  let d := (d.setFlag (fPDV_DEVLOAD_FLOOR_ESC p) (quiet < 4)).setFlag (fQOS_PORT_STS_FLOOR p) (quiet < 4)
  let d := d.setFlag (fPDV_DEVLOAD_FLOOR_AMBER p) (d.get fCDC_LEVEL_LEVEL == 1)
  let d := d.setFlag (fPDV_DEVLOAD_FLOOR_RED p) (d.get fCDC_LEVEL_LEVEL == 2)
  d.setFlag (fPDV_DEVLOAD_FLOOR_THERM p) (d.flag fTHM_STS_DEVLOAD)

/-- R308: class settings that waited for the boundary. -/
def Dev.classApply (d : Dev) (l : List Nat) : Dev :=
  let c := l.getD 0 0
  let d := ((d.set (fQOS_CLS_KIND c) (l.getD 1 0)).set (fQOS_CLS_WEIGHT c) (l.getD 2 0)).set (fQOS_CLS_WAYS c) (l.getD 3 0)
  let d := (d.set (fQOS_CLS_SLOT_RSV c) (l.getD 4 0)).set (fQOS_CLS_SLOT_MAX c) (l.getD 5 0)
  (List.range 32).foldl (fun d p => d.set (fQOS_PORT_GBW_GBW p c) (l.getD (6 + p) 0)) d

/-- ΣG of a port, and over all ports, in 0.1 GB/s. -/
def Dev.gbwPort (d : Dev) (p : Nat) : Nat := ((List.range 8).map (fun c => d.get (fQOS_PORT_GBW_GBW p c))).sum
def Dev.gbwAll (d : Dev) : Nat := (heads.map d.gbwPort).sum

/-- R319: channels with every fitted slot in service. -/
def Dev.goodChannels (d : Dev) : Nat :=
  ((List.range 24).filter (fun n => [2 * n, 2 * n + 1].all (fun s => (d.mch.pop.getD s none).isNone || !d.slotOut s) &&
    [2 * n, 2 * n + 1].any (fun s => (d.mch.pop.getD s none).isSome))).length

/-- f_CORE of a P-level, in 100 MHz (Table 16.2). -/
def coreClock (l : Nat) : Nat := [21, 16, 10, 5].getD l 5

/-- Two fractions of natural numbers, and the lesser. -/
def fracLt (a b : Nat × Nat) : Bool := decide (a.1 * b.2 < b.1 * a.2)
def fracMin (a b : Nat × Nat) : Nat × Nat := if fracLt b a then b else a

/-- R317: C_rated in 0.1 GB/s, exactly: 48 x 4 B x DRAM rate x 0.78 x 0.94; 0 until the population is settled. -/
def Dev.ratedExact (d : Dev) : Nat × Nat :=
  (if d.get fQOS_CAP_RATED = 0 then 0 else 192 * popRate d.mch.pop (d.get fMCH_POP_STS_RESULT == 1) * 7332, 10000)

/-- R319: C_now in 0.1 GB/s. -/
def Dev.capNow (d : Dev) : Nat × Nat :=
  let r := d.ratedExact
  (r.1 * coreClock (d.get fPWR_PSTS_CUR) * d.goodChannels * d.get fQOS_THERM_CAP_PM, r.2 * 21 * 24 * 1000)

/-- R320: a scale factor: 0.9 of a capability over a sum of guarantees, at most 1. -/
def scaleOf (cap : Nat × Nat) (sum : Nat) : Nat × Nat := if sum = 0 then (1, 1) else fracMin (1, 1) (9 * cap.1, 10 * cap.2 * sum)

/-- The scale factors in force. -/
def Dev.scaleIn (d : Dev) (p : Nat) : Nat × Nat := tget (fun _ => (1, 1)) d.qos.scaleP p
def Dev.scaleMin (d : Dev) (p : Nat) : Nat × Nat := fracMin d.qos.scale (d.scaleIn p)

/-- R320, R317: s_p; a port without a link keeps its value (log entry 22). -/
def Dev.scaleNew (d : Dev) (p : Nat) : Nat × Nat :=
  if (d.portOf p).up then
    scaleOf (895 * d.get (fPDV_PORT_STS_WIDTH p) * rateTenths (d.get (fPDV_PORT_STS_RATE p)), 8000) (d.gbwPort p)
  else d.scaleIn p

/-- What a rate in 0.1 GB/s, scaled, carries in 1 µs, in bytes. -/
def scaledBytes (rate : Nat) (f : Nat × Nat) : Nat := rate * 100 * f.1 / f.2

/-- R320: what fills the excess bucket in 1 µs, in bytes. -/
def Dev.excessOf (d : Dev) : Nat :=
  scaledBytes 1 d.qos.cap - (heads.map (fun p => ((List.range 8).map (fun c => scaledBytes (d.get (fQOS_PORT_GBW_GBW p c)) (d.scaleMin p))).sum)).sum

/-- A scale factor is reported, in per-mille; leaving or reaching 1,000 is recorded (R320). -/
def Dev.setScale (d : Dev) (f : Fld) (x : Nat × Nat) : Dev :=
  let v := x.1 * 1000 / x.2
  let old := d.get f
  let d := d.set f v
  if old != v && (old == 1000 || v == 1000) then
    ((d.setFlag fQOS_STS_SCALED true).raise { src := src 34 0, sev := 1, code := 320, obj := v }).emit .mgmtInt
  else d

/-- R321: C_now, s, every s_p and the excess rate are recomputed, each from the values in force of those it rests on; a fall applies, a rise
waits unless up is set. -/
def Dev.capability (d : Dev) (up : Bool) : Dev :=
  let pick := fun (old new : Nat × Nat) => if up then new else fracMin old new
  let c := d.capNow
  let cIn := pick d.qos.cap c
  let sNew := scaleOf cIn d.gbwAll
  let ps : Tbl (Nat × Nat) := heads.map (fun p => (p, d.scaleNew p))
  let e0 := d.qos.excessRate
  let more := fracLt d.qos.cap c || fracLt d.qos.scale (scaleOf c d.gbwAll) || ps.any (fun x => fracLt (d.scaleIn x.1) x.2)
  let fell := fracLt c d.qos.cap || fracLt sNew d.qos.scale || ps.any (fun x => fracLt x.2 (d.scaleIn x.1))
  let d := { d with qos := { d.qos with cap := cIn, scale := pick d.qos.scale sNew
                                        scaleP := ps.foldl (fun (t : Tbl (Nat × Nat)) (x : Nat × (Nat × Nat)) => tins t x.1 (pick (d.scaleIn x.1) x.2)) d.qos.scaleP } }
  let e := d.excessOf
  let d := (d.set fQOS_FACT_CHANNELS d.goodChannels).set fQOS_FACT_PLEVEL (d.get fPWR_PSTS_CUR)
  let d := (d.set fQOS_STS_CNOW (d.qos.cap.1 / d.qos.cap.2)).setScale fQOS_STS_SCALE d.qos.scale
  let d := heads.foldl (fun d p => d.setScale (fQOS_PORT_STS_SCALE_P p) (d.scaleIn p)) d
  let therm := d.get fQOS_THERM_CAP_PM != 1000
  let d := if therm && !d.flag fQOS_STS_THERM then d.raise { src := src 34 1, sev := 1, code := 322, obj := d.get fQOS_THERM_CAP_PM } else d
  let d := d.setFlag fQOS_STS_THERM therm
  { d with qos := { d.qos with rise := !up && (more || decide (e0 < e)) && !(d.qos.rise && (fell || decide (e < e0)))
                               excessRate := if up then e else min e0 e } }

/-- R310: the token buckets of a port fill for 1 µs: 0.1 GB/s gives 100 bytes. -/
def Dev.fillTokens (d : Dev) (p : Nat) : Dev :=
  let b := if d.get fQOS_CTL_BURST_US = 0 then 7 else d.get fQOS_CTL_BURST_US
  let t := (List.range 8).foldl (fun t c =>
    let rate := scaledBytes (d.get (fQOS_PORT_GBW_GBW p c)) (d.scaleMin p)
    tset (fun _ => 0) t c (min (tget (fun _ => 0) t c + rate) (rate * b))) (d.portOf p).tokens
  if t = (d.portOf p).tokens then d else d.updPort p (fun s => { s with tokens := t })

/-- The end of a 1 µs interval. -/
def Dev.interval (d : Dev) : Dev :=
  let pend := d.qos.pend
  let d := pend.foldl Dev.classApply { d with qos := { d.qos with pend := [] } }
  let d := d.capability false
  let d := { d with qos := { d.qos with excess := if d.flag fQOS_STS_THERM then d.qos.excessRate else 0 } }
  heads.foldl (fun d p => if (d.formed p).isSome then (d.fillTokens p).portInterval p else d) d

/-- R58, R308, R310, R312, R321. -/
def execDevloadInterval (_ : Boundary) : State → Result := run Dev.interval

/-- R321: RISE_MS has passed with no fall; the rise that waits applies. -/
def execCapabilityRise : State → Result := run (fun d => d.when d.qos.rise (fun d => d.capability true))

/-- R316: a new window of a COMPAT port begins, and its held requests pass as the budget and the slots allow: the slice of the oldest that
may go grants common slots in its order (R314), in which other ports' requests may come first (DESIGN CHOICE, log entry 103). -/
def Acc.compatNext (a : Acc) (p : Nat) : Acc :=
  let a := a.upd (fun d => d.updPort p (fun s => { s with compat := 0 }))
  let n := (heads.map (fun h => (a.dev.heldOf h).length)).sum + a.dev.home.xbar.length
  (List.range n).foldl (fun a _ =>
    let slices := (a.dev.heldOf p).map (fun q => lineSlice (q.dpa / 64))
    match slices.find? (fun sl => !(a.dev.heldCands p sl).isEmpty) with
    | some sl => match a.dev.grantPick sl with
      | some q => a.grant q
      | none => a
    | none => a) a

/-- R316. -/
def execCompatWindow (p : Head) : State → Result :=
  runAcc (fun a => a.when ((a.dev.portOf p.toNat).up && a.dev.get (fQOS_PORT_CFG_MODE p.toNat) == 1) (fun a => a.compatNext p.toNat))

/-! ### Dynamic Capacity (R48 to R51) -/

/-- The region that holds 2 MiB units [s, s + n), with its number and block size in 2 MiB units. -/
def Dev.dcOf (d : Dev) (s n : Nat) : Option (Nat × Nat) :=
  (d.win.dc.find? (fun e => e.2.1 * 128 ≤ s && s + n ≤ (e.2.1 + e.2.2.1) * 128)).map
    (fun e => (e.1, if e.2.2.2 = 0 then 1 else if e.2.2.2 = 1 then 32 else 128))

/-- Extents overlap. -/
def extMeets (a b : Nat × Nat × Nat) : Bool := a.1 < b.1 + b.2.1 && b.1 < a.1 + a.2.1

/-- An extent may be offered: in its window and region, block-aligned, and free (R49). -/
def Dev.offerOk (d : Dev) (h w : Nat) (e : Extent) : Bool :=
  match d.dcOf e.start e.len with
  | some (r, b) =>
    let s := d.portOf h
    let x := (e.start, e.len, w)
    e.len != 0 && e.start % b == 0 && e.len % b == 0 && d.winDcr w == r &&
    d.winBase w ≤ e.start * unit2M && (e.start + e.len) * unit2M ≤ d.winBase w + d.winSize w &&
    !(s.extents ++ s.offers).any (extMeets x) &&
    ((s.extents ++ s.offers).filter (fun y => d.winDcr y.2.2 == r)).length < 256
  | none => false

/-- R49: the tag of the extents of a SHARED window names the window. -/
def Dev.extTag (d : Dev) (w : Nat) : Option Nat := if d.winShared w then some w else none

/-- R50: extents of a tiered window are offered to a member head; those that may not be are left out. -/
def Dev.offer (d : Dev) (h w : Nat) (exts : List Extent) : Dev :=
  let r := exts.foldl (fun (r : Dev × List (Nat × Nat)) e =>
    if r.1.offerOk h w e then (r.1.updPort h (fun s => { s with offers := s.offers ++ [(e.start, e.len, w)] }), r.2 ++ [(e.start, e.len)]) else r)
    (d, [])
  if r.2.isEmpty then d else r.1.emit (.dcEvent h 0 (d.extTag w) r.2)

/-- R50. -/
def execAddCapacity (h : Head) (w : WinId) (exts : List Extent) : State → Result :=
  run (fun d => d.when (d.fwUp && d.winValid w.toNat && d.winTiered w.toNat && d.winMember w.toNat h.toNat && !d.win.removing.contains w.toNat)
    (fun d => d.offer h.toNat w.toNat exts))

/-- An extent list is cut out of extents of which each entry must be a block-aligned part: what remains and the parts taken. R50 names
a zero-length entry and one outside the offer; an entry that is not block-aligned cannot be an extent (R49) and is refused with
them (DESIGN CHOICE, log entry 77). -/
def cutExts (blk : Nat → Nat → Option (Nat × Nat)) : List (Nat × Nat × Nat) → List Extent → Option (List (Nat × Nat × Nat) × List (Nat × Nat × Nat))
  | l, [] => some (l, [])
  | l, e :: t =>
    match takeFirst (fun x => x.1 ≤ e.start && e.start + e.len ≤ x.1 + x.2.1) l, blk e.start e.len with
    | some (x, r), some (_, b) =>
      if e.len = 0 ∨ e.start % b ≠ 0 ∨ e.len % b ≠ 0 then none
      else
        let lo := if x.1 < e.start then [(x.1, e.start - x.1, x.2.2)] else []
        let hi := if e.start + e.len < x.1 + x.2.1 then [(e.start + e.len, x.1 + x.2.1 - (e.start + e.len), x.2.2)] else []
        (cutExts blk (lo ++ hi ++ r) t).map (fun y => (y.1, (e.start, e.len, x.2.2) :: y.2))
    | _, _ => none

/-- R49: no region has more than 256 of the extents. -/
def Dev.extRoom (d : Dev) (l : List (Nat × Nat × Nat)) : Bool :=
  (List.range 8).all (fun r => (l.filter (fun y => d.winDcr y.2.2 == r)).length ≤ 256)

/-- R50: the head's response; one that would leave the head more than 256 extents in a region (R49) is refused with Resources Exhausted
(DESIGN CHOICE, log entry 69), and the offer stays held. -/
def Dev.offerResponse (d : Dev) (h : Nat) (exts : List Extent) : Dev :=
  match cutExts d.dcOf (d.portOf h).offers exts with
  | some (_, got) =>
    if d.extRoom ((d.portOf h).extents ++ got) then
      (d.updPort h (fun s => { s with offers := [], extents := s.extents ++ got })).emit (.mailboxRc h 0)
    else d.emit (.mailboxRc h 6)
  | none => d.emit (.mailboxRc h 5)

/-- R50. -/
def execAddDynamicCapacityResponse (h : Head) (exts : List Extent) : State → Result :=
  run (fun d => d.when ((d.portOf h.toNat).up && !d.cfgOnly h.toNat) (fun d => d.offerResponse h.toNat exts))

/-- R50: an offer that no response named returns to the pool. -/
def execOfferTimeout (h : Head) (ext : Extent) : State → Result :=
  run (fun d => d.updPort h.toNat (fun s => { s with offers := s.offers.filter (fun x => !(x.1 == ext.start && x.2.1 == ext.len)) }))

end Sys2Proof.Machine
end

