-- ==== Sys2Proof/Machine/Window.lean ====
section
/-! DEFINITION. The window table (03_windows.md R63 to R74, R83): legality, changes applied to the running block, zero fills,
removal, and the release of Dynamic Capacity (02_host_links.md R51). -/

namespace Sys2Proof.Machine

/-! ### The metadata region (R215, R216) -/

/-- First unit and end of the metadata region. -/
def Dev.metaLo (d : Dev) : Nat := d.get (fCDC_LAYOUT_SIZE 0) + d.get (fCDC_LAYOUT_SIZE 1) + d.get (fCDC_LAYOUT_SIZE 2)
def Dev.metaHi (d : Dev) : Nat := d.metaLo + d.get (fCDC_LAYOUT_SIZE 3)

/-- The lowest place for n units of the metadata region (log entry 15). -/
def Dev.metaFit (d : Dev) (n : Nat) : Option Nat :=
  let busy := fun (b : Nat) => d.sec.allot.find? (fun x => x.base < b + n && b < x.base + x.units)
  ((d.metaLo :: d.sec.allot.map (fun x => x.base + x.units)).filter (fun b => d.metaLo ≤ b && b + n ≤ d.metaHi && (busy b).isNone)).foldl
    (fun (r : Option Nat) b => match r with | some m => some (min m b) | none => some b) none

/-- Units are allotted to a structure of an object. -/
def Dev.allotMeta (d : Dev) (kind obj base units : Nat) : Dev :=
  { d with sec := { d.sec with allot := d.sec.allot ++ [(⟨kind, obj, base, units⟩ : Allot)] } }

/-- The lines [lo, hi) hold zero codewords; redirected frames at their spares (R149). -/
def Acc.zeroLines (a : Acc) (lo hi : Nat) : Acc :=
  let a := (a.upd (fun d => d.filled (fun l => decide (lo ≤ d.unredirect l) && decide (d.unredirect l < hi)))).zero lo hi
  (a.dev.mch.redirect.filter (fun e => lo ≤ e.1 * 64 && e.1 * 64 < hi)).foldl (fun a e => a.zero (e.2 * 64) (e.2 * 64 + 64)) a

/-- The first MPA line of an allotment, and the line past its last. -/
def Allot.lo (x : Allot) : Nat := x.base * 32768
def Allot.hi (x : Allot) : Nat := (x.base + x.units) * 32768

/-- Cached lines of an allotment, redirected ones (R149) among them, leave the caches unwritten. -/
def Dev.dropCached (d : Dev) (x : Allot) : Dev :=
  let mine := fun (l : Nat) => decide (x.lo ≤ d.unredirect l) && decide (d.unredirect l < x.hi)
  { d with sec := { d.sec with nodes := d.sec.nodes.filter (fun e => !mine e.1), mlines := d.sec.mlines.filter (fun e => !mine e.1) } }

/-- R216: a page map is all zeros: every page VOID with reason 0. -/
def Acc.zeroMap (a : Acc) (x : Allot) : Acc := (a.upd (fun d => d.dropCached x)).zeroLines x.lo x.hi

/-- A structure returns to the metadata region; a page map is zeroed (R216). -/
def Acc.freeMeta (a : Acc) (kind obj : Nat) : Acc :=
  match a.dev.sec.allot.find? (fun x => x.kind == kind && x.obj == obj) with
  | some x =>
    let a := a.upd (fun d => { d with sec := { d.sec with allot := d.sec.allot.filter (fun y => !(y.kind == kind && y.obj == obj)) } })
    if kind = 3 then a.zeroMap x else a.upd (fun d => d.dropCached x)
  | none => a

/-- R216: the page map of a new tiered window stands on units that held another structure as it would on fresh ones: it is zeroed when
it comes into use (DEDUCED, log entry 81). -/
def Acc.freshMap (a : Acc) (n : Nat) : Acc :=
  match a.dev.sec.allot.find? (fun x => x.kind == 3 && x.obj == n) with
  | some x => a.zeroMap x
  | none => a

/-- Units of a window's directory segment and page map. -/
def dirUnits (size : Nat) : Nat := (size + 7) / 8
def pmapUnits (size : Nat) : Nat := (size + 511) / 512

/-! ### Images -/

/-- Fields of an entry image. -/
def imKind (w : List Nat) : Nat := w.getD 0 0 / 2 % 4
def imShared (w : List Nat) : Bool := (w.getD 0 0).testBit 3
def imMirrored (w : List Nat) : Bool := (w.getD 0 0).testBit 4
def imMmode (w : List Nat) : Bool := (w.getD 0 0).testBit 5
def imLoss (w : List Nat) : Bool := (w.getD 0 0).testBit 6
def imKr (w : List Nat) : Nat := w.getD 0 0 / 2 ^ 8 % 16
def imInteg (w : List Nat) : Nat := w.getD 0 0 / 2 ^ 12 % 4
def imDcr (w : List Nat) : Nat := w.getD 0 0 / 2 ^ 17 % 8
def imBase (w : List Nat) : Nat := w.getD 1 0 % 2 ^ 25
def imSize (w : List Nat) : Nat := w.getD 2 0 % 2 ^ 25
def imHeads (w : List Nat) : Nat := w.getD 3 0
def imMbase (w : List Nat) : Nat := w.getD 4 0 % 2 ^ 23
def imPshare (w : List Nat) : Nat := w.getD 5 0 % 2 ^ 23

/-- The six words of entry n. -/
def Dev.winImage (d : Dev) (n : Nat) : List Nat := (winWords n).map (fun p => d.rd p.1)

/-- The images that count as existing: valid entries, and creates in progress (R334). -/
def Dev.images (d : Dev) : List (List Nat) :=
  d.windows.map d.winImage ++ (d.win.chg.filter (fun c => c.kind == 0)).map (·.img)

/-- The lowest entry that is not valid and not being created. -/
def Dev.freeEntry (d : Dev) : Option Nat :=
  (List.range 256).find? (fun n => !d.winValid n && !d.win.chg.any (fun c => c.win == n))

/-- Ranges [a, a + n) and [b, b + m) meet. -/
def meet (a n b m : Nat) : Bool := a < b + m && b < a + n

/-- A boundary x lies strictly inside [b, b + n). -/
def inside (x b n : Nat) : Bool := b < x && x < b + n

/-- A Dynamic Capacity region: base and length in 2 MiB units, block in 2 MiB units. -/
def Dev.region (d : Dev) (r : Nat) : Nat × Nat × Nat :=
  match tfind d.win.dc r with
  | some x => (x.1 * 128, x.2.1 * 128, if x.2.2 = 0 then 1 else if x.2.2 = 1 then 32 else 128)
  | none => (0, 0, 1)

/-- R256: the window of the partner shadow that is a target of window n of a size. -/
def Dev.mirTargetOf (d : Dev) (n size : Nat) : Option Nat :=
  if d.mir.pairing.isNone then none
  else
    ((d.mir.shMst.filter (fun e => e.2.headD 0 == mirTarget && e.2.getD 2 0xffff == n)).find? (fun e =>
      match tfind d.mir.shWin e.1 with
      | some w => w.getD 3 0 % 2 ^ 25 == size
      | none => false)).map (·.1)

/-! ### Refusals (Tables 3.2, 3.3) -/

/-- Packet offset of word k of an image that stands at a payload offset. -/
def wordAt (off k : Nat) : Nat := 16 + off + 4 * k

/-- Rows of Table 3.3 that look at the image alone. -/
def imageBad (off : Nat) (w : List Nat) : List (Bool × Nat × Nat) :=
  let tiered := imKind w != 0
  [(w.getD 0 0 % 2 == 0, stInvalidField, wordAt off 0), (imSize w == 0, stInvalidField, wordAt off 2),
   (imHeads w == 0, stInvalidField, wordAt off 3), (tiered && imPshare w == 0, stInvalidField, wordAt off 5),
   (imKind w == 3, stInvalidField, wordAt off 0), (imInteg w == 0, stInvalidField, wordAt off 0)]

/-- Rows of Table 3.3 about placement, for an image that is not valid yet. -/
def Dev.placeBad (d : Dev) (w : List Nat) : List (Bool × Nat × Nat) :=
  let b := imBase w
  let n := imSize w
  let tiered := imKind w != 0
  let r := d.region (imDcr w)
  let bk := d.get (fCDC_LAYOUT_SIZE 0)
  let ims := d.images
  let krs := (List.range 16).filter d.krValid
  let cutKr := krs.any (fun k => inside (d.krBase k / unit2M) b n || inside ((d.krBase k + d.krSize k) / unit2M) b n)
  let cutDc := d.win.dc.any (fun e => inside (e.2.1 * 128) b n || inside ((e.2.1 + e.2.2.1) * 128) b n)
  [(2 ^ 25 < b + n, stInvalidField, wordAt 0 1),
   (!tiered && d.staticEnd / unit2M < b + n, stInvalidField, wordAt 0 1),
   (tiered && r.1 + r.2.1 < b + n, stInvalidField, wordAt 0 1),
   (ims.any (fun i => meet b n (imBase i) (imSize i)), stWinOverlap, noDetail),
   (!tiered && ims.any (fun i => imKind i == 0 && meet (imMbase w) n (imMbase i) (imSize i)), stWinOverlap, noDetail),
   (!tiered && meet (imMbase w) n (bk - d.get fPAIR_MIR_BMAREA_UNITS) (d.get fPAIR_MIR_BMAREA_UNITS), stWinOverlap, noDetail),
   (cutKr || cutDc, stWinOverlap, noDetail),
   (!tiered && bk < imMbase w + n, stWinIllegal, noDetail)]

/-- The units that an image needs in the metadata region. -/
def metaNeed (w : List Nat) : List Nat :=
  (if imShared w then [dirUnits (imSize w)] else []) ++ (if imKind w != 0 then [pmapUnits (imSize w)] else [])

/-- Structures of given sizes fit in the metadata region, one after the other. -/
def Dev.metaFits (d : Dev) : List Nat → Bool
  | [] => true
  | n :: t =>
    match d.metaFit n with
    | some b => Dev.metaFits (d.allotMeta 9 0 b n) t
    | none => false

/-- Rows of Table 3.3 about capacity. -/
def Dev.roomBad (d : Dev) (w : List Nat) : List (Bool × Nat × Nat) :=
  let ims := d.images
  let ps := (ims.filter (fun i => imKind i != 0)).map imPshare
  let sh := (ims.filter imShared).map imSize
  [(imKind w != 0 && d.get (fCDC_LAYOUT_SIZE 1) < ps.sum + imPshare w, stNoCapacity, noDetail),
   (imShared w && 2 ^ 21 < sh.sum + imSize w, stSharedLimit, noDetail),
   (d.freeEntry.isNone, stNoCapacity, noDetail),
   (!d.metaFits (metaNeed w), stNoCapacity, noDetail)]

/-- The rows of Table 3.2 that no other status covers. -/
def Dev.kindBad (d : Dev) (w : List Nat) : Bool :=
  let b := imBase w
  let n := imSize w
  let tiered := imKind w != 0
  let r := d.region (imDcr w)
  let k := imKr w
  (imMirrored w && tiered) || (imMmode w && !imMirrored w) || (imLoss w && !imShared w) ||
  !d.krValid k || imInteg w != d.krMode k || b * unit2M < d.krBase k || d.krBase k + d.krSize k < (b + n) * unit2M ||
  (!imShared w && popCount 32 (imHeads w) != 1) ||
  (tiered && (imMbase w != 0 || b < r.1 || b % r.2.2 != 0 || n % r.2.2 != 0 || n < imPshare w || 3 * imPshare w < n)) ||
  (!tiered && (imDcr w != 0 || imPshare w != 0))

/-- The image at a payload offset. -/
def imageIn (c : Pkt) (off : Nat) : List Nat := (List.range 6).map (fun i => c.at_ (off + 4 * i) 4)

/-- R66 to R68, R158, R256: the refusal of a create; the WIN_BUSY of R83 and R214, and reserved bits, have been looked at (Dev.bodyCheck).
R68 gives no place among its rows to R215's NO_CAPACITY, which stands here beside Table 3.3's own NO_CAPACITY rows, nor to
KEY_NOT_LOADED and KR_READ_ONLY (R158) and BASIC_SERVICE, which stand after all of them (DESIGN CHOICE, log entry 79). -/
def Dev.createBad (d : Dev) (w : List Nat) : Option (Nat × Nat) :=
  let n := d.freeEntry.getD 256
  firstBad (imageBad 0 w ++ d.placeBad w ++ d.roomBad w ++
    [(imMirrored w && (d.mirTargetOf n (imSize w)).isNone, stMirNoTarget, noDetail),
     (d.kindBad w, stWinIllegal, noDetail),
     (!d.krUsable (imKr w), stKeyNotLoaded, noDetail),
     (d.krExh (imKr w), stKrReadOnly, noDetail),
     (d.basic && imKind w != 0, stBasicService, noDetail)])

/-! ### Changes (R71) -/

/-- R71 step 1: a change begins: requests of its ranges are held from now on. -/
def Dev.beginChg (d : Dev) (c : WinChg) : Dev := { d with win := { d.win with chg := d.win.chg ++ [c] } }

/-- A create begins: its structures are allotted (R215), and its fill, if any, is outstanding (R72). -/
def Dev.beginCreate (d : Dev) (n : Nat) (w : List Nat) (bg : Option Nat) : Dev :=
  let put := fun (d : Dev) (kind units : Nat) => match d.metaFit units with
    | some b => d.allotMeta kind n b units
    | none => d
  let d := if imShared w then put d 0 (dirUnits (imSize w)) else d
  let d := if imKind w != 0 then put d 3 (pmapUnits (imSize w)) else d
  d.beginChg { win := n, img := w, filling := imShared w || imKind w == 0, kind := 0, bg := bg }

/-- R66: WIN_CREATE. -/
def execWinCreate (c : Pkt) : State → Result :=
  run (fun d => d.command rowWinCreate c (fun d => d.createBad (imageIn c 0)) (fun i d =>
    let n := d.freeEntry.getD 0
    (.runs [n], d.beginCreate n (imageIn c 0) (some i))))

/-- R69, R70, R256: the refusal of a modify. R68 gives R69's WIN_ILLEGAL, R70's WIN_BUSY and R256's MIR_STATE no place among the rows
of Table 3.3: R69's stands after the rows that look at the image alone, R256's next, and R70's last (DESIGN CHOICE, log entry 79). -/
def Dev.modifyBad (d : Dev) (n : Nat) (w : List Nat) : Option (Nat × Nat) :=
  let old := d.winImage n
  let free := 2 ^ 4 + 2 ^ 5 + 2 ^ 6
  let fixed := fun (v : Nat) => v - (v &&& free)
  let gone := bitsOf 32 (imHeads old - (imHeads old &&& imHeads w))
  let lo := d.winBase n
  firstBad ([(!d.winValid n, stInvalidField, 16)] ++ imageBad 4 w ++
    [(fixed (w.getD 0 0) != fixed (old.getD 0 0) || [1, 2, 4, 5].any (fun i => w.getD i 0 != old.getD i 0), stWinIllegal, noDetail),
     (d.mirSt n == mirTarget && imMirrored w, stMirState, noDetail),
     (imMirrored w && !imMirrored old && (d.mirTargetOf n (imSize w)).isNone, stMirNoTarget, noDetail),
     ((imMirrored w && imKind w != 0) || (imMmode w && !imMirrored w) || (imLoss w && !imShared w) ||
       (!imShared w && popCount 32 (imHeads w) != 1), stWinIllegal, noDetail),
     (gone.any (fun h => d.decCovers h lo (lo + d.winSize n) || (d.portOf h).extents.any (fun e => e.2.2 == n)), stWinBusy, noDetail)])

/-- R69: WIN_MODIFY. -/
def execWinModify (c : Pkt) : State → Result :=
  run (fun d => d.command rowWinModify c (fun d => d.modifyBad (c.at_ 0 1) (imageIn c 4)) (fun i d =>
    (.runs [c.at_ 0 1], d.beginChg { win := c.at_ 0 1, img := imageIn c 4, filling := false, kind := 1, bg := some i })))

/-- R73, R255: the refusal of a remove. -/
def Dev.removeBad (d : Dev) (n : Nat) : Option (Nat × Nat) :=
  firstBad [(!d.winValid n, stInvalidField, 16),
    ((d.winKind n == 0 && d.winCovered n) || d.mirSt n == mirTarget, stWinBusy, noDetail)]

/-- The heads that hold extents of a window. -/
def Dev.holders (d : Dev) (n : Nat) : List Nat := heads.filter (fun h => (d.portOf h).extents.any (fun e => e.2.2 == n))

/-- R50, R73: pending offers of a window are withdrawn, and its holders are asked to release. -/
def Dev.askRelease (d : Dev) (n : Nat) : Dev :=
  let d := heads.foldl (fun d h =>
    if (d.portOf h).offers.any (fun e => e.2.2 == n) then d.updPort h (fun s => { s with offers := s.offers.filter (fun e => e.2.2 != n) }) else d) d
  d.emits ((d.holders n).map (fun h => Out.dcEvent h 1 (d.extTag n) (((d.portOf h).extents.filter (fun e => e.2.2 == n)).map (fun e => (e.1, e.2.1)))))

/-- The change that clears an entry; a modify of it that is in progress ends first (R73). -/
def Dev.beginRemove (d : Dev) (n : Nat) (bg : Option Nat) : Dev :=
  if d.win.chg.any (fun c => c.win == n) then d else
  let d := { d with win := { d.win with removing := d.win.removing.filter (· != n) } }
  d.beginChg { win := n, img := List.replicate 6 0, filling := false, kind := 2, bg := bg }

/-- R73: a removal is ordered: at once, or once the last extent is released. -/
def Dev.orderRemove (d : Dev) (i n : Nat) : CmdEnd × Dev :=
  let d := if d.winTiered n then d.askRelease n else d
  if (d.holders n).isEmpty then (.runs [n], d.beginRemove n (some i))
  else (.done [] 2, { d with win := { d.win with removing := (d.win.removing ++ [n]).eraseDups } })

/-- R73: WIN_REMOVE. -/
def execWinRemove (c : Pkt) : State → Result :=
  run (fun d => d.command rowWinRemove c (fun d => d.removeBad (c.at_ 0 1)) (fun i d => d.orderRemove i (c.at_ 0 1)))

/-- A change of an entry is replaced. -/
def Dev.updChg (d : Dev) (n : Nat) (f : WinChg → WinChg) : Dev :=
  { d with win := { d.win with chg := d.win.chg.map (fun c => if c.win = n then f c else c) } }

/-! ### Mirror transitions of an entry (R256) -/

/-- MIRRORED 0 → 1. -/
def Dev.mirStart (d : Dev) (w : Nat) : Dev :=
  let d := (d.setFlag (fPAIR_MIRW_STS_FULL w) true).set (fPAIR_MIRW_CURSOR_DPA w) (d.winBase w)
  match d.mirTargetOf w (d.get (fWIN_ENT_W2_SIZE w)) with
  | some t =>
    let d := (d.set (fPAIR_MIRW_STS_PEER w) t).setFlag (fPAIR_MIRW_STS_PEER_SET w) true
    if d.linkUp then d.setMir w mirCopy else (d.set (fPAIR_MIRW_STS_CAUSE w) 1).setMir w mirSolo
  | none => (d.set (fPAIR_MIRW_STS_CAUSE w) 2).setMir w mirSolo

/-- The number that stands for number n once the queue, whose first message has number base, keeps only the given messages: the message
itself where it is kept, else the last kept one before it; a number already sent stands. -/
def renum (base : Nat) (keep : List PMsg) (n : Nat) : Nat :=
  let at_ := fun (n : Nat) => (n + 2 ^ 32 - base) % 2 ^ 32
  if at_ n < 2 ^ 31 then (base + 2 ^ 32 + (keep.filter (fun k => at_ k.num ≤ at_ n)).length - 1) % 2 ^ 32 else n

/-- Messages of a window that are still queued leave; later ones are numbered anew, and with them what waits for a number: read-throughs,
fences, and the records of jobs (R256, R259, R260, R262). A job that waits for a message of the window waits no more. -/
def Dev.dropMsgs (d : Dev) (w : Nat) : Dev :=
  let q := d.txq 0
  let base := (d.mir.nextNum + 2 ^ 32 - q.length) % 2 ^ 32
  let keep := q.filter (fun m => m.win != w)
  let keep' := (keep.zipIdx).map (fun x => { x.1 with num := (base + x.2) % 2 ^ 32 })
  let mine := (d.mir.unacked.filter (fun m => m.win == w)).map (·.num)
  let sent := d.mir.unacked.take (d.mir.unacked.length - q.length)
  let jobs := d.job.jobs.map (fun j => match j.msg with
    | some n => { j with msg := if mine.contains n then none else some (renum base keep n) }
    | none => j)
  let rt := (d.txq 3).map (fun m => { m with num := renum base keep m.num })
  let d := (d.setTxq 0 keep').setTxq 3 rt
  { d with mir := { d.mir with nextNum := (base + keep'.length) % 2 ^ 32, unacked := sent ++ keep',
                               fences := d.mir.fences.map (fun f => (f.1, f.2.1, renum base keep f.2.2)) },
           job := { d.job with jobs := jobs } }

/-- MIRRORED 1 → 0. -/
def Acc.mirStop (a : Acc) (w : Nat) : Acc :=
  let mine := a.dev.mir.unacked.filter (fun m => m.win == w)
  let ws := a.dev.mir.waits.filter (fun q => q.win == w)
  let a := a.upd (fun d =>
    let d := d.dropMsgs w
    let d := { d with mir := { d.mir with unacked := d.mir.unacked.map (fun m => if m.win = w then { m with cpl := none } else m)
                                          waits := d.mir.waits.filter (fun q => q.win != w) } }
    let d := ((mine.foldl Dev.giveCpl d).dropDirty w).fenceEnd w 1
    let d := ((d.setFlag (fPAIR_MIRW_STS_FULL w) false).setFlag (fPAIR_MIRW_STS_PEER_SET w) false).set (fPAIR_MIRW_STS_CAUSE w) 0
    (d.setFlag (fPAIR_MIRW_STS_DIVERGED w) false).setMir w 0)
  a.retryInOrder ws

/-! ### Step 3 and 4 of Table 3.4 -/

/-- The six words and their complements are written. -/
def Dev.putImage (d : Dev) (n : Nat) (w : List Nat) : Dev :=
  ((winWords n).zip w).foldl (fun d x => d.wrPair x.1.1 x.1.2 x.2) d

/-- VALID_N and SHARED_BYTES follow the entries. -/
def Dev.winStats (d : Dev) : Dev :=
  let ws := d.windows
  (d.set fWIN_STS_VALID_N ws.length).set fWIN_SHARED_BYTES_BYTES ((ws.filter d.winShared).map d.winSize).sum

/-- Requests of window n are past stage 3, or writes of it have been accepted and are not stored yet (R17). -/
def Dev.inFlight (d : Dev) (n : Nat) : Bool :=
  d.home.lbuf.any (fun e => d.winHas n (64 * e.1)) ||
  d.home.trans.any (fun t => t.req.win == n) ||
  (d.home.waits ++ d.home.retry ++ d.home.xbar ++ d.tier.waits ++ d.mir.waits).any (fun q => q.res && q.win == n)

/-- The stores of a removed window are given up: frames, cells, cache entries, directory, metadata allotments, counts (R73, R89). -/
def Acc.dropWindow (a : Acc) (n : Nat) (old : List Nat) : Acc :=
  let lo := imBase old * 512
  let hi := lo + imSize old * 512
  let mine := fun (pg : Nat) => decide (lo ≤ pg) && decide (pg < hi)
  let a := if imMirrored old then a.mirStop n else a
  let a := a.upd (fun d =>
    let gone := d.tier.cells.filter (fun e => mine e.2.page)
    let d := (tkeys gone).foldl Dev.dropCell d
    let d := (d.tier.frames.filter (fun e => imKind old != 0 && (framePage e.2).any mine)).foldl (fun d e =>
        if e.2.1 = 1 then d.setFrame e.1 0 0 else d.setFrame e.1 4 0xff) d
    let d := { d with tier := { d.tier with hlc := d.tier.hlc.filter (fun e => !mine (e.2.x / 4)), reQ := d.tier.reQ.filter (fun e => !mine (e.x / 4)),
                                            promoQ := d.tier.promoQ.filter (fun p => !mine p), lastAcc := tdrop mine d.tier.lastAcc,
                                            decoding := d.tier.decoding.filter (fun x => !mine (x / 4)) } }
    let d := { d with home := { d.home with dcache := d.home.dcache.filter (fun e => !mine (e.2.line / 64)),
                                            victims := d.home.victims.filter (fun v => !mine (v.line / 64)),
                                            dirBad := d.home.dirBad.filter (fun l => !mine (l / 64)) } }
    let sw := d.home.sweeps.map (fun s => { s with cur := if s.wins.headD 256 = n then 0 else s.cur, wins := s.wins.filter (· != n) })
    let ended := (sw.filter (fun s => s.wins.isEmpty)).map (·.head)
    let left := sw.filter (fun s => !s.wins.isEmpty)
    let d := { d with home := { d.home with sweeps := left } }
    let d := (ended.filter (fun h => !left.any (fun s => s.head == h))).foldl (fun d h => d.setBit fHOME_DEAD_HEAD h false) d
    let d := match left with
      | [] => d.setFlag fHOME_SWEEP_ACTIVE false
      | s :: _ => d.set fHOME_SWEEP_WINDOW (s.wins.headD 0)
    let d := { d with win := { d.win with dirSeg := tdel d.win.dirSeg n, faulted := d.win.faulted.filter (· != n) } }
    let d := heads.foldl (fun d h => d.set (fHOME_HELD_COUNT h n) 0) (d.set (fHOME_LOST_COUNT n) 0)
    let d := d.setBit (fHOME_WDOWN_DOWN (n / 32)) (n % 32) false
    let d : Dev := (d.set (fCDC_WPMAP_MPA n) 0).set (fCDC_WUSE_BLOCKS n) 0
    if d.mirSt n = 0 then d else d.setMir n 0)
  (a.freeMeta 0 n).freeMeta 3 n

/-- The structures of a new window come into use. -/
def Dev.useWindow (d : Dev) (n : Nat) (w : List Nat) : Dev :=
  let at_ := fun (kind : Nat) => ((d.sec.allot.find? (fun x => x.kind == kind && x.obj == n)).map (fun x => x.base * unit2M)).getD 0
  let d := if imShared w then { d with win := { d.win with dirSeg := tins d.win.dirSeg n (at_ 0, imSize w * unit2M / 8) } } else d
  if imKind w != 0 then d.set (fCDC_WPMAP_MPA n) (at_ 3) else d

/-- The record keeps the image of entry n with its complements, or forgets it (R336). -/
def Dev.cfgWin (d : Dev) (n : Nat) (w : Option (List Nat)) : Dev :=
  let t := match w with
    | some x => tins d.flash.cfg.wins n (withCompl x)
    | none => tdel d.flash.cfg.wins n
  { d with flash := { d.flash with cfg := { d.flash.cfg with wins := t } } }

/-- Steps 3 to 5 of Table 3.4: the entry is written and checked, its consequences follow, and the held requests go on. -/
def Acc.applyChg (a : Acc) (c : WinChg) : Acc :=
  let n := c.win
  let old := a.dev.winImage n
  let a := a.upd (fun d => { d with win := { d.win with chg := d.win.chg.filter (fun x => x.win != n) } })
  let u := (a.dev.putImage n c.img).winUse n
  let a := match u.1 with
    | some _ =>
      let a := { a with dev := u.2.putImage n old }
      let a := if c.kind = 0 then (a.freeMeta 0 n).freeMeta 3 n else a
      a.upd (fun d => d.bgDoneOpt c.bg stComplementMismatch noDetail [])
    | none =>
      let a := { a with dev := u.2 }
      let a := if c.kind = 2 then a.dropWindow n old else a
      let a := if c.kind = 0 then (if imKind c.img != 0 then a.freshMap n else a).upd (fun d => d.useWindow n c.img) else a
      let a := if c.kind != 2 && imMirrored c.img && !imMirrored old then a.upd (fun d => d.mirStart n)
        else if c.kind = 1 && !imMirrored c.img && imMirrored old then a.mirStop n else a
      a.upd (fun d =>
        let d := { d with win := { d.win with faulted := d.win.faulted.filter (· != n) } }
        let d := ((d.winStats.winChanged n).cfgWin n (if c.kind = 2 then none else some c.img)).cdatFollow
        d.bgDoneOpt c.bg stSuccess noDetail (if c.kind = 0 then leOf 4 n else []))
  let a := a.upd (fun d => if c.kind = 1 && d.win.removing.contains n && (d.holders n).isEmpty then d.beginRemove n none else d)
  c.held.foldl Acc.enter a

/-- R384: the domains that an entry needs have power: DIRC for a SHARED one, the HLC banks for a tiered one. -/
def Dev.chgPowered (d : Dev) (img : List Nat) : Bool :=
  (!imShared img || d.bit fPWR_DOM_STS_ON 55) && (imKind img == 0 || (List.range 4).all (fun i => d.bit fPWR_DOM_STS_ON (51 + i)))

/-- R71: the home slices report that the requests of the old entry are complete. -/
def Acc.tableApply (a : Acc) (n : Nat) : Acc :=
  match a.dev.win.chg.find? (fun c => c.win == n && !c.filling) with
  | some c => if a.dev.inFlight n || !a.dev.chgPowered c.img then a else a.applyChg c
  | none => a

/-- R71. -/
def execWindowTableApply (w : WinId) : State → Result := runAcc (fun a => a.tableApply w.toNat)

/-! ### Dynamic Capacity release (R51) -/

/-- R51: a head releases block-aligned parts of its extents; the last of a window being removed lets its removal go on (R73). R51 gives
a status for a count of 0 only: a list that names capacity the head does not hold, or a part that is unaligned or of length 0, is
refused whole with Invalid Extent List, and one that would leave more than 256 extents in a region (R49) with Resources
Exhausted (DESIGN CHOICE, log entries 69 and 78). -/
def Dev.releaseCap (d : Dev) (h : Nat) (exts : List Extent) : Dev :=
  if exts.isEmpty then d.emit (.mailboxRc h 4)
  else
    match cutExts d.dcOf (d.portOf h).extents exts with
    | some (left, _) =>
      if !d.extRoom left then d.emit (.mailboxRc h 6) else
      let d := (d.updPort h (fun s => { s with extents := left })).emit (.mailboxRc h 0)
      (d.win.removing.filter (fun n => (d.holders n).isEmpty)).foldl (fun d n => d.beginRemove n none) d
    | none => d.emit (.mailboxRc h 5)

/-- R51. -/
def execReleaseDynamicCapacity (h : Head) (exts : List Extent) : State → Result :=
  run (fun d => d.when ((d.portOf h.toNat).up && !d.cfgOnly h.toNat) (fun d => d.releaseCap h.toNat exts))

/-! ### The map lock (R82, R83) -/

/-- R82, R83: the mask of row k of Table 3.6 may be locked. -/
def Dev.maskOk (d : Dev) (k : Nat) : Bool :=
  let m := d.mask k
  let row := 19 + d.get fWIN_GEOM_RANKB + d.get fWIN_GEOM_DIMMB
  let hi := d.get fWIN_GEOM_AWIDTH
  m == 0 || (m.testBit (13 + k) && (bitsOf 48 m).all (fun b => b == 13 + k || (row ≤ b && b < hi)))

/-- R83, R114: a write of 1 to MAP_LOCK. -/
def Dev.mapLock (d : Dev) : Dev :=
  if d.flag fWIN_CTL_MAP_LOCK then d
  else if d.get fMCH_POP_STS_RESULT ≠ 3 ∧ d.get fWIN_GEOM_DENSITY ≤ 1 ∧ d.get fWIN_GEOM_RANKB ≤ 2 ∧ (List.range 6).all d.maskOk = true then d.setFlag fWIN_CTL_MAP_LOCK true
  else (d.setFlag fWIN_STS_MAP_ERR true).raise { src := src 8 1, sev := 1, code := 83 }

/-- R83. -/
def execMapLockWrite (by_ : Writer) : State → Result := run (fun d => d.writeBy by_ rWIN_CTL Dev.mapLock)

end Sys2Proof.Machine
end

