-- ==== Sys2Proof/Machine/Slot.lean ====
section
/-! DEFINITION. DIMM slot power switching (17_slot_power.md R406 to R417) and training of a slot enabled in service
(05_dram_scheduling.md R132). -/

namespace Sys2Proof.Machine

/-! ### Slot states -/

/-- SLTs_STS.STATE (Table 17.2). -/
def slOff : Nat := 0
def slRamp : Nat := 1
def slOn : Nat := 2
def slTripped : Nat := 3
def slDamaged : Nat := 4

/-- The controller of slot s beyond its registers. -/
def Dev.slt (d : Dev) (s : Nat) : SlotS := (tfind d.slot s).getD SlotS.empty

/-- It becomes f of itself. -/
def Dev.updSlt (d : Dev) (s : Nat) (f : SlotS → SlotS) : Dev := { d with slot := tins d.slot s (f (d.slt s)) }

/-- STATE of slot s. -/
def Dev.sltState (d : Dev) (s : Nat) : Nat := d.get (fSLT_STS_STATE s)

/-- Slot s takes a state; PWREN and SLT_ON follow (Table 17.2). -/
def Dev.setSlt (d : Dev) (s st : Nat) : Dev :=
  ((d.set (fSLT_STS_STATE s) st).setFlag (fSLT_STS_PWREN s) (st == slOn)).setBit fSLT_ON_SLOTS s (st == slOn)

/-- A record of slot s (R407, R410 to R414). -/
def Dev.sltRecord (d : Dev) (s sev code : Nat) : Dev := d.raise { src := src 38 s, sev := sev, code := code, obj := s }

/-- R152: repairs of a DIMM are forgotten: soft ones when it loses power, all of them when it leaves. -/
def Dev.forgetRepairs (d : Dev) (s : Nat) (all : Bool) : Dev :=
  { d with mch := { d.mch with pprUsed := d.mch.pprUsed.filter (fun r =>
      !(r.getD 0 0 == s / 2 && r.getD 2 0 / 4 == s % 2 && (all || r.getD 7 0 == 0))) } }

/-- The slot is off at once: ramp and fall end, and what was trained is forgotten. -/
def Dev.sltDrop (d : Dev) (s st cause : Nat) : Dev :=
  (((d.setSlt s st).set (fSLT_STS_CAUSE s) cause).updSlt s (fun x => { x with ramp := 0, fall := 0, spd := none })).forgetRepairs s false

/-- R410: a trip; its record declares the DIMM failed (R269). -/
def Dev.sltTrip (d : Dev) (s cause : Nat) : Dev :=
  (((d.sltDrop s slTripped cause).setOut s true).sltRecord s 3 cause).bumpSat (fSLT_EVT_TRIPS s) 1

/-- R414: an ordered turn-off starts: PWREN goes low, and the gate falls later. One that runs goes on. -/
def Dev.sltFall (d : Dev) (s cause : Nat) : Dev :=
  if (d.slt s).fall = 0 then
    (d.setFlag (fSLT_STS_PWREN s) false).updSlt s (fun x => { x with ramp := 0, fall := 1, fallCause := cause, spd := none })
  else d

/-- The slot is RAMP or ON. -/
def Dev.sltLive (d : Dev) (s : Nat) : Bool := d.sltState s == slRamp || d.sltState s == slOn

/-- R414: the BANK_RETIRE entries of a slot's DIMM are cleared, and forgotten by firmware's list (R149). -/
def Dev.clearBret (d : Dev) (s : Nat) : Dev :=
  let ch := s / 2
  let mine := fun (rank : Nat) => rank / 4 == s % 2
  let d := (List.range 8).foldl (fun d k => if mine (d.get (fMCH_BRET_RANK ch k)) then d.wr (rMCH_BRET ch k) 0 else d) d
  { d with flash := { d.flash with banks := d.flash.banks.filter (fun b => !(b.getD 0 0 == ch && mine (b.getD 2 0))) } }

/-- The slots that the configuration record has enabled at boot (R114, R336). -/
def Dev.cfgSlot (d : Dev) (s : Nat) (on : Bool) : Dev :=
  let m := (tfind d.flash.cfg.regs rSLT_ON).getD 0
  let v := if on then m ||| 2 ^ s else m - (m &&& 2 ^ s)
  { d with flash := { d.flash with cfg := { d.flash.cfg with regs := tins d.flash.cfg.regs rSLT_ON v } } }

/-! ### The limits (R9, R411) -/

/-- The limits of slot s pass their use; a failed pair is recorded, and the operation does not act on it. -/
def Dev.sltUse (d : Dev) (s : Nat) : Bool × Dev :=
  [(rSLT_LIM0 s, rSLT_LIM0_C s), (rSLT_LIM1 s, rSLT_LIM1_C s)].foldl (fun a p =>
    let u := a.2.pairUse p.1 p.2
    if u.1 then (a.1, u.2) else (false, u.2.pairFail p.1 p.2)) (true, d)

/-- The temperature in use, in millionths of a degree: the thermistor's where it is in use, else the model's. -/
def Dev.sltTemp (d : Dev) (s : Nat) : Int :=
  if d.flag (fSLT_LIM0_TSNS s) && d.flag (fSLT_STS_TSNS_OK s) then
    let v := d.get (fSLT_MEAS_TEMP s)
    (if v < 1024 then (v : Int) else (v : Int) - 2048) * 250000
  else (d.slt s).model

/-- Whether a command need not wait and passes the checks before its chapter's. -/
def Dev.reaches (d : Dev) (r : CmdRow) (c : Pkt) : Bool := !d.queues c && (d.preCheck r c).1.isNone

/-! ### Commands -/

/-- R409: the refusal of an enable. -/
def Dev.enableBad (d : Dev) (s : Nat) (lims : Bool) : Option (Nat × Nat) :=
  let st := d.sltState s
  let odd1 := d.flag fWIN_CTL_MAP_LOCK && s % 2 == 1 && d.flag (fMCH_CFG_TRAINED (s / 2)) && !d.flag (fMCH_CFG_DPC (s / 2))
  firstBad [(decide (47 < s) || odd1, stInvalidField, 16),
    (st == slDamaged || st == slTripped || !d.flag (fSLT_STS_PRESENT s), stSlotFault, noDetail),
    (!lims, stComplementMismatch, noDetail),
    (decide ((d.get (fSLT_LIM1_TCOOL s) : Int) * 1000000 < d.sltTemp s), stCooling, noDetail)]

/-- A ramp starts (Table 17.3 step 1). -/
def Dev.sltRamp (d : Dev) (s : Nat) : Dev :=
  ((d.setSlt s slRamp).updSlt s (fun x => { x with ramp := 1, fall := 0, spd := none })).bumpSat (fSLT_EVT_ENABLES s) 1

/-- R409: SLOT_ENABLE. -/
def execSlotEnable (c : Pkt) : State → Result :=
  run (fun d =>
    let s := c.at_ 0 1
    let u := if s < 48 && d.reaches rowSlotEnable c then d.sltUse s else (true, d)
    u.2.command rowSlotEnable c (fun d => d.enableBad s u.1) (fun _ d =>
      if d.sltLive s then (.done [] 0, d.cfgSlot s true) else (.done [] 2, (d.sltRamp s).cfgSlot s true)))

/-- R414: what SLOT_DISABLE does in a state. -/
def Dev.sltDisable (d : Dev) (s : Nat) : CmdEnd × Dev :=
  let d := d.cfgSlot s false
  if d.sltState s = slTripped then (.done [] 0, (d.setSlt s slOff).clearBret s)
  else if d.sltLive s then (.done [] 2, ((d.setOut s true).sltFall s 9).clearBret s)
  else (.done [] 0, d)

/-- R414: SLOT_DISABLE. -/
def execSlotDisable (c : Pkt) : State → Result :=
  run (fun d => d.command rowSlotDisable c (fun _ => firstBad [(decide (47 < c.at_ 0 1), stInvalidField, 16)])
    (fun _ d => d.sltDisable (c.at_ 0 1)))

/-- The limit images that SLOT_LIMITS refuses: out of range, in the order of their words. -/
def limitsBad (l0 l1 : Nat) : Option (Nat × Nat) :=
  let ramp := wordField l0 16 5
  let ttrip := wordField l1 16 8
  let tcool := wordField l1 24 8
  firstBad [(wordField l0 0 10 == 0 || wordField l0 10 6 == 0 || ramp == 0 || decide (20 < ramp) || wordField l0 22 8 == 0, stInvalidField, 20),
    (wordField l1 0 8 == 0 || wordField l1 8 8 == 0 || decide (ttrip < tcool + 10) || decide (200 < ttrip) || decide (tcool < 75),
      stInvalidField, 24)]

/-- SLOT_LIMITS: both images with their complements are written. -/
def execSlotLimits (c : Pkt) : State → Result :=
  run (fun d => d.command rowSlotLimits c
    (fun _ => (firstBad [(decide (47 < c.at_ 0 1), stInvalidField, 16)]).or (limitsBad (c.at_ 4 4) (c.at_ 8 4)))
    (fun _ d =>
      let s := c.at_ 0 1
      ((d.wrPair (rSLT_LIM0 s) (rSLT_LIM0_C s) (c.at_ 4 4)).wrPair (rSLT_LIM1 s) (rSLT_LIM1_C s) (c.at_ 8 4)).stored
        [(rSLT_LIM0 s, rSLT_LIM0_C s), (rSLT_LIM1 s, rSLT_LIM1_C s)] (fun d => d.cfgRegs [rSLT_LIM0 s, rSLT_LIM1 s])))

/-! ### Presence (R407, R414) -/

/-- One slot's presence read. -/
def Dev.presence (d : Dev) (s : Nat) (here : Bool) : Dev :=
  if d.flag (fSLT_STS_PRESENT s) = here then d
  else
    let d := ((d.setFlag (fSLT_STS_PRESENT s) here).setBit fSLT_PRESENT_SLOTS s here).bumpSat (fSLT_EVT_PRESENCE s) 1
    let d := if here then d else d.forgetRepairs s true
    let d := d.sltRecord s 1 407
    if !here && d.sltLive s then ((((d.setOut s true).sltFall s 7).clearBret s).sltRecord s 3 7) else d

/-- R407: the SPD hub of every slot is read. -/
def execPresencePoll (present : BitVec 48) : State → Result :=
  run (fun d => (List.range 48).foldl (fun d s => d.presence s (present.getLsbD s)) d)

/-! ### The ramp (Table 17.3) -/

/-- Step 2: the gate-rise check. -/
def execGateRiseCheck (s : SlotId) (ok : Bool) : State → Result :=
  run (fun d => d.when (d.sltState s.val == slRamp && (d.slt s.val).fall == 0) (fun d =>
    if ok then d.updSlt s.val (fun x => { x with ramp := max x.ramp 2 })
    else (d.sltDrop s.val slDamaged 5).sltRecord s.val 3 5))

/-- Step 3: VOUT reaches 10.8 V. -/
def execRampVoutReached (s : SlotId) : State → Result :=
  run (fun d => d.when (d.sltState s.val == slRamp && (d.slt s.val).fall == 0) (fun d => d.updSlt s.val (fun x => { x with ramp := 3 })))

/-- Steps 4 and 5: the gate is fully on, and the slot is ON. -/
def execFullGateOn (s : SlotId) : State → Result :=
  run (fun d => d.when (d.sltState s.val == slRamp && (d.slt s.val).ramp == 3 && (d.slt s.val).fall == 0) (fun d =>
    (d.setSlt s.val slOn).updSlt s.val (fun x => { x with ramp := 0 })))

/-! ### Trips (Table 17.4) -/

/-- R410: 2 × RAMP_MS without full gate-on. -/
def execRampTimeout (s : SlotId) : State → Result :=
  run (fun d => d.when (d.sltState s.val == slRamp && (d.slt s.val).fall == 0) (fun d => d.sltTrip s.val 4))

/-- R410: the comparator sees 3 × ILIM. -/
def execFastTrip (s : SlotId) : State → Result := run (fun d => d.when (d.sltLive s.val) (fun d => d.sltTrip s.val 1))

/-- R410: the current stays above ILIM for BRK_MS. -/
def execBreakerTrip (s : SlotId) : State → Result := run (fun d => d.when (d.sltState s.val == slOn) (fun d => d.sltTrip s.val 2))

/-- R411: one 10 µs step of the model, in millionths of a degree; current in 10 mA, VOUT in 5 mV. -/
def Dev.modelStep (d : Dev) (s cur vout : Nat) : Int :=
  let i : Int := cur
  let rth : Int := d.get (fSLT_LIM1_RTH s)
  let t := (d.slt s).model
  let heat : Int :=
    if d.sltState s = slOn then i * i * (d.get (fSLT_LIM0_RDS s)) * rth / 200
    else if d.sltState s = slRamp then (2640 - (vout : Int)) * i * rth * 25
    else 0
  t + (70000000 + heat - t) / (100 * (d.get (fSLT_LIM1_TAU_MS s)))

/-- A temperature in quarters of a degree as TEMP holds it. -/
def tempField (q : Int) : Nat := (q % 2048).toNat

/-- R411: the thermistor's reading, in quarters of a degree, is used, or falls back to the model. -/
def Dev.thermistor (d : Dev) (s : Nat) (q : Int) : Dev :=
  if d.flag (fSLT_LIM0_TSNS s) then
    if -160 ≤ q ∧ q ≤ 600 then (d.setFlag (fSLT_STS_TSNS_OK s) true).set (fSLT_MEAS_TEMP s) (tempField q)
    else ((d.setFlag (fSLT_STS_TSNS_OK s) false).set (fSLT_MEAS_TEMP s) (tempField ((d.slt s).model / 250000))).sltRecord s 1 10
  else (d.setFlag (fSLT_STS_TSNS_OK s) false).set (fSLT_MEAS_TEMP s) (tempField ((d.slt s).model / 250000))

/-- R411: the model's update, and the MODEL trip. -/
def Dev.fetUpdate (d : Dev) (s cur vout : Nat) (q : Int) : Dev :=
  let u := d.sltUse s
  let d := (u.2.set (fSLT_MEAS_CURRENT s) cur).set (fSLT_MEAS_VOUT s) vout
  if u.1 then
    let t := d.modelStep s cur vout
    let d := (d.updSlt s (fun x => { x with model := t })).thermistor s q
    if d.sltLive s && decide ((d.get (fSLT_LIM1_TTRIP s) : Int) * 1000000 ≤ d.sltTemp s) then d.sltTrip s 3 else d
  else d

/-- R411. -/
def execFetModelUpdate (s : SlotId) (current vout : BitVec 12) (thermistor : Int) : State → Result :=
  run (fun d => d.fetUpdate s.val current.toNat vout.toNat thermistor)

/-- R413: the FET conducts with its gate off. -/
def execFetShort (s : SlotId) : State → Result :=
  run (fun d => d.when (!d.sltLive s.val) (fun d => (d.sltDrop s.val slDamaged 6).sltRecord s.val 3 6))

/-! ### The ordered turn-off (R414) -/

/-- R414: 2 ms after PWREN went low, the gate begins to fall. -/
def execGateFallStart (s : SlotId) : State → Result :=
  run (fun d => d.when ((d.slt s.val).fall == 1) (fun d => d.updSlt s.val (fun x => { x with fall := 2 })))

/-- R414: the fall ends, and the slot is OFF. -/
def execSlotOffComplete (s : SlotId) : State → Result :=
  run (fun d => d.when ((d.slt s.val).fall == 2) (fun d => d.sltDrop s.val slOff (d.slt s.val).fallCause))

/-- R415: every slot that is not OFF, TRIPPED or DAMAGED is off with cause THERMAL; its DIMM, without power, is out of service (DEDUCED, log
entry 39). -/
def Dev.slotsThermal (d : Dev) : Dev :=
  (List.range 48).foldl (fun d s => if d.sltLive s then (d.setOut s true).sltDrop s slOff 8 else d) d

/-! ### Return to service (R132, R416, R417) -/

/-- RANKS of MCHn_CFG. -/
def ranksCode (n : Nat) : Nat := if n = 1 then 0 else if n = 2 then 1 else 2

/-- R132: a DIMM matches what its channel settled at boot. -/
def Dev.matchesChan (d : Dev) (ch : Nat) (x : Spd) : Bool :=
  x.ok && d.get (fMCH_CFG_TYPE ch) == x.mrdimm.toNat && d.get (fMCH_CFG_DENSITY ch) == x.density &&
    d.get (fMCH_CFG_RANKS ch) == ranksCode x.ranks

/-- R132: training of a slot enabled in service ends: the DIMM is trained, or does not match and is powered off. R132 gives the record of
the mismatch no severity; it has U (DESIGN CHOICE, log entry 84). -/
def Dev.slotTrained (d : Dev) (s : Nat) (x : Spd) : Dev :=
  if d.matchesChan (s / 2) x then
    let d := d.updSlt s (fun y => { y with spd := some x })
    (List.range 4).foldl (fun d r => d.updRank (rankKey (s / 2) (s % 2 * 4 + r)) (fun y => { y with trainTemp := none })) d
  else (d.sltFall s 9).raise { src := srcMch (s / 2) 7, sev := 3, code := 132, obj := s }

/-- R132. -/
def execSlotTrainingComplete (s : SlotId) (spd : Spd) : State → Result :=
  run (fun d => d.when (d.slotOut s.val && d.sltState s.val == slOn && (d.slt s.val).fall == 0 && d.mch.trained)
    (fun d => d.slotTrained s.val spd))

/-- The MPA lines lo to hi - 1 that stand on slot s, after redirection. -/
def Dev.linesOn (d : Dev) (s lo hi : Nat) : List Nat :=
  ((List.range (hi - lo)).map (fun i => d.redirect ((lo + i) * 64) / 64)).filter (fun l => d.lineSlot l == s)

/-- MEDIA markers at lines of a slot (Table 17.5). -/
def Acc.mediaMarkers (a : Acc) (ls : List Nat) : Acc := ls.foldl (fun a l => a.store l (markerWord poisonMedia)) a

/-- A cell that has a stored line on slot s. -/
def Dev.cellOn (d : Dev) (s b cls : Nat) : Bool := !(d.linesOn s (b * 8) (b * 8 + cls * 8)).isEmpty

/-- Table 17.5: the contents of a slot that returns: zeros, MEDIA markers, and pages lost with their cells. -/
def Acc.slotContents (a : Acc) (s : Nat) : Acc :=
  let a := ((List.range (a.dev.fitted / 256)).filter (fun g => a.dev.lineSlot (4 * g) == s)).foldl (fun a g => a.zero (4 * g) (4 * g + 4)) a
  let ws := a.dev.windows.filter (fun w => !a.dev.winTiered w && !a.dev.winMirrored w)
  let a := ws.foldl (fun a w => a.mediaMarkers (a.dev.linesOn s (a.dev.winMbase w / 64) ((a.dev.winMbase w + a.dev.winSize w) / 64))) a
  let a := (a.dev.tier.frames.filter (fun e => e.2.1 == roleNear)).foldl (fun a e => a.mediaMarkers (a.dev.linesOn s (e.1 * 64) (e.1 * 64 + 64))) a
  let a := a.dev.sec.allot.foldl (fun a x => a.mediaMarkers (a.dev.linesOn s (x.base * 32768) ((x.base + x.units) * 32768))) a
  (a.dev.tier.cells.filter (fun e => a.dev.cellOn s e.1 e.2.cls)).foldl (fun a e =>
    match a.dev.winOf (e.2.page * 4096) with
    | some w => a.voidPage w e.2.page poisonMedia
    | none => a) a

/-- R270, R417: the slot is in service again, and the rebuild of mirrored windows begins. -/
def Dev.slotBack (d : Dev) (s : Nat) : Dev :=
  let ws := d.windows.filter d.winMirrored
  let l := (d.mir.rebuild.filter (fun r => r.1 != s)) ++ ws.map (fun w => (s, w, 0))
  let d := d.setOut s false
  let d := { d with mir := { d.mir with rebuild := l }, mch := { d.mch with ues := d.mch.ues.filter (fun u => u.1 / 4 != s) } }
  d.setFlag fPAIR_MIR_STS_REBUILD (!l.isEmpty)

/-- R417. -/
def execSlotInitializationDone (s : SlotId) : State → Result :=
  runAcc (fun a => a.when (a.dev.slotOut s.val && a.dev.sltState s.val == slOn && (a.dev.slt s.val).spd.isSome)
    (fun a => (a.slotContents s.val).upd (fun d => d.slotBack s.val)))

end Sys2Proof.Machine
end

