-- ==== Sys2Proof/Machine/Power.lean ====
section
/-! DEFINITION. Power domains, performance levels, sleep and thermal control (16_power_thermal.md R384 to R405). -/

namespace Sys2Proof.Machine

/-! ### Power domains (R384 to R386, R424) -/

/-- A switched domain of Table 16.1 that is needed in S0, or for a change of the window table that waits for it. -/
def Dev.domUsed (d : Dev) (k : Nat) : Bool :=
  if k < 24 then true
  else if k < 32 then (List.range 4).any (fun i => (d.formed (4 * (k - 24) + i)).isSome && !(d.portOf (4 * (k - 24) + i)).perst)
  else if k = 32 then d.flag fPAIR_CTL_EN && d.pin.pairPresent
  else if k < 41 then d.bit fJOB_CTL_SLICE_EN (k - 33) && d.present.testBit (k - 33)
  else if k < 51 then true
  else if k < 55 then d.windows.any d.winTiered || d.win.chg.any (fun c => imKind c.img != 0)
  else d.windows.any d.winShared || d.win.chg.any (fun c => imShared c.img)

/-- A switched domain that is to be on now (Tables 16.1, 16.3); none after a thermal shutdown (R404). -/
def Dev.domWanted (d : Dev) (k : Nat) : Bool :=
  let st := if d.pwr.exiting then 0 else d.get fPWR_SLEEP_STS_STATE
  d.pin.mainUp && !d.pin.thermtrip && (if st = 3 then false else if st = 2 then 24 ≤ k && k < 32 && d.domUsed k else d.domUsed k)

/-- The switched domains that power monitor unit u; none for a unit in CORE (R424). -/
def unitDoms (u : Nat) : List Nat :=
  if u < 8 then [24 + u]
  else if u < 24 then []
  else if u < 30 then (List.range 4).map (4 * (u - 24) + ·)
  else if u < 36 then [45 + (u - 30)]
  else if u < 40 then [41 + (u - 36)]
  else if u = 40 then [51, 52, 53, 54]
  else if u = 41 then [32]
  else if u = 42 then (List.range 8).map (33 + ·)
  else []

/-- CORE has power (R384). -/
def Dev.coreOn (d : Dev) : Bool := d.pin.mainUp && (d.get fPWR_SLEEP_STS_STATE != 3 || d.pwr.exiting)

/-- Monitor unit u is powered. -/
def Dev.unitOn (d : Dev) (u : Nat) : Bool :=
  let ds := unitDoms u
  if ds.isEmpty then d.coreOn else ds.any (fun k => d.bit fPWR_DOM_STS_ON k)

/-- The registers of monitor unit u, but its claim, take their reset values. -/
def Dev.unitReset (d : Dev) (u : Nat) : Dev :=
  { d with csr := tdrop (fun k => 0x1001000 + u * 0x200 ≤ k && k < 0x1001200 + u * 0x200 && k != rPMU_U_CLAIM u) d.csr }

/-- R424: PMU_GSTS.ON follows the power of the units, which reset when they power up. -/
def Dev.pmuPower (d : Dev) : Dev :=
  (List.range 44).foldl (fun d u =>
    let on := d.unitOn u
    if d.bit fPMU_GSTS_ON u = on then d else (if on then d.unitReset u else d).setBit fPMU_GSTS_ON u on) d

/-- A switched domain is on or off. -/
def Dev.setDom (d : Dev) (k : Nat) (on : Bool) : Dev := (d.setBit fPWR_DOM_STS_ON k on).pmuPower

/-- A switched domain has powered up; the pair link that waited for its own may train. -/
def Dev.domUp (d : Dev) (k : Nat) : Dev := if k = 32 then (d.setDom k true).tryTrain else d.setDom k true

/-- R384: a switched domain that is wanted finishes powering up. -/
def execDomainPowerUpDone (dom : Fin 56) : State → Result :=
  run (fun d => d.when (d.domWanted dom.val && !d.bit fPWR_DOM_STS_ON dom.val) (fun d => d.domUp dom.val))

/-- R386: nothing is open across the edge of a switched domain: no job is on the slice, the hot-line or the directory cache is empty. -/
def Dev.domIdle (d : Dev) (k : Nat) : Bool :=
  if 33 ≤ k ∧ k < 41 then !d.job.jobs.any (fun j => j.slice == k - 33 && (j.place == 1 || j.place == 2))
  else if 51 ≤ k ∧ k < 55 then d.tier.hlc.isEmpty
  else k != 55 || (d.home.dcache.isEmpty && d.home.victims.isEmpty)

/-- R386: a switched domain that is not wanted and is idle finishes powering down. -/
def execDomainPowerDownDone (dom : Fin 56) : State → Result :=
  run (fun d => d.when (!d.domWanted dom.val && d.bit fPWR_DOM_STS_ON dom.val && d.domIdle dom.val) (fun d => d.setDom dom.val false))

/-! ### Performance levels (R387 to R389) -/

/-- R389: the sequencer's step ends: a clock switch puts its level in force, a slew its voltage. -/
def Dev.vfStep (d : Dev) : Dev :=
  if d.pwr.vf = 0 then d
  else if d.pwr.vf = 1 then ((d.set fPWR_PSTS_CUR d.pwr.vfTo).pmu 43 0x7A 0 8 1).vfNext
  else { d with pwr := { d.pwr with vdd := voltOf d.pwr.vfTo } }.vfNext

/-- R389. -/
def execVfSequencerStep : State → Result := run Dev.vfStep

/-- PWR_LIMITS: the bounds of firmware's requests; its own request stays within them. -/
def Dev.setLimits (d : Dev) (fast slow deep : Nat) : Dev :=
  let d := ((d.set fPWR_LIMITS_FASTEST fast).set fPWR_LIMITS_SLOWEST slow).set fPWR_LIMITS_DEEPEST deep
  (d.set fPWR_PSTS_FW_REQ (min (max (d.get fPWR_PSTS_FW_REQ) fast) slow)).cfgRegs [rPWR_LIMITS]

/-- R388. -/
def execPwrLimits (c : Pkt) : State → Result :=
  run (fun d => d.command rowPwrLimits c
    (fun _ => firstBad [(decide (3 < c.at_ 0 1), stInvalidField, 16), (decide (3 < c.at_ 1 1), stInvalidField, 17),
      (decide (3 < c.at_ 2 1), stInvalidField, 18), (decide (c.at_ 1 1 < c.at_ 0 1), stInvalidField, 16)])
    (fun _ d => (.done [] 0, d.setLimits (c.at_ 0 1) (c.at_ 1 1) (c.at_ 2 1))))

/-! ### Throttle (R400 to R403) -/

/-- A thermal stage applies: its P-level request and CAP_PM, with an event (R402, R403). -/
def Dev.setStage (d : Dev) (k : Nat) : Dev :=
  if d.get fTHM_STS_STAGE = k then d
  else
    let d := (d.set fTHM_STS_STAGE k).set fPWR_PSTS_THERM_REQ (if k = 0 then 0 else d.get (fTHM_STAGE_PLEVEL k))
    let d := d.set fQOS_THERM_CAP_PM (if k = 0 then 1000 else max 100 (d.get (fTHM_STAGE_CAP_PM k)))
    d.raise { src := src 37 3, sev := 1, code := 403, obj := k }

/-- R401, R403: the throttle condition follows TMAX and the DIMMs: it opens the DevLoad phase at stage 0, and lowers a higher stage
at once. -/
def Dev.evalThrot (d : Dev) : Dev :=
  let now := d.pwr.throt || d.flag fTHM_STS_DIMM_HOT
  let was := d.flag fTHM_STS_THROT
  let d := d.setFlag fTHM_STS_THROT now
  if now && !was then
    if d.get fTHM_STS_STAGE = 0 then d.setFlag fTHM_STS_DEVLOAD true else d.setStage (min 3 (d.get fTHM_STS_STAGE + 1))
  else if was && !now then d.setFlag fTHM_STS_DEVLOAD false
  else d

/-- R403 step 2: the DevLoad phase ends, the thermal floor is cleared on every port (R322), and stage 1 applies, unless failed sensors hold
stage 2 by then (R399). -/
def execGraceExpiry : State → Result :=
  run (fun d => d.when (d.flag fTHM_STS_DEVLOAD && d.flag fTHM_STS_THROT) (fun d =>
    (heads.foldl (fun (d : Dev) p => d.setFlag (fPDV_DEVLOAD_FLOOR_THERM p) false) (d.setFlag fTHM_STS_DEVLOAD false)).setStage (max 1 (d.get fTHM_STS_STAGE))))

/-- R403 step 3. -/
def execThermalStepDown : State → Result :=
  run (fun d => d.when (d.flag fTHM_STS_THROT && d.get fTHM_STS_STAGE != 0) (fun d => d.setStage (min 3 (d.get fTHM_STS_STAGE + 1))))

/-- R403 step 4; eight failed sensors hold stage 2 (R399). -/
def execThermalStepUp : State → Result :=
  run (fun d => d.when (!d.flag fTHM_STS_THROT && d.get fTHM_STS_STAGE != 0 && !(d.pwr.hold2 && d.get fTHM_STS_STAGE == 2))
    (fun d => d.setStage (d.get fTHM_STS_STAGE - 1)))

/-! ### Sensors (R398 to R400, R404) -/

/-- A reading in quarters of a degree that a field of 11 bits holds. -/
def quarters (v : Nat) : Int := if v < 1024 then (v : Int) else (v : Int) - 2048

/-- The two nearest neighbours of sensor k (log entry 27). -/
def nearSensors (k : Nat) : Nat × Nat := if k = 0 then (1, 2) else if k = 31 then (30, 29) else (k - 1, k + 1)

/-- R399: reading k of a list fails. -/
def sensorBad (l : List Int) (k : Nat) : Bool :=
  let v := l.getD k 0
  let off := fun (i : Nat) => decide (80 < (v - l.getD i 0).natAbs)
  decide (v < -160) || decide (600 < v) || (off (nearSensors k).1 && off (nearSensors k).2)

/-- Sensors marked failed. -/
def Dev.failedN (d : Dev) : Nat := ((List.range 32).filter (fun k => d.flag (fTHM_SENS_FAILED k))).length

/-- R399: one sensor's reading. -/
def Dev.sensor (d : Dev) (l : List Int) (k : Nat) : Dev :=
  let d := d.set (fTHM_SENS_TEMP k) (tempField (l.getD k 0))
  if sensorBad l k && !d.flag (fTHM_SENS_FAILED k) then
    (d.setFlag (fTHM_SENS_FAILED k) true).raise { src := src 37 0, sev := 3, code := 399, obj := k }
  else d

/-- A condition of R400: set at X, cleared below X - HYST, else as it was. -/
def condOf (was : Bool) (t : Int) (x h : Nat) : Bool :=
  if 4 * (x : Int) ≤ t then true else if t < 4 * ((x : Int) - (h : Int)) then false else was

/-- R404, Table 16.10. -/
def Dev.thermalShutdown (d : Dev) : Dev :=
  let d := { d with pin := { d.pin with thermtrip := true } }
  let rec_ := [d.now, d.get fTHM_STS_HOT, d.get fTHM_STS_TMAX, d.get fTHM_STS_STAGE, d.get fPWR_PSTS_CUR, d.flash.coldBoots,
               (d.flag fTHM_STS_DIMM_HOT).toNat]
  let d := { d with pwr := { d.pwr with shutRec := some rec_, shutCounted := false } }.setFlag fTHM_LEDGER_PENDING true
  let d := d.raise { src := src 37 5, sev := 4, code := 404, obj := d.get fTHM_STS_HOT }
  let d := if d.get fPWR_SLEEP_STS_STATE = 0 then { d with flt := { d.flt with escFatal := true } } else d
  (d.slotsThermal.set fPWR_DOM_STS_ON 0).pmuPower

/-- R400, R401, R404: the conditions follow TMAX; a failed pair of thresholds is recorded and not acted on. -/
def Dev.evalConds (d : Dev) : Dev :=
  let u := d.pairUse rTHM_THRESH rTHM_THRESH_C
  if !u.1 then u.2.pairFail rTHM_THRESH rTHM_THRESH_C
  else
    let d := u.2
    let t := quarters (d.get fTHM_STS_TMAX)
    let h := d.get fTHM_THRESH_HYST
    let warn := condOf (d.flag fTHM_STS_WARN) t (d.get fTHM_THRESH_WARN) h
    let shut := condOf d.pwr.shutdown t (d.get fTHM_THRESH_SHUTDOWN) h
    let d := if warn && !d.flag fTHM_STS_WARN then (d.raise { src := src 37 2, sev := 1, code := 400 }).emit .mgmtInt else d
    let d := d.setFlag fTHM_STS_WARN warn
    let d := { d with pwr := { d.pwr with throt := condOf d.pwr.throt t (d.get fTHM_THRESH_THROTTLE) h } }.evalThrot
    let near := [d.get fTHM_THRESH_WARN, d.get fTHM_THRESH_THROTTLE, d.get fTHM_THRESH_SHUTDOWN].any (fun x => decide ((t - 4 * (x : Int)).natAbs ≤ 24))
    let d := d.setFlag fTHM_STS_FAST near
    let was := d.pwr.shutdown
    let d := { d with pwr := { d.pwr with shutdown := shut } }
    if shut && !was then d.thermalShutdown else d

/-- R398, R399: the sensors are sampled, failures leave TMAX, and the conditions follow. -/
def Dev.sample (d : Dev) (l : List Int) : Dev :=
  let d := (List.range 32).foldl (fun d k => d.sensor l k) d
  let n := d.failedN
  let d := if 8 ≤ n && !d.pwr.hold2 then
      let d := { d with pwr := { d.pwr with hold2 := true } }.raise { src := src 37 1, sev := 4, code := 399, obj := n }
      if d.get fTHM_STS_STAGE < 2 then d.setStage 2 else d
    else d
  let ok := (List.range 32).filter (fun k => !d.flag (fTHM_SENS_FAILED k))
  let d := d.set fTHM_STS_VALID ok.length
  match ok with
  | [] => d
  | k :: t =>
    let hot := t.foldl (fun b i => if l.getD b 0 < l.getD i 0 then i else b) k
    ((d.set fTHM_STS_TMAX (tempField (l.getD hot 0))).set fTHM_STS_HOT hot).evalConds

/-- R398. -/
def execSensorSample (quarters : List Int) : State → Result := run (fun d => d.sample quarters)

/-- R400: THM_THRESH_SET: the thresholds with their complement, and GRACE_US; the conditions follow. -/
def execThmThreshSet (c : Pkt) : State → Result :=
  run (fun d => d.command rowThmThresh c
    (fun _ =>
      let w := c.at_ 0 1
      let t := c.at_ 1 1
      let s := c.at_ 2 1
      let h := c.at_ 3 1
      let g := c.at_ 8 2
      firstBad [(decide (w < 50), stInvalidField, 16),
        (decide (t ≤ w) || decide (110 < t) || decide (t < w + h + 2), stInvalidField, 17),
        (decide (s ≤ t) || decide (118 < s) || decide (s < t + h + 2), stInvalidField, 18),
        (h == 0 || decide (8 < h), stInvalidField, 19), (decide (g < 10) || decide (10000 < g), stInvalidField, 24)])
    (fun _ d =>
      (d.wrPair rTHM_THRESH rTHM_THRESH_C (c.at_ 0 4 % 2 ^ 28)).stored [(rTHM_THRESH, rTHM_THRESH_C)]
        (fun d => ((d.set fTHM_CTL_GRACE_US (c.at_ 8 2)).cfgRegs [rTHM_THRESH, rTHM_CTL]).evalConds)))

/-! ### Sleep (R391 to R397) -/

/-- R251, R276: before S2 or S3 the partner is asked, unless a window is COPY or INSYNC. -/
def Dev.askPartner (d : Dev) (st : Nat) : Dev :=
  if 2 ≤ st && d.linkUp && !d.pair.sleepReq && !(List.range 256).any d.mirLive then
    let d := d.pairPush 2 (pmsg 0x24 [])
    { d with pair := { d.pair with sleepReq := true } }
  else d

/-- R392: a request for a sleep state; an older one that waits lapses. -/
def Dev.wantSleep (d : Dev) (st : Nat) (bg : Option Nat) : Dev :=
  let d := match d.pwr.sleepReq with
    | some (_, o) => d.bgDoneOpt o stSleepBlocked noDetail []
    | none => d
  { d with pwr := { d.pwr with sleepReq := some (st, bg) } }.askPartner st

/-- R392: PWR_SLEEP; a check-only packet learns whether a condition for the entry does not hold now (DESIGN CHOICE, log entry 121). -/
def execPwrSleep (c : Pkt) : State → Result :=
  run (fun d => d.command rowPwrSleep c
    (fun d =>
      let st := c.at_ 0 1
      firstBad [(st == 0 || decide (3 < st), stInvalidField, 16),
        (c.flags.toNat == 1 && d.sleepBlock st != 0, stSleepBlocked, noDetail)])
    (fun i d => (.runs [c.at_ 0 1], d.wantSleep (c.at_ 0 1) (some i))))

/-- R392: the conditions have not held within 1 ms. A SLEEP_REQ that has been sent is still answered (R251). -/
def Dev.sleepLapse (d : Dev) : Dev :=
  match d.pwr.sleepReq with
  | some (st, bg) =>
    let d := d.set fPWR_SLEEP_STS_BLOCK (d.sleepBlock st)
    let queued := (d.txq 2).any (fun m => m.mtype == 0x24)
    let d := (d.setTxq 2 ((d.txq 2).filter (fun m => m.mtype != 0x24)))
    let d := { d with pwr := { d.pwr with sleepReq := none }, pair := { d.pair with sleepReq := d.pair.sleepReq && !queued } }
    d.bgDoneOpt bg stSleepBlocked noDetail []
  | none => d

/-- R392. -/
def execSleepRequestLapse : State → Result := run Dev.sleepLapse

/-- Every write that has joined a subchannel's queues is stored (a conditional write that is stale is not), and their reads of the
scrubber are given up. -/
def Acc.drainDram (a : Acc) : Acc :=
  let rs := a.dev.mch.sub.flatMap (fun e => e.2.wq ++ e.2.mq.filter (fun r => r.wr.isSome && !r.stale))
  let a := rs.foldl (fun a r =>
    match r.wr with
    | some cw =>
      match r.purp with
      | .line dl => (a.wrRaw r.mpa cw).upd (fun d => d.bufDone dl)
      | .access => a
      | _ => a.wrRaw r.mpa cw
    | none => a) a
  let ks := tkeys a.dev.mch.sub
  a.upd (fun d =>
    let d := { d with mch := { d.mch with scrubBusy := false,
                                          sub := d.mch.sub.map (fun e => (e.1, { e.2 with wq := [], mq := [], issued := e.2.issued.filter (fun r => r.source != 6) })) } }
    ks.foldl (fun d k => d.subStats (k / 2) (k % 2)) d)

/-! #### The root spill (R191, R192) -/

/-- The first line of the root spill area. -/
def Dev.spillBase (d : Dev) : Nat := d.metaHi * 32768

/-- Byte k of the spill image: 524,288 root counters of 7 bytes, then MHW and CHW of each range (log entry 28). -/
def Dev.spillByte (d : Dev) (k : Nat) : Nat :=
  if k < 3670016 then tget (fun _ => 0) d.sec.roots (k / 7) / 256 ^ (k % 7) % 256
  else
    let n := (k - 3670016) / 15
    let i := (k - 3670016) % 15
    if 16 ≤ n then 0
    else if i < 8 then d.get (fSEC_KR_MHW_MHW n) / 256 ^ i % 256 else d.get (fSEC_KR_CHW_CHW n) / 256 ^ (i - 8) % 256

/-- Lines of the image. -/
def spillCount : Nat := 57348

/-- Line j of the image. -/
def Dev.spillLine (d : Dev) (j : Nat) : Nat := ofBytes ((List.range 64).map (fun i => d.spillByte (64 * j + i)))

/-- The CMAC of an image given by its lines. -/
def Dev.spillMacOf (d : Dev) (line : Nat → Nat) : Nat :=
  leftBytes 16 (cmac (toBytes 32 d.sec.spillKey) ((List.range spillCount).flatMap (fun j => toBytes 64 (line j))))

/-- The root spill is written, and its CMAC kept in the crock. -/
def Acc.spillRoots (a : Acc) : Acc :=
  let mac := a.dev.spillMacOf a.dev.spillLine
  let b := a.dev.spillBase
  let a := (List.range spillCount).foldl (fun a j => a.wrData (a.dev.redirect (64 * (b + j)) / 64) (a.dev.spillLine j)) a
  a.upd (fun d => { d with pwr := { d.pwr with spillMac := mac } })

/-- A byte of an image given by its lines, and n bytes from byte k as a number. -/
def imageByte (line : Nat → Nat) (k : Nat) : Nat := line (k / 64) / 256 ^ (k % 64) % 256
def imageWord (line : Nat → Nat) (k n : Nat) : Nat := ofBytes ((List.range n).map (fun i => imageByte line (k + i)))

/-- R192: the root store, MHW and CHW take what an image holds. -/
def Dev.restoreRoots (d : Dev) (line : Nat → Nat) : Dev :=
  let roots := (List.range 524288).filterMap (fun i => let v := imageWord line (7 * i) 7; if v = 0 then none else some (i, v))
  (List.range 16).foldl (fun (d : Dev) n =>
    (d.set (fSEC_KR_MHW_MHW n) (imageWord line (3670016 + 15 * n) 8)).set (fSEC_KR_CHW_CHW n) (imageWord line (3670024 + 15 * n) 7))
    { d with sec := { d.sec with roots := roots } }

/-- R192: the root spill is read and checked, and the root store restored from it. A mismatch is the security halt. -/
def Acc.spillCheck (a : Acc) : Acc :=
  let b := a.dev.spillBase
  let data := fun (j : Nat) => match a.rdRaw (a.dev.redirect (64 * (b + j)) / 64) with
    | .clean v => v
    | .corrected v _ _ _ _ => v
    | _ => 2 ^ 512
  if (List.range spillCount).any (fun j => data j == 2 ^ 512) || a.dev.spillMacOf data != a.dev.pwr.spillMac then
    a.upd (fun d => d.haltNow 5 0 6 (64 * b) true)
  else a.upd (fun d => d.restoreRoots data)

/-- R191: the key slots are copied to the crock, and the SEC domains lose them; in S3 also the root store. -/
def Dev.keysAway (d : Dev) (st : Nat) : Dev :=
  { d with sec := { d.sec with crockKeys := d.sec.keys, keys := [], away := true, roots := if st = 3 then [] else d.sec.roots } }

/-- R192: the keys are restored from the crock, and its copies are cleared; a key that was loaded meanwhile stands (R159). -/
def Dev.keysBack (d : Dev) : Dev :=
  let keys := d.sec.keys.foldl (fun t e => tins t e.1 e.2) d.sec.crockKeys
  { d with sec := { d.sec with keys := if d.halted then [] else keys, crockKeys := [], away := false } }

/-! #### Entry -/

/-- R437: entry to S3 empties every ring. -/
def Dev.ringsClear (d : Dev) : Dev :=
  (List.range 8).foldl (fun d n => ((d.set (fRING_PTR_WR n) 0).set (fRING_PTR_RD n) 0).set (fRING_PTR_OCC n) 0) { d with rings := [] }

/-- Steps 3 to 5 of Table 16.5: what the domains that lose power hold is written back, and the keys are copied to the crock. Dirty nodes of
a range whose key is lost cannot be written, and stay (R187). -/
def Acc.sleepFlush (a : Acc) (st : Nat) : Acc :=
  let a := a.flushHlc.flushDir
  let a := (a.drainDram).flushNodes.flushMeta 0
  let a := if st = 3 then (a.flushMeta 1).spillRoots else a
  a.upd (fun d =>
    { d with home := { d.home with dcache := [], plru := [] }, tier := { d.tier with hlc := [], plru := [] }
             sec := { d.sec with nodes := d.sec.nodes.filter (fun e => e.2.dirty), mlines := if st = 3 then [] else d.sec.mlines.filter (fun e => e.2.kind != 0) } }.keysAway st)

/-- Steps 3 to 7 of Table 16.5: the entry commits; a level wake that is active then starts the exit. -/
def Acc.sleepCommit (a : Acc) : Acc :=
  match a.dev.pwr.entering with
  | some (st, _) =>
    (a.sleepFlush st).upd (fun d =>
      let d := { d with pwr := { d.pwr with entering := none } }.set fPWR_SLEEP_STS_STATE st
      let d := (d.bumpSat (if st = 2 then fPWR_ENTRIES_S2 else fPWR_ENTRIES_S3) 1).emit (.ddr 9 0 0 [])
      let d := if st = 3 then
          let d := { d with pin := { d.pin with mainEn := false, mainOk := false, mainUp := false } }.ringsClear
          d.pmuPower
        else d
      if d.pwr.timerWake then d.beginExit 6
      else if st = 2 && heads.any (fun p => (d.portOf p).up && !(d.portOf p).inL1) then d.beginExit 1 else d)
  | none => a

/-- R393. -/
def execSleepEntryFlushDone : State → Result := runAcc Acc.sleepCommit

/-! #### Wake -/

/-- R394. -/
def execWakeEvent (src : BitVec 4) : State → Result := runAcc (fun a => a.wake src.toNat)

/-- R394: the management timer reaches zero: a level wake that holds, or one pulse. -/
def Acc.timerDone (a : Acc) : Acc :=
  let level := !a.dev.flag fPWR_WAKE_CTL_TIMER_MODE
  let a := a.upd (fun d => { (d.set fPWR_TIMER_MS 0) with pwr := { (d.set fPWR_TIMER_MS 0).pwr with timerWake := level } })
  a.wake (if level then 6 else 7)

/-- R394. -/
def execPwrTimerExpiry : State → Result := runAcc (fun a => a.when (a.dev.get fPWR_TIMER_MS != 0) Acc.timerDone)

/-- R392: a host link enters L1. -/
def execLinkL1Entry (p : Head) : State → Result :=
  run (fun d => d.when (d.portOf p.toNat).up (fun d => d.updPort p.toNat (fun s => { s with inL1 := true })))

end Sys2Proof.Machine
end

