-- ==== Sys2Proof/Machine/Train.lean ====
section
/-! DEFINITION. The DIMM population, training and retraining, refresh, and initialization (05_dram_scheduling.md R112 to R114, R127 to
R133; 06_memory_protection.md R143). -/

namespace Sys2Proof.Machine

/-! ### The population (R113, R114) -/

/-- The DIMM that a slot gives to the population: one that is read in a slot that is ON (log entry 29). -/
def Dev.dimmAt (d : Dev) (spd : List (Option Spd)) (s : Nat) : Option Spd := if d.sltState s = slOn then (spd.getD s none) else none

/-- R113: a slot holds a DIMM that conforms. -/
def dimmOk (l : List (Option Spd)) (s : Nat) : Bool :=
  match l.getD s none, refDimm l with
  | some x, some r => x.rated && x.like r
  | _, _ => false

/-- The population in force, with what it makes of every channel's MCHn_CFG and of QOS_CAP. -/
def Dev.setPop (d : Dev) (l : List (Option Spd)) (two : Bool) : Dev :=
  let d := { d with mch := { d.mch with pop := l } }.set fQOS_CAP_RATED (ratedCap (popRate l two))
  match refDimm l with
  | some r => (List.range 24).foldl (fun d n =>
      (((d.setFlag (fMCH_CFG_TYPE n) r.mrdimm).setFlag (fMCH_CFG_DPC n) two).set (fMCH_CFG_RANKS n) (ranksCode r.ranks)).setFlag
        (fMCH_CFG_DENSITY n) (r.density == 1)) d
  | none => d

/-- R114: the population is settled at 2DPC, at 1DPC, or not at all. -/
def Dev.settlePop (d : Dev) (spd : List (Option Spd)) : Dev :=
  let l := (List.range 48).map (d.dimmAt spd)
  let one := l.mapIdx (fun s x => if s % 2 = 0 then x else none)
  if (List.range 48).all (dimmOk l) then (d.set fMCH_POP_STS_RESULT 1).setPop l true
  else if (List.range 24).all (fun c => dimmOk one (2 * c)) then
    let d := (d.set fMCH_POP_STS_RESULT 2).setPop one false
    if (List.range 24).all (fun c => (l.getD (2 * c + 1) none).isNone) then d
    else
      let bad := ((List.range 48).find? (fun s => !dimmOk l s)).getD 0
      let d := (List.range 24).foldl (fun d c => if d.sltLive (2 * c + 1) then d.sltFall (2 * c + 1) 9 else d) d
      ((d.setFlag fMCH_POP_STS_FALLBACK true).set fMCH_POP_STS_SLOT bad).raise { src := src 8 2, sev := 1, code := 114, obj := bad }
  else
    let bad := 2 * ((List.range 24).find? (fun c => !dimmOk one (2 * c))).getD 0
    ((d.set fMCH_POP_STS_RESULT 3).set fMCH_POP_STS_SLOT bad).raise { src := src 8 2, sev := 3, code := 114, obj := bad }

/-- R114. -/
def execPopulationSettle (spd : List (Option Spd)) : State → Result :=
  run (fun d => d.when (d.fwUp && d.get fMCH_POP_STS_RESULT == 0) (fun d => d.settlePop spd))

/-! ### Locations and lines -/

/-- A rank of a channel is fitted and its slot ON. -/
def Dev.rankHere (d : Dev) (ch r : Nat) : Bool :=
  d.mch.trained && (match d.mch.pop.getD (2 * ch + r / 4) none with
    | some x => decide (r % 4 < x.ranks)
    | none => false) && d.sltState (2 * ch + r / 4) == slOn

/-- DRAM runs: not in self-refresh. -/
def Dev.dramOn (d : Dev) : Bool := decide (d.get fPWR_SLEEP_STS_STATE < 2) && d.mch.trained

/-- R82 inverted: the address bit of row k that drives value v, given the row bits of the address. -/
def Dev.unhash (d : Dev) (k v a : Nat) : Nat :=
  let m := d.mask k
  (if m = 0 then v else (v + parityOf 48 (a &&& m)) % 2) * 2 ^ (13 + k)

/-- R80 to R82 inverted: the MPA of a location. -/
def Dev.mpaOf (d : Dev) (x : Loc) : Nat :=
  let rb := d.get fWIN_GEOM_RANKB
  let db := d.get fWIN_GEOM_DIMMB
  let hi := x.col * 64 + x.rank * 2 ^ 19 + x.dimm * 2 ^ (19 + rb) + x.row * 2 ^ (19 + rb + db)
  let a := hi + d.unhash 0 x.sub hi + d.unhash 1 (x.bg % 2) hi + d.unhash 2 (x.bg / 2 % 2) hi + d.unhash 3 (x.bg / 4 % 2) hi +
    d.unhash 4 (x.bank % 2) hi + d.unhash 5 (x.bank / 2 % 2) hi
  let q := a / 256 * 8 + Nat.xor (x.chan % 8) (foldQ 12 (a / 256))
  (q * 3 + x.chan / 8) * 256 + a % 256

/-- The 128 lines of a row: channel, subchannel, rank of the channel, bank group, bank, row. -/
def Dev.rowLines (d : Dev) (ch sub rank bg bank row : Nat) : List Nat :=
  (List.range 128).map (fun c => d.mpaOf ⟨ch, sub, rank / 4, rank % 4, bg, bank, row, c⟩ / 64)

/-- What a line holds after a scrubbing read: itself, the corrected line, or a MEDIA marker (R140). -/
def Acc.mended (a : Acc) (l : Nat) : Codeword × Acc :=
  match a.rdRaw l with
  | .corrected _ _ _ _ _ =>
    match a.rdStored l 6 none with
    | (.inl v, a) => (rsEncode v, a)
    | (.inr r, a) => (markerWord r, a)
  | .bad => (markerWord poisonMedia, (a.rdStored l 6 none).2)
  | _ => (a.line l, a)

/-! ### Training (R129, R149, R152) -/

/-- A BANK_RETIRE entry: channel, subchannel, rank, bank group, bank, ALL, device. -/
def Dev.putBret (d : Dev) (k : Nat) (b : List Nat) : Dev :=
  let n := b.getD 0 0
  d.wr (rMCH_BRET n k) (1 + b.getD 1 0 * 2 + b.getD 2 0 * 4 + b.getD 3 0 * 32 + b.getD 4 0 * 256 + b.getD 5 0 * 1024 + b.getD 6 0 * 2048)

/-- The first free BANK_RETIRE entry of a channel. -/
def Dev.bretFree (d : Dev) (n : Nat) : Option Nat := (List.range 8).find? (fun k => !d.flag (fMCH_BRET_VALID n k))

/-- R149: the retirements that firmware keeps in flash are in force again. -/
def Dev.reapply (d : Dev) : Dev :=
  let red : Tbl Nat := d.flash.retire.foldl (fun (t : Tbl Nat) (e : Nat × Nat) => tins t e.1 e.2) []
  let d := { d with mch := { d.mch with redirect := red, spares := (d.flash.retire.map Prod.snd).eraseDups } }.retStats
  d.flash.banks.foldl (fun (d : Dev) (b : List Nat) => match d.bretFree (b.getD 0 0) with
    | some k => d.putBret k b
    | none => d) d

/-- R152: a pending hard repair is applied; at a WARM boot the row's lines are held and written back. -/
def Acc.hardRepair (a : Acc) (warm : Bool) (r : List Nat) : Acc :=
  let at_ := fun (i : Nat) => r.getD i 0
  let a := if warm then
      (a.dev.rowLines (at_ 0) (at_ 1) (at_ 2) (at_ 3) (at_ 4) (at_ 6)).foldl (fun a l =>
        let m := a.mended l
        m.2.wrRaw l m.1) a
    else a
  a.upd (fun d => (d.emit (.ddr 8 (at_ 0) (at_ 1) r)))

/-- R152: every listed repair is applied, and the list cleared. -/
def Acc.hardRepairs (a : Acc) (warm : Bool) : Acc :=
  let a := a.dev.flash.hardRepair.foldl (fun a r => a.hardRepair warm r) a
  a.upd (fun d => { d with flash := { d.flash with hardRepair := [] }
                           mch := { d.mch with pprUsed := d.mch.pprUsed ++ d.flash.hardRepair.map (· ++ [1]) } })

/-- Table 3.6: the reference mask of row k. -/
def refMask (rowbase k : Nat) : Nat := 2 ^ (13 + k) + 2 ^ (rowbase + k) + 2 ^ (rowbase + 6 + k)

/-- R83: firmware programs the geometry and the hash masks after training, before the map is locked (log entry 24). -/
def Dev.programMap (d : Dev) : Dev :=
  if d.flag fWIN_CTL_MAP_LOCK then d
  else
    match refDimm d.mch.pop with
    | some r =>
      let rb := ranksCode r.ranks
      let db := (d.get fMCH_POP_STS_RESULT == 1).toNat
      let rowb := 16 + r.density
      let d := (((((d.set fWIN_GEOM_DENSITY r.density).set fWIN_GEOM_RANKB rb).set fWIN_GEOM_DIMMB db).set fWIN_GEOM_ROWB rowb).set
        fWIN_GEOM_AWIDTH (19 + rb + db + rowb))
      (List.range 6).foldl (fun d k =>
        let m := refMask (19 + rb + db) k
        (d.set (fWIN_BANKHASH_LO_MASK_LO k) (m % 2 ^ 32)).set (fWIN_BANKHASH_HI_MASK_HI k) (m / 2 ^ 32)) d
    | none => d

/-- R144: MCH_SCRUB_RATE: fitted bytes over the pass period, within 0.1 GB/s and the ceiling; in whole MB/s, rounded down (DESIGN CHOICE, log
entry 106). -/
def Dev.scrubRate (d : Dev) : Dev :=
  let p := d.get fMCH_SCRUB_CTL_PERIOD_H
  let c := d.get fMCH_SCRUB_CTL_RATE_CAP
  let cap := if c = 0 ∨ 200 < c then 200 else c
  let mb := d.fitted / ((if p = 0 then 255 else p) * 3600 * 1000000)
  d.set fMCH_SCRUB_RATE_MBPS (if d.flag fMCH_SCRUB_CTL_EN then min (max mb 100) (cap * 100) else 0)

/-- R129: every channel is trained; the map, the retirements and the listed repairs take effect. -/
def Acc.trained (a : Acc) : Acc :=
  let warm := a.dev.mgt.bootKind == 1
  let a := if warm then a else a.hardRepairs false
  let two := a.dev.get fMCH_POP_STS_RESULT == 1
  let rate := popRate a.dev.mch.pop two
  let a := a.upd (fun d =>
    let d := (List.range 24).foldl (fun d n => (d.set (fMCH_CFG_RATE n) rate).setFlag (fMCH_CFG_TRAINED n) true) d
    { d with mch := { d.mch with trained := true, rank := [] } }.programMap.reapply.scrubRate)
  if warm then a.hardRepairs true else a

/-- R129. -/
def execTrainingComplete : State → Result :=
  runAcc (fun a => a.when (!a.dev.mch.trained && (a.dev.get fMCH_POP_STS_RESULT == 1 || a.dev.get fMCH_POP_STS_RESULT == 2)) Acc.trained)

/-- R143: every fitted line holds the all-zero codeword. -/
def execInitializationComplete : State → Result :=
  runAcc (fun a => a.when (a.dev.mch.trained && !a.dev.mch.initDone && a.dev.mgt.bootKind == 0) (fun a =>
    (a.zero 0 (a.dev.fitted / 64)).upd (fun d =>
      { d with mch := { d.mch with initDone := true }, pin := { d.pin with initSince := true } })))

/-! ### Refresh (R127, R128) -/

/-- Requests for a rank wait at a subchannel. -/
def Dev.rankWaits (d : Dev) (k r : Nat) : Bool :=
  let s := d.subOf k
  (s.rq ++ s.wq ++ s.mq).any (fun q => (d.locOf (64 * q.mpa)).chRank == r)

/-- POSTPONE as it acts. -/
def Dev.postpone (d : Dev) (ch : Nat) : Nat := min (d.get (fMCH_REF_POSTPONE ch)) 4

/-- Refresh commands of one interval: four REFsb, or one REFab. -/
def Dev.refCmds (d : Dev) (ch : Nat) : Nat := if d.get (fMCH_REF_MODE ch) = 1 then 1 else 4

/-- Rank r of subchannel k: a count by rank. -/
def cnt (t : Tbl Nat) (r : Nat) : Nat := tget (fun _ => 0) t r
def setCnt (t : Tbl Nat) (r v : Nat) : Tbl Nat := tset (fun _ => 0) t r v

/-- A refresh command closes its banks and issues: REFsb of a bank index in every bank group, or REFab. -/
def Dev.refreshOne (d : Dev) (ch sub r idx : Nat) : Dev :=
  let all := d.get (fMCH_REF_MODE ch) == 1
  let d := d.updSub (subKey ch sub) (fun s => { s with rows := s.rows.filter (fun e => !(e.1 / 32 == r && (all || e.1 % 4 == idx))) })
  (d.emit (.ddr (if all then 3 else 2) ch sub [r, idx])).pmuMch ch sub 0x38

/-- Every refresh command of n intervals. -/
def Dev.refreshNow (d : Dev) (ch sub r n : Nat) : Dev :=
  (List.range (n * d.refCmds ch)).foldl (fun d i => d.refreshOne ch sub r (i % 4)) d

/-- R127: an interval of rank r ends at one subchannel: postponed, forced, or issued with those postponed. -/
def Dev.refreshDue (d : Dev) (ch sub r : Nat) : Dev :=
  let k := subKey ch sub
  let p := cnt (d.subOf k).post r
  if d.rankWaits k r then
    if p < d.postpone ch then d.updSub k (fun s => { s with post := setCnt s.post r (p + 1) })
    else
      let n := d.refCmds ch
      d.updSub k (fun s => { s with forced := setCnt s.forced r (cnt s.forced r + n) })
  else (d.updSub k (fun s => { s with post := setCnt s.post r 0 })).refreshNow ch sub r (p + 1)

/-- R127. -/
def execRefreshInterval (ch : Chan) (rank : BitVec 3) : State → Result :=
  run (fun d => d.when (d.dramOn && d.rankHere ch.val rank.toNat)
    (fun d => (d.refreshDue ch.val 0 rank.toNat).refreshDue ch.val 1 rank.toNat))

/-- REFX of a rank. -/
def Dev.setRefx (d : Dev) (ch r v : Nat) : Dev := d.set (fMCH_STS_REFX ch) (wordPut (d.get (fMCH_STS_REFX ch)) (2 * r) 2 v)

/-- R128, R401: MR4 of a rank is read. -/
def Dev.mr4 (d : Dev) (ch r : Nat) (code : Mr4) : Dev :=
  let rk := rankKey ch r
  let d := d.emit (.ddr 4 ch 0 [r])
  let d := match code with
    | .x1 => (d.setRefx ch r 0).updRank rk (fun x => { x with calm := x.calm + 1 })
    | .x2 => (d.setRefx ch r 1).updRank rk (fun x => { x with calm := x.calm + 1 })
    | .over => ((d.setRefx ch r 2).updRank rk (fun x => { x with hot := true, calm := 0 })).raise
        { src := srcMch ch 6, sev := 3, code := 128, obj := r }
  let d := if 2 ≤ (d.rankOf rk).calm then d.updRank rk (fun x => { x with hot := false }) else d
  (d.setFlag fTHM_STS_DIMM_HOT (d.mch.rank.any (fun e => e.2.hot))).evalThrot

/-- R128. -/
def execMr4Read (ch : Chan) (rank : BitVec 3) (code : Mr4) : State → Result :=
  run (fun d => d.when (d.dramOn && d.rankHere ch.val rank.toNat) (fun d => d.mr4 ch.val rank.toNat code))

/-! ### Maintenance and retraining (R130, R131) -/

/-- R130. -/
def execZqCalibration (ch : Chan) (rank : BitVec 3) : State → Result :=
  run (fun d => d.when (d.dramOn && d.rankHere ch.val rank.toNat) (fun d => d.emit (.ddr 5 ch.val 0 [rank.toNat])))

/-- R130. -/
def execDqsOscillatorTracking (ch : Chan) (rank : BitVec 3) : State → Result :=
  run (fun d => d.when (d.dramOn && d.rankHere ch.val rank.toNat) (fun d => d.emit (.ddr 6 ch.val 0 [rank.toNat])))

/-- R131: the temperature of a rank's DIMM has drifted since its last training; the first reading after training is what it is compared
with (log entry 25). -/
def Dev.drift (d : Dev) (ch r : Nat) (t : Int) : Dev :=
  let c := d.get (fMCH_TRN_DRIFT_C ch)
  match (d.rankOf (rankKey ch r)).trainTemp with
  | none => d.updRank (rankKey ch r) (fun x => { x with trainTemp := some t })
  | some t0 => if c ≠ 0 ∧ max c 2 ≤ (t - t0).natAbs then d.retrainAt ch r (some t) else d

/-- R131. -/
def execTemperatureDriftRetrain (ch : Chan) (rank : BitVec 3) (celsius : Int) : State → Result :=
  run (fun d => d.when (d.dramOn && d.rankHere ch.val rank.toNat) (fun d => d.drift ch.val rank.toNat celsius))

/-- The next rank of a channel that waits its turn starts once none of the channel retrains. -/
def Dev.nextRetrain (d : Dev) (ch : Nat) : Dev :=
  if d.get (fMCH_STS_RETRAIN ch) ≠ 0 then d
  else
    match takeFirst (fun e => e.1 == ch) d.mch.retrainQ with
    | some (e, q) => ({ d with mch := { d.mch with retrainQ := q } }).retrainAt ch e.2 none
    | none => d

/-- R131: every rank of a channel retrains in turn. -/
def Dev.retrainAll (d : Dev) (ch : Nat) : Dev :=
  let rs := ((List.range 8).filter (fun r => d.rankHere ch r && !d.mch.retrainQ.contains (ch, r))).map (fun r => (ch, r))
  ({ d with mch := { d.mch with retrainQ := d.mch.retrainQ ++ rs } }).nextRetrain ch

/-- R131: a write of RETRAIN_NOW. -/
def execRetrainNow (by_ : Writer) (ch : Chan) : State → Result := run (fun d => d.writeBy by_ (rMCH_TRN ch.val) (fun d => d.retrainAll ch.val))

/-- Commands in progress of an opcode on a target end. -/
def Dev.bgEndOn (d : Dev) (op target status : Nat) : Dev := d.bgEndAll (fun b => b.op == op && b.arg.headD 0 == target) status

/-- R131: a retrain completes; the rank's requests proceed. -/
def Dev.retrained (d : Dev) (ch r : Nat) : Dev :=
  let d := (d.updRank (rankKey ch r) (fun x => { x with retrain := false })).setBit (fMCH_STS_RETRAIN ch) r false
  (d.bgEndOn 0xC410 (rankKey ch r) stSuccess).nextRetrain ch

/-- R131. -/
def execRankRetrainDone (ch : Chan) (rank : BitVec 3) : State → Result :=
  run (fun d => d.when (d.rankOf (rankKey ch.val rank.toNat)).retrain (fun d => d.retrained ch.val rank.toNat))

/-- R131: RANK_RETRAIN. -/
def execRankRetrain (c : Pkt) : State → Result :=
  run (fun d => d.command rowRankRetrain c
    (fun d => firstBad [(decide (23 < c.at_ 0 1), stInvalidField, 16),
      (decide (7 < c.at_ 1 1) || !d.rankHere (c.at_ 0 1) (c.at_ 1 1), stInvalidField, 17)])
    (fun _ d => (.runs [rankKey (c.at_ 0 1) (c.at_ 1 1)], d.retrainAt (c.at_ 0 1) (c.at_ 1 1) none)))

end Sys2Proof.Machine
end

