-- ==== Sys2Proof/Machine/Sched.lean ====
section
/-! DEFINITION. The subchannel schedulers (05_dram_scheduling.md R116 to R127), what a completed DRAM read brings (06_memory_protection.md
R135 to R142), and the scrubber (R144, R145). -/

namespace Sys2Proof.Machine

/-! ### Candidates (R116, R117) -/

/-- A request of a subchannel's queues and where it goes. -/
structure Cand where
  r : DReq
  x : Loc
deriving DecidableEq, Repr

/-- The key of a request's bank in its rank. -/
def Cand.bankKey (c : Cand) : Nat := c.x.chRank * 32 + c.x.pair

/-- The requests that stand in the queues of a subchannel. -/
def Dev.visible (d : Dev) (k : Nat) : List Cand :=
  let s := d.subOf k
  (s.rq.take 64 ++ s.wq.take 96 ++ d.stand [] s.mq).map (fun r => ⟨r, d.locOf (64 * r.mpa)⟩)

/-- Table 6.6 step 1: a request for a frame that is being retired is held. -/
def Dev.frameHeld (d : Dev) (r : DReq) : Bool :=
  match d.mch.retiring with
  | some (f, _, first, _) => r.mpa / 64 == f && first ≤ r.id
  | none => false

/-- R117, R125: a request may issue in a slot whose timing admits the listed requests: its rank and bank are free, and no earlier
request of its source for its line waits. -/
def Dev.mayIssue (d : Dev) (k : Nat) (legal : List Nat) (c : Cand) : Bool :=
  let s := d.subOf k
  legal.contains c.r.id && !(d.rankOf (rankKey c.x.chan c.x.chRank)).retrain && !s.blocked.contains c.bankKey && !d.frameHeld c.r &&
  !(s.rq ++ s.wq ++ s.mq).any (fun o => o.id < c.r.id && o.source == c.r.source && o.mpa == c.r.mpa)

/-- The oldest of a list. -/
def oldest (l : List Cand) : Option Cand :=
  match l with
  | [] => none
  | c :: t => some (t.foldl (fun b x => if x.r.id < b.r.id then x else b) c)

/-- The open row of a request's bank is its row. -/
def SubS.hit (s : SubS) (c : Cand) : Bool :=
  match tfind s.rows c.bankKey with
  | some r => r.1 == c.x.row
  | none => false

/-- Another request waits for a different row of the bank. -/
def rivalRow (vis : List Cand) (c : Cand) : Bool := vis.any (fun o => o.bankKey == c.bankKey && o.x.row != c.x.row)

/-- HIT_CAP as it acts. -/
def Dev.hitCap (d : Dev) (ch : Nat) : Nat := let v := d.get (fMCH_SCHED_HIT_CAP ch); if v = 0 then 31 else v

/-- R119: a row hit that is still preferred. -/
def Dev.hitOk (d : Dev) (k : Nat) (vis : List Cand) (c : Cand) : Bool :=
  let s := d.subOf k
  s.hit c && (decide ((tget (fun _ => (0, 0, false)) s.rows c.bankKey).2.1 < d.hitCap c.x.chan) || !rivalRow vis c)

/-- The preferred of a list: those that p selects, if any. -/
def prefer (p : Cand → Bool) (l : List Cand) : List Cand := if l.any p then l.filter p else l

/-- R120: the oldest request of the first pair at or after the pointer that has one. -/
def rotatingPick (ptr : Nat) (l : List Cand) : Option Cand :=
  ((List.range 32).map (fun i => (ptr + i) % 32)).findSome? (fun p => oldest (l.filter (fun c => c.x.pair == p)))

/-- R120: the floor of metadata column commands requires one now. -/
def Dev.metaOwed (d : Dev) (ch k : Nat) (vis : List Cand) : Bool :=
  let m := min (d.get (fMCH_SCHED_META_MIN ch)) 16
  vis.any (fun c => c.r.isMeta) && decide (((d.subOf k).cols.filter id).length < m)

/-- The virtual times after the classes of a candidate set join their arbiter (R314). -/
def Dev.joinAll (d : Dev) (k : Nat) (now : List Nat) : Dev :=
  let had := (d.subOf k).had
  let vt := (now.filter (fun c => !had.contains c)).foldl (fun t c => joinV t (64 + k) c now) d.home.vt
  { d with home := { d.home with vt := vt } }.updSub k (fun s => { s with had := now })

/-- The pick of a slot: the request, the class that its weight served, and whether the rotating pointer chose it. -/
structure Pick where
  c : Cand
  served : Option Nat := none
  rot : Bool := false

/-- R117, R314: among reads and metadata of one urgency: row hits, then the class of least virtual time, conforming requests first, then
the oldest; metadata by the rotating pick. -/
def Dev.weighted (d : Dev) (k : Nat) (vis l : List Cand) : Option Pick :=
  let l1 := prefer (d.hitOk k vis) l
  let l2 := prefer (fun c => c.r.conf) l1
  match leastV d.home.vt (64 + k) ((List.range 9).filter (fun c => l2.any (fun q => q.r.cls == c))) with
  | some cls =>
    match oldest (l2.filter (fun q => q.r.cls == cls)) with
    | some c =>
      if c.r.isMeta then (rotatingPick (d.subOf k).ptr (l1.filter (fun q => q.r.isMeta))).map (fun m => ⟨m, some m.r.cls, true⟩)
      else some ⟨c, some cls, false⟩
    | none => none
  | none => none

/-- R117: the request of which a slot issues a command. -/
def Dev.slotPick (d : Dev) (ch sub : Nat) (vis c : List Cand) : Option Pick :=
  let k := subKey ch sub
  let three := c.filter (fun x => x.r.urg == 3)
  let metas := c.filter (fun x => x.r.isMeta)
  let writes := c.filter (fun x => !x.r.isMeta && x.r.wr.isSome)
  let rms := c.filter (fun x => x.r.isMeta || x.r.wr.isNone)
  let plain := fun (o : Option Cand) => o.map (fun x => ({ c := x } : Pick))
  if !three.isEmpty then plain (oldest (prefer (d.subOf k).hit three))
  else if d.metaOwed ch k vis && !metas.isEmpty then (rotatingPick (d.subOf k).ptr metas).map (fun m => ⟨m, none, true⟩)
  else if d.bit (fMCH_STS_DRAIN ch) sub then plain (oldest (prefer (d.hitOk k vis) writes))
  else if !rms.isEmpty then
    let u := (rms.map (fun x => x.r.urg)).foldl max 0
    d.weighted k vis (rms.filter (fun x => x.r.urg == u))
  else plain (oldest writes)

/-! ### Issue (R117, R119, R121, R125) -/

/-- The DRAM command that a request needs next. -/
inductive DCmd where
  | precharge | activate | column
deriving DecidableEq, Repr

/-- R119, R121: a row is closed for a conflict, then the request's row is opened, then comes its column command. -/
def SubS.command (s : SubS) (c : Cand) : DCmd :=
  match tfind s.rows c.bankKey with
  | none => .activate
  | some r => if r.1 = c.x.row then .column else .precharge

/-- R120: the rotating pointer moves one past the pair that it chose; a pick at urgency 3 is not its pick and leaves it (DEDUCED, log entry
86). -/
def Dev.rotate (d : Dev) (k : Nat) (p : Pick) : Dev :=
  if p.rot then d.updSub k (fun s => { s with ptr := (p.c.x.pair + 1) % 32 }) else d

/-- A row is closed for a request. -/
def Dev.precharge (d : Dev) (ch sub : Nat) (c : Cand) : Dev :=
  ((d.pmuMch ch sub 0x34).updSub (subKey ch sub) (fun s => { s with rows := tdel s.rows c.bankKey })).emit
    (.ddr 10 ch sub [c.x.chRank, c.x.bg, c.x.bank])

/-- A request's row is opened for it; the row that another request of the bank opened is closed since. -/
def Dev.activate (d : Dev) (ch sub : Nat) (c : Cand) : Dev :=
  let mark := fun (r : DReq) =>
    if r.id = c.r.id then { r with act := true }
    else if r.act && Cand.bankKey ⟨r, d.locOf (64 * r.mpa)⟩ == c.bankKey then { r with act := false } else r
  ((d.pmuMch ch sub 0x30).updSub (subKey ch sub) (fun s => { s with
    rows := tins s.rows c.bankKey (c.x.row, 0, c.r.isMeta), rq := s.rq.map mark, wq := s.wq.map mark, mq := s.mq.map mark })).emit
    (.ddr 11 ch sub [c.x.chRank, c.x.bg, c.x.bank, c.x.row])

/-- The column command of a request. A metadata access that opened its row, or whose row metadata opened, closes it (R121). -/
def Dev.columns (d : Dev) (ch sub : Nat) (vis : List Cand) (c : Cand) : Dev :=
  let k := subKey ch sub
  let m := c.r.isMeta
  let row := tget (fun _ => (0, 0, false)) (d.subOf k).rows c.bankKey
  let run := if rivalRow vis c then row.2.1 + 1 else 0
  let d := if c.r.act then d else d.pmuMch ch sub 0x33
  let d := (d.pmuMch ch sub (if c.r.wr.isSome then 0x32 else 0x31))
  -- A BL16 burst (R81) holds the data bus for two cycles of a clock of data rate / 8 (Table 1.6).
  let d := (d.pmuMch ch sub 0x3A).pmuMch ch sub 0x3A
  let d := if m then d.pmuMch ch sub 0x35 else d
  let d := d.updSub k (fun s => { s with
    rows := if m && (c.r.act || row.2.2) then tdel s.rows c.bankKey else tins s.rows c.bankKey (c.x.row, run, m && row.2.2)
    cols := (m :: s.cols).take 15 })
  d.emit (.ddr (if c.r.wr.isSome then 1 else 0) ch sub [c.x.chRank, c.x.bg, c.x.bank, c.x.row, c.x.col])

/-- A request leaves the queues of its subchannel. -/
def Dev.dequeue (d : Dev) (ch sub id : Nat) : Dev :=
  let keep := fun (r : DReq) => r.id != id
  (d.updSub (subKey ch sub) (fun s => { s with rq := s.rq.filter keep, wq := s.wq.filter keep, mq := s.mq.filter keep })).subStats ch sub

/-- The scrubber is done with its line: the cursor moves past it (R144). -/
def Dev.scrubEnd (d : Dev) (l : Nat) : Dev :=
  let cur := d.get fMCH_SCRUB_STS_CURSOR
  let d := { d with mch := { d.mch with scrubBusy := false } }
  if d.redirect cur / 64 = l then
    if d.fitted ≤ cur + 64 then (d.set fMCH_SCRUB_STS_CURSOR 0).bumpSat fMCH_SCRUB_STS_PASSES 1 else d.set fMCH_SCRUB_STS_CURSOR (cur + 64)
  else d

/-- R126, R145, R383: a conditional write is cancelled: the line is read once more, or given up. -/
def Dev.cancelled (d : Dev) (l attempt : Nat) (inject : Option (Nat × Nat)) : Dev :=
  if attempt ≤ 1 then d.pushDram l none 6 (.scrub 2 inject) 8 false none
  else
    match inject with
    | some (i, _) => d.bgDone i stCmdBusy noDetail []
    | none => (d.bumpSat fMCH_SCRUB_STS_CANCEL2 1).scrubEnd l

/-- A conditional write issues unless something else has written its line. -/
def Acc.conditional (a : Acc) (r : DReq) (cw : Codeword) (attempt : Nat) (marker : Bool) (was : Codeword) (inject : Option (Nat × Nat)) : Acc :=
  if r.stale || a.line r.mpa != was then a.upd (fun d => d.cancelled r.mpa attempt inject)
  else
    (a.wrRaw r.mpa cw).upd (fun d =>
      let d := { d with mch := { d.mch with inj := d.mch.inj.filter (fun (e : Nat × Codeword) => e.1 != r.mpa) ++ (if inject.isSome then [(r.mpa, cw)] else []) } }
      match inject with
      | some (i, _) => d.bgDone i stSuccess noDetail []
      | none => (if marker then d.bumpSat (fMCH_ECC_STS_MARKERS (lineChan r.mpa)) 1 else d).scrubEnd r.mpa)

/-- The column command of a request: a write is stored, a read's data will come. The data of a metadata access has moved already (log
entry 80). -/
def Acc.access_ (a : Acc) (ch sub : Nat) (vis : List Cand) (c : Cand) : Acc :=
  let a := a.upd (fun d => (d.columns ch sub vis c).dequeue ch sub c.r.id)
  match c.r.wr with
  | none => a.upd (fun d => d.updSub (subKey ch sub) (fun s => { s with issued := s.issued ++ [{ c.r with stale := false }] }))
  | some cw =>
    match c.r.purp with
    | .line dl => (a.wrRaw c.r.mpa cw).upd (fun d => d.bufDone dl)
    | .corrective n m was i => a.conditional c.r cw n m was i
    | .access => a
    | _ => a.wrRaw c.r.mpa cw

/-- The next command of the picked request leaves; the weight of its class is charged with its column command (R314). -/
def Acc.issue (a : Acc) (ch sub : Nat) (vis : List Cand) (p : Pick) : Acc :=
  let k := subKey ch sub
  let a := a.upd (fun d => (if p.c.r.urg = 3 then d.pmuMch ch sub 0x37 else d).rotate k p)
  match (a.dev.subOf k).command p.c with
  | .precharge => a.upd (fun d => d.precharge ch sub p.c)
  | .activate => a.upd (fun d => d.activate ch sub p.c)
  | .column =>
    let a := match p.served with
      | some q => a.upd (fun d => { d with home := { d.home with vt := d.served (64 + k) q d.home.vt } })
      | none => a
    a.access_ ch sub vis p.c

/-- R126: conditional writes that are stale leave the queues without a command. -/
def Dev.dropStale (d : Dev) (ch sub : Nat) : Dev :=
  ((d.subOf (subKey ch sub)).mq.filter (fun r => r.stale && r.wr.isSome)).foldl (fun d r =>
    match r.purp with
    | .corrective n _ _ i => (d.dequeue ch sub r.id).cancelled r.mpa n i
    | _ => d) d

/-- R127: postponed refreshes of the ranks without a candidate are made up: they join the forced ones. -/
def Dev.makeUp (d : Dev) (ch sub : Nat) (c : List Cand) : Dev :=
  let k := subKey ch sub
  (List.range 8).foldl (fun d r =>
    let s := d.subOf k
    if cnt s.post r ≠ 0 ∧ c.all (fun x => x.x.chRank != r) = true then
      let n := cnt s.post r * d.refCmds ch
      d.updSub k (fun s => { s with post := setCnt s.post r 0, forced := setCnt s.forced r (cnt s.forced r + n) })
    else d) d

/-- R117: one command slot of a subchannel. -/
def Acc.slot (a : Acc) (ch sub : Nat) (legal : List Nat) : Acc :=
  let k := subKey ch sub
  let a := a.upd (fun d => d.dropStale ch sub)
  let vis := a.dev.visible k
  let c := vis.filter (a.dev.mayIssue k legal)
  let a := a.upd (fun d => d.makeUp ch sub c)
  match (List.range 8).find? (fun r => cnt (a.dev.subOf k).forced r != 0) with
  | some r =>
    a.upd (fun d =>
      let n := cnt (d.subOf k).forced r
      (d.updSub k (fun s => { s with forced := setCnt s.forced r (n - 1) })).refreshOne ch sub r ((4 - n % 4) % 4))
  | none =>
    let rms := c.filter (fun x => x.r.isMeta || x.r.wr.isNone)
    let a := a.upd (fun d => d.joinAll k ((List.range 9).filter (fun q => rms.any (fun x => x.r.cls == q))))
    match a.dev.slotPick ch sub vis c with
    | none => a
    | some p => a.issue ch sub vis p

/-- R117. -/
def execCommandSlotPick (ch : Chan) (sub : Bool) (legal : List Nat) : State → Result :=
  runAcc (fun a => a.when a.dev.dramOn (fun a => a.slot ch.val sub.toNat legal))

/-! ### Urgency (R122, R123) -/

/-- R122: the urgency of an age. -/
def urgencyOf (age t : Nat) : Nat :=
  if t = 0 then 0 else if 100 * t ≤ 100 * age then 3 else if 75 * t ≤ 100 * age then 2 else if 50 * t ≤ 100 * age then 1 else 0

/-- The requests of a subchannel with a number become f of themselves. -/
def Dev.updReq (d : Dev) (k id : Nat) (f : DReq → DReq) : Dev :=
  let g := fun (r : DReq) => if r.id = id then f r else r
  d.updSub k (fun s => { s with rq := s.rq.map g, wq := s.wq.map g, mq := s.mq.map g })

/-- R122. -/
def execUrgencyRise (ch : Chan) (sub : Bool) (id : Nat) (age : Nat) : State → Result :=
  run (fun d => d.updReq (subKey ch.val sub.toNat) id (fun r =>
    match r.port with
    | some p => { r with urg := max r.urg (urgencyOf age (d.target p)) }
    | none => r))

/-- R123. -/
def execAgeCapExpiry (ch : Chan) (sub : Bool) (id : Nat) : State → Result :=
  run (fun d => d.when ((d.visible (subKey ch.val sub.toNat)).any (fun c => c.r.id == id))
    (fun d => d.updReq (subKey ch.val sub.toNat) id (fun r => { r with urg := 3 })))

/-! ### Read data (R135 to R142) -/

/-- A host's or agent's read ends, or is read through where its line is bad and the partner holds it (R267). -/
def Dev.hostBad (d : Dev) (t : Trans) (reason : Nat) : Dev :=
  let w := t.req.win
  if (reason = poisonMedia ∨ d.lineOut (d.backedMpa w (t.line * 64) / 64) = true) ∧ d.winMirrored w = true ∧ d.partnerCurrent w (d.granOf w t.line) = true ∧ d.linkUp = true then
    let tag := d.mir.nextRt
    ((d.updTrans t.line (fun t => { t with wait := .readThrough tag })).sendRt w t.line false).smpFlag t.req 3
  else d.endRead t (0, reason) true

/-- A transaction's read is of a line of a cell that is stored raw (R201). -/
def Acc.ofCell (a : Acc) (t : Trans) : Bool × Acc :=
  if a.dev.winTiered t.req.win then
    let r := a.pent t.req.win (t.line / 64)
    (peState r.1 == 2, r.2)
  else (false, a)

/-- What a read brings: the codeword of the queued write that serves it (R125), else the stored one with its error pattern. -/
def Acc.brought (a : Acc) (r : DReq) (err : Codeword) : Codeword := r.served.getD (a.line r.mpa ^^^ err)

/-- The stored bytes of a transaction's read are opened, in line form or in cell form. -/
def Acc.openRead (a : Acc) (t : Trans) (cell : Bool) (v : Nat) : Acc :=
  let q := t.req
  let n := a.dev.winKr q.win
  let source := if q.org = .host then 0 else 1
  let miss := !cell && a.dev.krFresh n && (tfind a.dev.sec.nodes (a.dev.nodeLine n 0 (a.dev.leafOf n t.line))).isNone
  let a := a.upd (fun d => if miss then d.smpFlag q 7 else d)
  match (if cell then a.openCell n (a.dev.slotFor n (t.line * 64)) (t.line / 64) (t.line % 64) v source else a.openLine n t.line v source) with
  | (.data y, a) => a.upd (fun d => d.endRead t (BitVec.ofNat 512 y, 0) true)
  | (.poison s, a) => a.upd (fun d => d.hostBad t s)
  | (.halt, a) => a

/-- The data of a transaction's read. -/
def Acc.hostData (a : Acc) (t : Trans) (r : DReq) (err : Codeword) : Acc :=
  let q := t.req
  let x := (a.serving q).ofCell t
  let a := x.2
  let hd := if q.org = .host then q.head else 0
  let inj := a.injected r.mpa
  let dpa := some (t.line * 64)
  if a.dev.lineOut r.mpa then a.upd (fun d => d.hostBad t (if d.winMirrored q.win then poisonMirrorLost else poisonMedia))
  else
    match rsDecode (a.brought r err) (a.dev.bankMark (a.dev.locOf (64 * r.mpa))) with
    | .clean v => a.openRead t x.1 v
    | .marker s => a.upd (fun d => d.hostBad t s)
    | .corrected v dv ms dq m => (a.upd (fun d => d.eccCorrected r.mpa r.source dpa hd dv ms dq m inj)).openRead t x.1 v
    | .bad => a.upd (fun d => (d.eccBad r.mpa r.source dpa hd inj).hostBad t poisonMedia)

/-- The read of a transaction returns: a newer write of the line that was accepted meanwhile serves it (R18). -/
def Acc.hostReturn (a : Acc) (dl : Nat) (r : DReq) (err : Codeword) : Acc :=
  match a.dev.transOf dl with
  | some t =>
    if t.wait = .dram then
      match tfind a.dev.home.lbuf dl with
      | some b =>
        if b.part.isSome then a.upd (fun d => d.updTrans dl (fun t => { t with wait := .merge }))
        else a.upd (fun d => d.endRead t (b.data, b.poison) true)
      | none => a.hostData t r err
    else a
  | none => a

/-- R142: the read of a read-modify-write returns: the merged line, or the marker that takes its place (R140). -/
def Acc.mergeReturn (a : Acc) (dl : Nat) (r : DReq) (err : Codeword) : Acc :=
  match tfind a.dev.home.lbuf dl with
  | some b =>
    match b.part with
    | none => a
    | some mask =>
      let w := a.dev.lineWin dl
      let n := a.dev.winKr w
      let hd := r.port.getD 0
      let q : Req := { agentReq (if r.port.isSome then .host else .apply) r.cls w dl (.wr .i 0 false) with conf := r.conf, head := hd }
      let inj := a.injected r.mpa
      let mark := fun (s : Nat) (a : Acc) => a.upd (fun d => d.storeMarker dl r.mpa r.cls s r.conf r.port)
      let open_ := fun (v : Nat) (a : Acc) =>
        match a.openLine n dl v 2 with
        | (.data y, a) => (a.storeFull w dl r.mpa r.cls q (mergeLine (BitVec.ofNat 512 y) b.data mask)).2
        | (.poison s, a) => mark s (a.upd (fun d => d.ptlLost r.mpa dl))
        | (.halt, a) => a
      let a := match (if a.dev.lineOut r.mpa then Decoded.bad else rsDecode (a.brought r err) (a.dev.bankMark (a.dev.locOf (64 * r.mpa)))) with
        | .clean v => open_ v a
        | .marker s => mark s (a.upd (fun d => d.ptlLost r.mpa dl))
        | .corrected v dv ms dq m => open_ v (a.upd (fun d => d.eccCorrected r.mpa 0 (some (dl * 64)) hd dv ms dq m inj))
        | .bad => mark poisonMedia (a.upd (fun d => if d.lineOut r.mpa then d.ptlLost r.mpa dl else d.eccBad r.mpa 0 (some (dl * 64)) hd inj))
      a.resumeMerge dl
  | none => a

/-- Check symbols that an injection inverts (Table 15.9, checker 1). -/
def injMask (count : Nat) : Codeword :=
  BitVec.ofNat 640 (0xff * 2 ^ 512 + (if count = 2 then 0xff * 2 ^ 576 else 0))

/-- R145: a sweep read returns; R383: the read of an injection. -/
def Acc.scrubReturn (a : Acc) (attempt : Nat) (inject : Option (Nat × Nat)) (r : DReq) (err : Codeword) : Acc :=
  let l := r.mpa
  let was := r.served.getD (a.line l)
  let got := a.brought r err
  let inj := a.injected l
  let put := fun (cw : Codeword) (marker : Bool) (a : Acc) =>
    a.upd (fun d => if r.stale then d.cancelled l attempt inject
      else d.pushDram l (some cw) 6 (.corrective attempt marker was inject) 8 false none)
  if a.dev.lineOut l then
    a.upd (fun d => match inject with
      | some (i, _) => d.bgDone i stCmdBusy noDetail []
      | none => d.scrubEnd l)
  else
    match inject, rsDecode got (a.dev.bankMark (a.dev.locOf (64 * l))) with
    | some (_, n), .corrected v dv ms dq m => put (rsEncode v ^^^ injMask n) false (a.upd (fun d => d.eccCorrected l 6 none 0 dv ms dq m inj))
    | some (_, n), .bad => put (got ^^^ injMask n) false (a.upd (fun d => ((d.eccBad l 6 none 0 inj).ftabLost l inj).bmLost l))
    | some (_, n), _ => put (was ^^^ injMask n) false a
    | none, .corrected v dv ms dq m => put (rsEncode v) false (a.upd (fun d => d.eccCorrected l 6 none 0 dv ms dq m inj))
    | none, .bad => put (markerWord poisonMedia) true (a.upd (fun d => ((d.eccBad l 6 none 0 inj).ftabLost l inj).bmLost l))
    | none, _ => a.upd (fun d => d.scrubEnd l)

/-- A read's data returns: err is the error pattern of the transfer and of the cells. -/
def Acc.readData (a : Acc) (ch sub id : Nat) (err : Codeword) : Acc :=
  let k := subKey ch sub
  match takeFirst (fun r => r.id == id) (a.dev.subOf k).issued with
  | none => a
  | some (r, rest) =>
    let a := a.upd (fun d => d.updSub k (fun s => { s with issued := rest }))
    match r.purp with
    | .host dl => a.hostReturn dl r err
    | .rmw dl => a.mergeReturn dl r err
    | .scrub n i => a.scrubReturn n i r err
    | _ => a

/-- R135. -/
def execDramReadData (ch : Chan) (sub : Bool) (id : Nat) (err : Codeword) : State → Result :=
  runAcc (fun a => a.readData ch.val sub.toNat id err)

/-! ### The scrubber (R144) -/

/-- R144, R138: the read of the next line: one that a demand read corrected, else the line at the cursor. -/
def Dev.scrub (d : Dev) : Dev :=
  let d := { d.scrubRate with mch := { d.scrubRate.mch with scrubBusy := true } }
  match d.mch.scrubQ with
  | l :: t => { d with mch := { d.mch with scrubQ := t } }.pushDram l none 6 (.scrub 1 none) 8 false none
  | [] => d.pushDram (d.redirect (d.get fMCH_SCRUB_STS_CURSOR) / 64) none 6 (.scrub 1 none) 8 false none

/-- R144. -/
def execScrubStep : State → Result :=
  run (fun d => d.when (d.flag fMCH_SCRUB_CTL_EN && d.dramOn && d.pin.initSince && !d.mch.scrubBusy) Dev.scrub)

end Sys2Proof.Machine
end

