-- ==== Sys2Proof/Machine/Retire.lean ====
section
/-! DEFINITION. Retirement and repair (06_memory_protection.md R149 to R152): frames to spares, banks to erasure decoding, rows to
post-package repair. -/

namespace Sys2Proof.Machine

/-! ### Frames (R150, Table 6.6) -/

/-- The first frame of the spare region, which ends at the top of fitted MPA (R214). -/
def Dev.spareLo (d : Dev) : Nat := d.fitted / 4096 - 8192

/-- The free spare with the lowest MPA. -/
def Dev.spareFree (d : Dev) : Option Nat :=
  (List.range 8192).findSome? (fun i => if d.mch.spares.contains (d.spareLo + i) then none else some (d.spareLo + i))

/-- A spare in use: the frame that is redirected to it. -/
def Dev.spareOf (d : Dev) (f : Nat) : Option Nat := (d.mch.redirect.find? (fun e => e.2 == f)).map (·.1)

/-- R150: the refusals. -/
def Dev.retireBad (d : Dev) (mpa : Nat) : Option (Nat × Nat) :=
  let f := mpa / 4096
  firstBad [(decide (d.fitted ≤ mpa) || (decide (d.spareLo ≤ f) && (d.spareOf f).isNone), stInvalidField, 16),
    ((tfind d.mch.redirect f).isSome, stAlreadyRetired, noDetail),
    (d.spareFree.isNone, stNoCapacity, noDetail)]

/-- Step 1 of Table 6.6: a spare is taken, and requests for the frame are held from now on. -/
def Dev.retireStart (d : Dev) (f i : Nat) : Dev :=
  match d.spareFree with
  | some s => ({ d with mch := { d.mch with spares := d.mch.spares ++ [s], retiring := some (f, s, d.mch.nextId, some i) } }).retStats
  | none => d

/-- FRAME_RETIRE. -/
def execFrameRetire (c : Pkt) : State → Result :=
  run (fun d => d.command rowFrameRetire c (fun d => d.retireBad (c.at_ 0 8))
    (fun i d => (.runs [c.at_ 0 8 / 4096], d.retireStart (c.at_ 0 8 / 4096) i)))

/-- Requests that passed before step 1 still wait for the frame. -/
def Dev.frameBusy (d : Dev) (f first : Nat) : Bool :=
  d.mch.sub.any (fun e => (e.2.rq ++ e.2.wq ++ e.2.mq).any (fun r => r.mpa / 64 == f && r.id < first))

/-- A request of frame f goes to frame s. -/
def toSpare (f s : Nat) (r : DReq) : DReq := if r.mpa / 64 = f then { r with mpa := s * 64 + r.mpa % 64 } else r

/-- A request joins the queue of its line's subchannel. -/
def Dev.requeue (d : Dev) (r : DReq) : Dev :=
  let x := d.locOf (64 * r.mpa)
  (d.updSub (subKey x.chan x.sub) (fun s => s.join r)).subStats x.chan x.sub

/-- The requests held for frame f are released and reach frame s; reads that have issued find the same data there. -/
def Dev.moveReqs (d : Dev) (f s : Nat) : Dev :=
  let mine := fun (r : DReq) => r.mpa / 64 == f
  let l := d.mch.sub.flatMap (fun e => (e.2.rq ++ e.2.wq ++ e.2.mq).filter mine)
  let d := { d with mch := { d.mch with sub := d.mch.sub.map (fun (e : Nat × SubS) => (e.1, { e.2 with
    rq := e.2.rq.filter (fun r => !mine r), wq := e.2.wq.filter (fun r => !mine r), mq := e.2.mq.filter (fun r => !mine r)
    issued := e.2.issued.map (toSpare f s) })) } }
  let d := (tkeys d.mch.sub).foldl (fun d k => d.subStats (k / 2) (k % 2)) d
  l.foldl (fun d r => d.requeue (toSpare f s r)) d

/-- A cache keyed by MPA line: the lines of frame f take the keys of frame s. -/
def rekey {α : Type} (f s : Nat) (t : Tbl α) : Tbl α :=
  (t.filter (fun e => e.1 / 64 == f)).foldl (fun t e => tins t (s * 64 + e.1 % 64) e.2) (t.filter (fun e => e.1 / 64 != f))

/-- Steps 2 to 5 of Table 6.6: the lines are copied, the redirect is valid, held requests go on, and the command completes. -/
def Acc.retireCopy (a : Acc) : Acc :=
  match a.dev.mch.retiring with
  | none => a
  | some (f, s, first, bg) =>
    if a.dev.frameBusy f first then a
    else
      let a := (List.range 64).foldl (fun a i =>
        let m := a.mended (f * 64 + i)
        m.2.wrRaw (s * 64 + i) m.1) a
      let orig := (a.dev.spareOf f).getD f
      a.upd (fun d =>
        let d := { d with mch := { d.mch with redirect := tins d.mch.redirect orig s, retiring := none,
                                              scrubQ := d.mch.scrubQ.map (fun l => if l / 64 = f then s * 64 + l % 64 else l) },
                          sec := { d.sec with nodes := rekey f s d.sec.nodes, mlines := rekey f s d.sec.mlines },
                          flash := { d.flash with retire := d.flash.retire ++ [(orig, s)] } }
        (d.moveReqs f s).retStats.bgDoneOpt bg stSuccess noDetail [])

/-- R150. -/
def execRetireCopyDone : State → Result := runAcc Acc.retireCopy

/-! ### Places that a command names -/

/-- A channel, subchannel, rank, bank group and bank that the settled population does not have: the offset of the first such byte. -/
def Dev.placeMiss (d : Dev) (c : Pkt) : List (Bool × Nat × Nat) :=
  let b := fun (i : Nat) => c.at_ i 1
  let two := d.get fMCH_POP_STS_RESULT == 1
  let n := match refDimm d.mch.pop with
    | some r => r.ranks
    | none => 0
  [(decide (23 < b 0), stInvalidField, 16), (decide (1 < b 1), stInvalidField, 17),
   (decide (7 < b 2) || (!two && decide (3 < b 2)) || decide (n ≤ b 2 % 4), stInvalidField, 18),
   (decide (7 < b 3), stInvalidField, 19), (decide (3 < b 4), stInvalidField, 20)]

/-! ### Banks (R151) -/

/-- The BANK_RETIRE entries in force of a channel, as the bytes of their commands. -/
def Dev.brets (d : Dev) (n : Nat) : List (List Nat) :=
  ((List.range 8).filter (fun k => d.flag (fMCH_BRET_VALID n k))).map (fun k =>
    [n, d.get (fMCH_BRET_SUB n k), d.get (fMCH_BRET_RANK n k), d.get (fMCH_BRET_BG n k), d.get (fMCH_BRET_BANK n k),
     d.get (fMCH_BRET_ALL n k), d.get (fMCH_BRET_DEVICE n k)])

/-- Two entries name a common bank. -/
def bretMeets (a b : List Nat) : Bool :=
  a.getD 1 0 == b.getD 1 0 && a.getD 2 0 == b.getD 2 0 &&
  (a.getD 5 0 == 1 || b.getD 5 0 == 1 || (a.getD 3 0 == b.getD 3 0 && a.getD 4 0 == b.getD 4 0))

/-- Entry a covers every bank that b names. -/
def bretHolds (a b : List Nat) : Bool := bretMeets a b && (a.getD 5 0 == 1 || b.getD 5 0 == 0) && a.getD 6 0 == b.getD 6 0

/-- The bytes of a BANK_RETIRE. -/
def bretOf (c : Pkt) : List Nat := (List.range 7).map (fun i => c.at_ i 1)

/-- R151: the refusals. -/
def Dev.bankBad (d : Dev) (c : Pkt) : Option (Nat × Nat) :=
  match firstBad (d.placeMiss c ++ [(decide (1 < c.at_ 5 1), stInvalidField, 21), (decide (9 < c.at_ 6 1), stInvalidField, 22)]) with
  | some x => some x
  | none =>
    let l := d.brets (c.at_ 0 1)
    let b := bretOf c
    if l.any (fun e => bretHolds e b) then none
    else firstBad [((d.bretFree (c.at_ 0 1)).isNone, stNoCapacity, noDetail),
      (l.any (fun e => bretMeets e b && e.getD 6 0 != b.getD 6 0), stRetireConflict, noDetail)]

/-- R151: a bank of a device, or the device, is marked. -/
def Dev.bankRetire (d : Dev) (b : List Nat) : Dev :=
  if (d.brets (b.getD 0 0)).any (fun e => bretHolds e b) then d
  else
    match d.bretFree (b.getD 0 0) with
    | some k => { (d.putBret k b) with flash := { d.flash with banks := d.flash.banks ++ [b] } }
    | none => d

/-- BANK_RETIRE. -/
def execBankRetire (c : Pkt) : State → Result :=
  run (fun d => d.command rowBankRetire c (fun d => d.bankBad c) (fun _ d => (.done [] 0, d.bankRetire (bretOf c))))

/-! ### Rows (R152, Table 6.7) -/

/-- Channel, subchannel, rank, bank group, bank, device and row of a repair command. -/
def repairOf (c : Pkt) : List Nat := (List.range 6).map (fun i => c.at_ i 1) ++ [c.at_ 8 4]

/-- R152: the device has no repair resource left in the bank group for one more row. -/
def Dev.repairFull (d : Dev) (r : List Nat) : Bool :=
  let all := (d.mch.pprUsed ++ d.flash.hardRepair).map (fun e => e.take 7)
  let mine := (all.filter (fun e => e.take 4 == r.take 4 && e.getD 5 0 == r.getD 5 0)).eraseDups
  !mine.contains r && decide (Config.pprResources (r.take 4 ++ [r.getD 5 0]) ≤ mine.length)

/-- The refusals of both repair commands. -/
def Dev.repairBad (d : Dev) (c : Pkt) : Option (Nat × Nat) :=
  (firstBad (d.placeMiss c ++ [(decide (9 < c.at_ 5 1), stInvalidField, 21),
    (decide (2 ^ d.get fWIN_GEOM_ROWB ≤ c.at_ 8 4), stInvalidField, 24)])).or
  (firstBad [(d.repairFull (repairOf c), stPprExhausted, noDetail)])

/-- The bank that a repair names, as its subchannel's key. -/
def repairBank (r : List Nat) : Nat := r.getD 2 0 * 32 + r.getD 3 0 * 4 + r.getD 4 0

/-- Step 1 of Table 6.7: the bank is blocked. -/
def Dev.softStart (d : Dev) (r : List Nat) (i : Nat) : Dev :=
  ({ d with mch := { d.mch with ppr := tins d.mch.ppr (r.getD 0 0) (r ++ [i]), pprBuf := tdel d.mch.pprBuf (r.getD 0 0) } }).updSub
    (subKey (r.getD 0 0) (r.getD 1 0)) (fun s => { s with blocked := s.blocked ++ [repairBank r] })

/-- PPR_SOFT. -/
def execPprSoft (c : Pkt) : State → Result :=
  run (fun d => d.command rowPprSoft c (fun d => d.repairBad c)
    (fun i d => (.runs [c.at_ 0 1], d.softStart (repairOf c) i)))

/-- The lines of a repair's row. -/
def Dev.repairLines (d : Dev) (r : List Nat) : List Nat := d.rowLines (r.getD 0 0) (r.getD 1 0) (r.getD 2 0) (r.getD 3 0) (r.getD 4 0) (r.getD 6 0)

/-- Steps 2 and 3: the lines are read, corrected and held; the repair is issued. -/
def Acc.softRead (a : Acc) (ch : Nat) : Acc :=
  match tfind a.dev.mch.ppr ch, tfind a.dev.mch.pprBuf ch with
  | some r, none =>
    let a := a.upd (fun d => d.updSub (subKey ch (r.getD 1 0)) (fun s => { s with rows := tdel s.rows (repairBank r) }))
    let x := (a.dev.repairLines r).foldl (fun (p : List (Codeword × Codeword) × Acc) l =>
      let was := p.2.line l
      let m := p.2.mended l
      (p.1 ++ [(was, m.1)], m.2)) ([], a)
    x.2.upd (fun d => { d with mch := { d.mch with pprBuf := tins d.mch.pprBuf ch x.1 } }.emit (.ddr 8 ch (r.getD 1 0) (r.take 7)))
  | _, _ => a

/-- R152. -/
def execPprSoftReadDone (ch : Chan) : State → Result := runAcc (fun a => a.softRead ch.val)

/-- Steps 4 and 5: the lines are written back, but for those that something wrote since; the bank is free again. -/
def Acc.softBack (a : Acc) (ch : Nat) : Acc :=
  match tfind a.dev.mch.ppr ch, tfind a.dev.mch.pprBuf ch with
  | some r, some buf =>
    let a := ((a.dev.repairLines r).zip buf).foldl (fun (a : Acc) e => if a.line e.1 = e.2.1 then a.wrRaw e.1 e.2.2 else a) a
    a.upd (fun d =>
      let d := d.updSub (subKey ch (r.getD 1 0)) (fun s => { s with blocked := s.blocked.filter (· != repairBank r) })
      let d := { d with mch := { d.mch with ppr := tdel d.mch.ppr ch, pprBuf := tdel d.mch.pprBuf ch, pprUsed := d.mch.pprUsed ++ [r.take 7 ++ [0]] } }
      d.bgDone (r.getD 7 0) stSuccess noDetail [])
  | _, _ => a

/-- R152. -/
def execPprSoftWriteback (ch : Chan) : State → Result := runAcc (fun a => a.softBack ch.val)

/-- PPR_HARD: the row joins the list for the next boot. -/
def execPprHard (c : Pkt) : State → Result :=
  run (fun d => d.command rowPprHard c (fun d => d.repairBad c)
    (fun _ d => (.done [] 0, { d with flash := { d.flash with hardRepair := (d.flash.hardRepair ++ [repairOf c]).eraseDups } })))

end Sys2Proof.Machine
end

