-- ==== Sys2Proof/Machine/Keys.lean ====
section
/-! DEFINITION. Key ranges at work (07_encryption_integrity.md R153 to R192): their commands, key rotation, minor overflow, the
rebuild of a quarantined subtree, and the loss of a key slot. -/

namespace Sys2Proof.Machine

/-! ### Definition and removal (R155) -/

/-- Fields of a KR_CREATE payload: the four images. -/
def krImage (c : Pkt) (i : Nat) : Nat := c.at_ (4 + 4 * i) 4

/-- Units of 2 MiB of a tag table and of a counter tree of a range. -/
def tagUnits (size : Nat) : Nat := (size + 7) / 8
def treeUnits (size r : Nat) : Nat := (treeNodes (size * 1024) r * 64 + unit2M - 1) / unit2M

/-- What a range of a mode needs in the metadata region: structure and units. -/
def krNeed (mode size r : Nat) : List (Nat × Nat) :=
  (if 2 ≤ mode then [(1, tagUnits size)] else []) ++ (if mode = 3 then [(2, treeUnits size r)] else [])

/-- The root blocks of the valid ranges of ENC_TAG_FRESH. -/
def Dev.rootBlocks (d : Dev) : List (Nat × Nat) :=
  ((List.range 16).filter (fun k => d.krValid k && d.krFresh k)).map (fun k => (d.get (fSEC_KR_ROOTS_ROOT_BASE k), 2 ^ d.get (fSEC_KR_ROOTS_ROOT_LOG2 k)))

/-- Table 7.1. -/
def Dev.krCreateBad (d : Dev) (c : Pkt) : Option (Nat × Nat) :=
  let n := c.at_ 0 1
  let cfg := krImage c 0
  let base := krImage c 1 % 2 ^ 25
  let size := krImage c 2 % 2 ^ 25
  let roots := krImage c 3
  let mode := cfg / 2 % 4
  let r := roots % 32
  let rb := roots / 32 % 2 ^ 19
  firstBad [(cfg % 2 == 0, stInvalidField, 20), (15 < n, stInvalidField, 16), (size == 0, stInvalidField, 28), (mode == 0, stInvalidField, 20),
    (2 ^ 25 < base + size, stInvalidField, 24), (d.krValid n, stKrBusy, noDetail),
    ((List.range 16).any (fun k => d.krValid k && meet (base * unit2M) (size * unit2M) (d.krBase k) (d.krSize k)), stKrOverlap, noDetail),
    (mode != 3 && roots != 0, stInvalidField, 32), (mode == 3 && (19 < r || rb % 2 ^ r != 0), stInvalidField, 32),
    (mode == 3 && d.rootBlocks.any (fun b => meet rb (2 ^ r) b.1 b.2), stNoCapacity, noDetail),
    (!d.metaFits ((krNeed mode size r).map (·.2)), stNoCapacity, noDetail)]

/-- What no command leaves behind of a range: status, check value, marks, cursor, bases, and its keys, in the crock too (R162). -/
def Dev.krClear (d : Dev) (n : Nat) : Dev :=
  let d := ((d.wr (rSEC_KR_STS n) 0).wr (rSEC_KR_KCV n) 0).wr (rSEC_KR_ROTCUR n) 0
  let d := (((d.wr (rSEC_KR_MHW n) 0).wr (rSEC_KR_CHW n) 0).wr (rSEC_KR_TAGBASE n) 0).wr (rSEC_KR_TREEBASE n) 0
  let gone := fun (t : Tbl Nat) => tdel (tdel t (2 * n)) (2 * n + 1)
  { d.set (fSEC_KR_EVT_QUAR n) 0 with sec := { d.sec with keys := gone d.sec.keys, crockKeys := gone d.sec.crockKeys, newHw := tdel d.sec.newHw n
                                                          quar := d.sec.quar.filter (fun q => q.n != n)
                                                          qleaf := d.sec.qleaf.filter (fun x => x.1 != n) } }

/-- The metadata structures of a new range are allotted. -/
def Dev.krAllot (d : Dev) (n : Nat) (need : List (Nat × Nat)) : Dev :=
  need.foldl (fun d x => match d.metaFit x.2 with
    | some b =>
      let d := d.allotMeta x.1 n b x.2
      if x.1 = 1 then d.set (fSEC_KR_TAGBASE_MPA n) (b * unit2M) else d.set (fSEC_KR_TREEBASE_MPA n) (b * unit2M)
    | none => d) d

/-- R155: a range is defined without a key, from the images of its four registers. -/
def Dev.krDefine (d : Dev) (n : Nat) (img : List Nat) : Dev :=
  let mode := img.getD 0 0 / 2 % 4
  let size := img.getD 2 0 % 2 ^ 25
  let r := img.getD 3 0 % 32
  let d := d.krClear n
  let d := ((krPairs n).zip img).foldl (fun d x => d.wrPair x.1.1 x.1.2 x.2) d
  let d := (d.set (fSEC_KR_STS_STATE n) 1).krAllot n (krNeed mode size r)
  let d := if mode = 3 then
      (d.set (fSEC_KR_STS_DEPTH n) (treeDepth (size * 1024) r)).drop fSEC_STS_ROOTS_FREE (2 ^ r)
    else d
  d.krChanged n

/-- R155, R331, R336: a new range is defined, its pairs are read back, and it enters the configuration record. -/
def Dev.krCreate (d : Dev) (c : Pkt) : CmdEnd × Dev :=
  let n := c.at_ 0 1
  let img := (List.range 4).map (krImage c)
  (d.krDefine n img).stored (krPairs n)
    (fun d => { d with flash := { d.flash with cfg := { d.flash.cfg with krs := tins d.flash.cfg.krs n (withCompl img) } } })

/-- R155. -/
def execKrCreate (c : Pkt) : State → Result :=
  run (fun d => d.command rowKrCreate c (fun d => d.krCreateBad c) (fun _ d => d.krCreate c))

/-- A valid window lies in range n, or is being created there. -/
def Dev.krUsed (d : Dev) (n : Nat) : Bool := d.images.any (fun w => imKr w == n)

/-- R155: range n is removed. -/
def Acc.krRemove (a : Acc) (n : Nat) : Acc :=
  let fresh := a.dev.krFresh n
  let r := a.dev.get (fSEC_KR_ROOTS_ROOT_LOG2 n)
  let rb := a.dev.get (fSEC_KR_ROOTS_ROOT_BASE n)
  let a := a.upd (fun d => if fresh then
      { d.bump fSEC_STS_ROOTS_FREE (2 ^ r) with sec := { d.sec with roots := tdrop (fun i => rb ≤ i && i < rb + 2 ^ r) d.sec.roots } }
    else d)
  let a := (a.freeMeta 1 n).freeMeta 2 n
  a.upd (fun d =>
    let d := (krPairs n).foldl (fun d p => d.wrPair p.1 p.2 0) (d.krClear n)
    let d := { d with flash := { d.flash with cfg := { d.flash.cfg with krs := tdel d.flash.cfg.krs n } } }
    d.krChanged n)

/-- R155. -/
def execKrRemove (c : Pkt) : State → Result :=
  runAcc (fun a => a.command rowKrRemove c
    (fun a =>
      let n := c.at_ 0 1
      firstBad [(15 < n || a.dev.krState n == 0, stInvalidField, 16), (a.dev.krUsed n || a.dev.krState n == 4, stKrBusy, noDetail)])
    (fun _ a => (.done [] 0, a.krRemove (c.at_ 0 1))))

/-! ### Keys (R159, R161, R187) -/

/-- R336: the stored windows of a range whose key has come are created, in record order. -/
def Dev.storedWins (d : Dev) (n : Nat) : Dev :=
  d.flash.cfg.wins.foldl (fun (d : Dev) (e : Nat × List Nat) =>
    if imKr e.2 = n ∧ !d.winValid e.1 ∧ !d.win.chg.any (fun c => c.win == e.1) then d.beginCreate e.1 (e.2.take 6) none else d) d

/-- A key enters a slot. -/
def Dev.putKey (d : Dev) (n s : Nat) (key : List Nat) : Dev := { d with sec := { d.sec with keys := tins d.sec.keys (2 * n + s) (ofBytes key) } }

/-- The 32 bytes of a KEY_LOAD. -/
def loadKey (c : Pkt) : List Nat := (List.range 32).map (fun i => c.at_ (4 + i) 1)

/-- R159, R187: the refusal of a KEY_LOAD. -/
def Dev.keyLoadBad (d : Dev) (c : Pkt) : Option (Nat × Nat) :=
  let n := c.at_ 0 1
  let s := c.at_ 1 1
  let st := d.krState n
  firstBad [(15 < n || st == 0, stInvalidField, 16), (1 < s, stInvalidField, 17),
    (if s = 0 then 2 ≤ st else st == 4, stKrBusy, noDetail), (s == 1 && st == 1, stKeyNotLoaded, noDetail),
    (s == 0 && d.flag (fSEC_KR_STS_KLOST n) && kcvOf (loadKey c) != d.get (fSEC_KR_KCV_KCV n), stKeyMismatch, noDetail)]

/-- R159, R187: a key is loaded; the first CURRENT key of a range with a tree starts its initialization. -/
def Dev.keyLoad (d : Dev) (c : Pkt) : CmdEnd × Dev :=
  let n := c.at_ 0 1
  let kcv := kcvOf (loadKey c)
  let d := d.putKey n (c.at_ 1 1) (loadKey c)
  if c.at_ 1 1 = 1 then (.done (leOf 4 0) 0, d.setFlag (fSEC_KR_STS_NEXT_LOADED n) true)
  else if d.flag (fSEC_KR_STS_KLOST n) then
    (.done (leOf 4 kcv) 0, ((d.setFlag (fSEC_KR_STS_KLOST n) false).set (fSEC_KR_STS_STATE n) 3).storedWins n)
  else
    let d := d.set (fSEC_KR_KCV_KCV n) kcv
    if d.krFresh n then (.runs [n], { d.set (fSEC_KR_STS_STATE n) 2 with sec := { d.sec with init := d.sec.init ++ [n] } })
    else (.done (leOf 4 kcv) 0, (d.set (fSEC_KR_STS_STATE n) 3).storedWins n)

/-- R159. -/
def execKeyLoad (c : Pkt) : State → Result :=
  run (fun d => d.command rowKeyLoad c (fun d => d.keyLoadBad c) (fun _ d => d.keyLoad c))

/-- R159: every node of a tree in its initial form, under root counters of 0. -/
def Acc.initTree (a : Acc) (n : Nat) : Acc :=
  let n0 := a.dev.leaves n
  let dep := a.dev.depth n
  let key := a.dev.treeKey n 0 0
  let a := (List.range (levelCount n0 dep)).foldl (fun (a : Acc) i => a.upd (fun d => d.setRoot n i 0)) a
  (List.range (dep + 1)).foldl (fun (a : Acc) k =>
    (List.range (levelCount n0 k)).foldl (fun (a : Acc) i => a.wrData (a.dev.nodeLine n k i) (withMac 0 (macOf key 0 i k n 0))) a) a

/-- The KEY_LOAD of range n that runs ends with a status. -/
def Dev.keyLoadEnds (d : Dev) (n status : Nat) (body : List Byte) : Dev :=
  (tkeys (d.mgt.bg.filter (fun e => e.2.op == 0xC102 && !e.2.done && e.2.arg.headD 16 == n))).foldl (fun d i => d.bgDone i status noDetail body) d

/-- R159: the tree of a range is written, and the range becomes ACTIVE. -/
def Acc.treeInit (a : Acc) (n : Nat) : Acc :=
  if a.dev.sec.init.contains n && !a.dev.sec.away then
    (a.initTree n).upd (fun d =>
      let d := { d with sec := { d.sec with init := d.sec.init.filter (· != n) } }
      let d := (d.set (fSEC_KR_STS_STATE n) 3).keyLoadEnds n stSuccess (leOf 4 (d.get (fSEC_KR_KCV_KCV n)))
      d.storedWins n)
  else a

/-- R159. -/
def execCounterTreeInitDone (n : KeyRange) : State → Result := runAcc (fun a => a.treeInit n.toNat)

/-- R187: a key slot that holds a key is lost, and the range's keys with it. -/
def Dev.keySlotLost (d : Dev) (n s : Nat) : Dev :=
  if (tfind d.sec.keys (2 * n + s)).isNone then d
  else
    let x := d.keyGone n
    if d.krState n = 2 then ((x.setFlag (fSEC_KR_STS_KLOST n) false).set (fSEC_KR_KCV_KCV n) 0).keyLoadEnds n stKeyNotLoaded [] else x

/-- R187. -/
def execKeySlotLost (n : KeyRange) (next : Bool) : State → Result := run (fun d => d.keySlotLost n.toNat next.toNat)

/-! ### The halt command (R188) -/

/-- R188, R331: SEC_HALT. -/
def execSecHalt (c : Pkt) : State → Result :=
  run (fun d => d.command rowSecHalt c (fun _ => firstBad [(c.at_ 0 4 != 0x4C414854, stInvalidField, 16)])
    (fun _ d => (.done [] 0, d.haltNow 6 0 7 0 false)))

/-! ### Stored lines taken up again (R177, R181) -/

/-- A page's slice can take up a transaction of the whole page: it takes requests, and nothing of the page is open there, no transaction, no
waiting request, no buffered line, no overflow (R183, R85). -/
def Dev.pageQuiet (d : Dev) (pg : Nat) : Bool :=
  d.slicesRun && !d.home.trans.any (fun t => t.line / 64 == pg) && !d.home.waits.any (fun q => q.dpa / 4096 == pg) &&
  !d.home.lbuf.any (fun e => e.1 / 64 == pg) && !d.sec.ovf.any (fun o => o.base / 4096 == pg)

/-- What is done with a stored line: it stays as it is, its data is sealed again, or a marker takes its place. -/
inductive Again where
  | keep
  | data (x : Nat)
  | mark (reason : Nat)
  | halt
deriving DecidableEq, Repr

/-- A stored line of a DPA line is read, from source row src of Table 5.3, and opened as opn says. -/
def Acc.again (a : Acc) (src dl l : Nat) (opn : Acc → Nat → Opened × Acc) : Again × Acc :=
  match a.rdRaw l with
  | .marker _ => (.keep, a)
  | _ =>
    match a.rdQueued l src (some (dl * 64)) with
    | (.inr _, a) => (if a.dev.lineOut l then .keep else .mark poisonMedia, a)
    | (.inl v, a) =>
      match opn a v with
      | (.data x, a) => (.data x, a)
      | (.poison r, a) => (.mark r, a)
      | (.halt, a) => (.halt, a)

/-! ### Minor overflow (R177) -/

/-- The overflow can proceed: its leaf can be had, and no merge of its lines is in progress. -/
def Dev.ovfReady (d : Dev) (o : Ovf) : Bool :=
  d.krUsable o.n && !d.inQuar o.n 0 o.leaf &&
  !d.home.lbuf.any (fun e => o.base / 64 ≤ e.1 && e.1 < o.base / 64 + 32 && e.2.part.isSome)

/-- Step 2 of Table 7.10 for one line: the newest data, or what stands in DRAM. A line that a QUAR leaf has lost stays lost. -/
def Acc.ovfLine (a : Acc) (o : Ovf) (dl : Nat) : Again × Acc :=
  match tfind a.dev.home.lbuf dl with
  | some b => (if b.poison = 0 then .data b.data.toNat else .keep, a)
  | none =>
    match a.lineAt (a.dev.lineWin dl) dl with
    | (some l, a) =>
      match a.again 0 dl l (fun a v => a.openLine o.n dl v 3) with
      | (.mark r, a) => (if r = poisonTreeMedia then .keep else .mark r, a)
      | r => r
    | (none, a) => (.keep, a)

/-- Step 2 for the whole group; none after a halt. -/
def Acc.ovfLines (a : Acc) (o : Ovf) : Option (List Again) × Acc :=
  (List.range 32).foldl (fun (r : Option (List Again) × Acc) i =>
    match r with
    | (some l, a) =>
      match a.ovfLine o (o.base / 64 + i) with
      | (.halt, a) => (none, a)
      | (x, a) => (some (l ++ [x]), a)
    | (none, a) => (none, a)) (some [], a)

/-- Step 3: the leaf's new counters. -/
def ovfLeaf (v : Nat) (l : List Again) : Nat :=
  let q := leafQuar v
  let base := leafNode (leafMajor v + 1) 0 (nodeFlags v)
  let put := fun (w : Nat) (x : Again × Nat) => match x.1 with
    | .data _ => if q then wordPut w (64 + 12 * x.2) 12 1 else w
    | _ => w
  unQuar ((l.zipIdx).foldl put base)

/-- Step 4 for one line: it is sealed under the new counters and joins the write queue. -/
def Acc.ovfStore (a : Acc) (o : Ovf) (leaf dl : Nat) (x : Again) : Acc :=
  match a.lineAt (a.dev.lineWin dl) dl with
  | (none, a) => a
  | (some l, a) =>
    let trig := o.req.dpa / 64 == dl
    match x with
    | .data v =>
      let r := a.sealWith o.n (a.dev.slotFor o.n (dl * 64)) dl v (leafMinor leaf (minorIdx dl)) (leafMajor leaf)
      r.2.upd (fun d => (d.bufPut dl (BitVec.ofNat 512 v) 0 (if trig then 0 else 1)).pushDram l (some r.1) 0 (.line dl)
        (if trig then o.req.cls else 8) (trig && o.req.conf) (if trig then o.req.hostHead else none))
    | .mark r => a.upd (fun d => d.storeMarker dl l 8 r false none)
    | _ => a

/-- Table 7.10, steps 2 to 5. -/
def Acc.ovfRun (a : Acc) (o : Ovf) : Acc :=
  match a.fetch o.n 0 o.leaf with
  | (.ok v, a) =>
    match a.ovfLines o with
    | (none, a) => a
    | (some l, a) =>
      let leaf := ovfLeaf v l
      let a := a.upd (fun d =>
        let d := (d.putNode o.n 0 o.leaf leaf true)
        let d := if leafQuar v && !leafQuar leaf then d.quarLeaf o.n o.leaf false else d
        let d := if majorMax ≤ leafMajor leaf then d.exhaust o.n else d
        { d with sec := { d.sec with ovf := d.sec.ovf.filter (fun p => !(p.n == o.n && p.leaf == o.leaf)) } })
      let a := (l.zipIdx).foldl (fun (a : Acc) x => a.ovfStore o leaf (o.base / 64 + x.2) x.1) a
      (a.trimNodes 16).wakeLines (fun dl => decide (o.base / 64 ≤ dl) && decide (dl < o.base / 64 + 32))
  | (_, a) => a

/-- R177: the first overflow that can proceed is carried out. -/
def execMinorOverflowReencrypt : State → Result :=
  runAcc (fun a => match a.dev.sec.ovf.find? a.dev.ovfReady with
    | some o => a.underKr o.n (fun a => a.ovfRun o)
    | none => a)

/-! ### Fills (R72) -/

/-- R177 at the zero fill of a leaf whose MINORs stand at their limit: all 32 lines are zeros under the new counters, none is read (DEDUCED,
log entry 112). -/
def Acc.zeroOvf (a : Acc) (n dl v : Nat) : Acc :=
  let j := a.dev.leafOf n dl
  let leaf := ovfLeaf v (List.replicate 32 (.data 0))
  a.upd (fun d =>
    let d := ((d.bump fSEC_OVF_CNT_COUNT 1).pmu (30 + lineChan dl / 4) 0x46 0 8 1).putNode n 0 j leaf true
    let d := if leafQuar v then d.quarLeaf n j false else d
    if majorMax ≤ leafMajor leaf then d.exhaust n else d)

/-- R72: the 32 lines from DPA line dl on, of one leaf, are written as encrypted zeros at MPA bytes from mpa on. False: their key or leaf
cannot be had now, and the fill waits (R186). -/
def Acc.zeroLeaf (a : Acc) (n dl mpa : Nat) : Bool × Acc :=
  let at_ := fun (a : Acc) (i : Nat) => a.dev.redirect (mpa + i * 64) / 64
  let f := if a.dev.krFresh n then a.fetch n 0 (a.dev.leafOf n dl) else (.ok 0, a)
  match f with
  | (.ok v, a) =>
    if a.dev.krFresh n && (List.range 32).any (fun i => leafMinor v i == 4095) then
      let a := a.zeroOvf n dl v
      let leaf := ovfLeaf v (List.replicate 32 (.data 0))
      (true, (List.range 32).foldl (fun (a : Acc) i =>
        let r := a.sealWith n (a.dev.slotFor n (dl * 64)) (dl + i) 0 (leafMinor leaf i) (leafMajor leaf)
        r.2.wrRaw (at_ r.2 i) r.1) a)
    else
      (List.range 32).foldl (fun (r : Bool × Acc) i =>
        match r.2.sealLine n (dl + i) 0 with
        | (some c, a) => (r.1, a.wrRaw (at_ a i) c)
        | (none, a) => (false, a)) (true, a)
  | (_, a) => (false, a)

/-- R72: the fills of a create: data lines from where they stand, then the directory segment. False: the fill waits. -/
def Acc.fillCreate (a : Acc) (c : WinChg) : Bool × Acc :=
  let w := c.img
  let lo := imMbase w * 32768
  let r : Bool × Acc := if imKind w = 0 then
      (List.range (imSize w * 1024 - c.done)).foldl (fun (r : Bool × Acc) i =>
        if r.1 then
          let k := c.done + i
          let z := r.2.zeroLeaf (imKr w) (imBase w * 32768 + k * 32) (imMbase w * unit2M + k * 2048)
          if z.1 then (true, z.2.upd (fun d => d.updChg c.win (fun c => { c with done := k + 1 }))) else z
        else r)
        (true, a.upd (fun d => d.filled (fun l => decide (lo ≤ d.unredirect l) && decide (d.unredirect l < lo + imSize w * 32768))))
    else (true, a)
  if r.1 then
    match r.2.dev.sec.allot.find? (fun x => x.kind == 0 && x.obj == c.win) with
    | some x => if imShared w then (true, r.2.zeroLines (x.base * 32768) ((x.base + x.units) * 32768)) else r
    | none => r
  else r

/-- The zero fill of a new window ends, unless a part of it must wait. -/
def Acc.fillDone (a : Acc) (n : Nat) : Acc :=
  match a.dev.win.chg.find? (fun c => c.win == n && c.filling) with
  | some c =>
    if !a.dev.krUsable (imKr c.img) then a
    else
      let r := a.fillCreate c
      r.2.upd (fun d => d.updChg n (fun c => { c with filling := !r.1 }))
  | none => a

/-- R72. -/
def execZeroFillDone (w : WinId) : State → Result := runAcc (fun a => a.fillDone w.toNat)

/-! ### Key rotation (R181 to R183) -/

/-- R181: KEY_ROTATE. -/
def execKeyRotate (c : Pkt) : State → Result :=
  run (fun d => d.command rowKeyRotate c
    (fun d =>
      let n := c.at_ 0 1
      firstBad [(15 < n, stInvalidField, 16), (!d.flag (fSEC_KR_STS_NEXT_LOADED n), stKeyNotLoaded, noDetail),
        (d.krState n == 4, stKrBusy, noDetail), (d.krState n != 3, stInvalidField, 16)])
    (fun _ d =>
      let n := c.at_ 0 1
      (.done [] 0, { (d.set (fSEC_KR_STS_STATE n) 4).set (fSEC_KR_ROTCUR_CURSOR n) (d.krBase n) with
                     sec := { d.sec with newHw := tdel d.sec.newHw n } })))

/-- The stored lines of a page in line form: DPA line and MPA line. Pages in no window, unwritten pages and cells have none. -/
def Acc.pageLines (a : Acc) (pg : Nat) : List (Nat × Nat) × Acc :=
  match a.dev.winOf (pg * 4096) with
  | none => ([], a)
  | some w =>
    (List.range 64).foldl (fun (r : List (Nat × Nat) × Acc) i =>
      match r.2.lineAt w (pg * 64 + i) with
      | (some l, a) => (r.1 ++ [(pg * 64 + i, l)], a)
      | (none, a) => (r.1, a)) ([], a)

/-- The upper nodes whose coverage ends in the page that follows the cursor: level and index, lowest first. -/
def Dev.passing (d : Dev) (n pg : Nat) : List (Nat × Nat) :=
  (List.range (d.depth n)).filterMap (fun k =>
    let i := d.leafOf n (pg * 64 + 32) / 8 ^ (k + 1)
    if d.coverEnd n (k + 1) i ≤ pg * 4096 + 4096 then some (k + 1, i) else none)

/-- The nodes that the rotation of a page rewrites, and the parents of them, are in the cache, whatever its capacity, for the rest of the
step; false when one cannot be had. -/
def Acc.rotFetch (a : Acc) (n pg : Nat) : Bool × Acc :=
  let j := a.dev.leafOf n (pg * 64)
  let up := (List.range (a.dev.depth n)).map (fun k => (k + 1, j / 8 ^ (k + 1)))
  let up1 := (List.range (a.dev.depth n)).map (fun k => (k + 1, (j + 1) / 8 ^ (k + 1)))
  (up ++ up1 ++ [((0 : Nat), j), (0, j + 1)]).foldl (fun (r : Bool × Acc) (x : Nat × Nat) =>
    if r.1 then
      match r.2.walk n x.1 x.2 with
      | (.ok _, a) => (true, a)
      | (_, a) => (false, a)
    else r) (true, a)

/-- The data of a cached node. -/
def Dev.cached (d : Dev) (n k i : Nat) : Nat :=
  match tfind d.sec.nodes (d.nodeLine n k i) with
  | some c => c.data
  | none => 0

/-- A node is rewritten under the new key: GEN inverted, its parent counter 0. The cursor has passed it. -/
def Acc.rotNode (a : Acc) (n k i v : Nat) : Acc :=
  let v := wordPut v 506 1 (a.dev.nodeGen n k i)
  let a := if a.dev.depth n ≤ k then a.upd (fun d => d.setRoot n i 0) else (a.parentCtr n k i (fun _ => 0)).2
  a.writeNode n k i v 0

/-- Step 3 of Table 7.11. -/
def Acc.rotNodes (a : Acc) (n pg : Nat) (up : List (Nat × Nat)) : Acc :=
  let j := a.dev.leafOf n (pg * 64)
  let a := [j, j + 1].foldl (fun (a : Acc) i =>
    let v := a.dev.cached n 0 i
    let a := if leafQuar v then a.upd (fun d => d.quarLeaf n i false) else a
    a.rotNode n 0 i (leafNode 0 0 (nodeFlags v % 2))) a
  up.foldl (fun (a : Acc) x => a.rotNode n x.1 x.2 (a.dev.cached n x.1 x.2)) a

/-- Step 5 of Table 7.11. -/
def Dev.rotEnd (d : Dev) (n : Nat) : Dev :=
  let h := tget (fun _ => (0, 0)) d.sec.newHw n
  let key := d.keyBytes n 1
  let d := { d.putKey n 0 key with sec := { (d.putKey n 0 key).sec with keys := tdel (d.putKey n 0 key).sec.keys (2 * n + 1), newHw := tdel d.sec.newHw n } }
  let d := (d.setFlag (fSEC_KR_STS_GEN n) (!d.flag (fSEC_KR_STS_GEN n))).setFlag (fSEC_KR_STS_EXH n) false
  let d := ((d.set (fSEC_KR_MHW_MHW n) h.1).set (fSEC_KR_CHW_CHW n) h.2).setFlag (fSEC_KR_STS_NEXT_LOADED n) false
  (d.set (fSEC_KR_KCV_KCV n) (kcvOf key)).set (fSEC_KR_STS_STATE n) 3

/-- Step 2 of Table 7.11, first half: the stored lines of a list are opened under the old key; none after a halt. -/
def Acc.rotRead (a : Acc) (src : Nat) (ls : List (Nat × Nat)) (opn : Nat → Acc → Nat → Opened × Acc) : Option (List (Nat × Nat × Again)) × Acc :=
  ls.foldl (fun (r : Option (List (Nat × Nat × Again)) × Acc) x =>
    match r with
    | (some l, a) =>
      match a.again src x.1 x.2 (opn x.1) with
      | (.halt, a) => (none, a)
      | (y, a) => (some (l ++ [(x.1, x.2, y)]), a)
    | (none, a) => (none, a)) (some [], a)

/-- Step 2, second half: the lines are sealed under the new key, or marked. -/
def Acc.rotWrite (a : Acc) (src : Nat) (ls : List (Nat × Nat × Again)) (shut : Nat → Acc → Nat → Codeword × Acc) : Acc :=
  ls.foldl (fun (a : Acc) x => match x.2.2 with
    | .data v => let r := shut x.1 a v; r.2.wrQueued x.2.1 src r.1
    | .mark r => a.wrQueued x.2.1 src (markerWord r)
    | _ => a) a

/-- The stored lines of the cell of a page: the DPA line whose tag entry is its own (R164), and MPA line. -/
def Acc.pageCell (a : Acc) (pg : Nat) : List (Nat × Nat) × Acc :=
  match a.dev.winOf (pg * 4096) with
  | none => ([], a)
  | some w =>
    if a.dev.winTiered w then
      let r := a.pent w pg
      (if peState r.1 = 2 then (List.range (8 * (peCls r.1 + 1))).map (fun j => (pg * 64 + j, r.2.dev.cellLine r.1 j)) else [], r.2)
    else ([], a)

/-- Steps 3 to 5 of Table 7.11 for a page whose stored lines, in line form and of its cell, have been opened. -/
def Acc.rotDone (a : Acc) (n pg : Nat) (l c : List (Nat × Nat × Again)) : Acc :=
  let up := a.dev.passing n pg
  let a := a.upd (fun d => d.set (fSEC_KR_ROTCUR_CURSOR n) (pg * 4096 + 4096))
  let a := if a.dev.krFresh n then a.rotNodes n pg up else a
  let a := a.rotWrite 0 l (fun dl a v => a.sealWith n 1 dl v 0 0)
  let a := (a.rotWrite 1 c (fun dl a v => a.sealCell n 1 pg (dl % 64) v 0)).trimNodes 32
  if a.dev.krBase n + a.dev.krSize n ≤ pg * 4096 + 4096 then a.upd (fun d => d.rotEnd n) else a

/-- Steps 2 to 5 of Table 7.11 for the page at the cursor, once its counters can be had. -/
def Acc.rotPage (a : Acc) (n : Nat) : Acc :=
  let pg := a.dev.get (fSEC_KR_ROTCUR_CURSOR n) / 4096
  let had := fun (a : Acc) => if a.dev.krFresh n then a.rotFetch n pg else (true, a)
  let f := had a
  if !f.1 then f.2
  else
    let ls := f.2.pageLines pg
    match ls.2.rotRead 0 ls.1 (fun dl a v => a.openWith n 0 dl v 4) with
    | (none, a) => a
    | (some l, a) =>
      let cs := a.pageCell pg
      match cs.2.rotRead 1 cs.1 (fun dl a v => a.openCell n 0 pg (dl % 64) v 4) with
      | (none, a) => a
      | (some c, a) =>
        let g := had a
        if g.1 then g.2.rotDone n pg l c else g.2

/-- R181: the page at ROTCUR is rotated, once its slice can lock it and none of its counters is being rebuilt. -/
def execRotationStep (n : KeyRange) : State → Result :=
  runAcc (fun a => a.when (a.dev.krState n.toNat == 4 && !a.dev.halted && a.dev.pageQuiet (a.dev.get (fSEC_KR_ROTCUR_CURSOR n.toNat) / 4096))
    (fun a => a.underKr n.toNat (fun a => a.rotPage n.toNat)))

/-! ### Rebuild of a quarantined subtree (R186) -/

/-- The values that a rebuild gives, above all that the range has written: its high-water marks plus 1. -/
def Dev.quarStart (d : Dev) (q : Quar) : Quar :=
  let h := tget (fun _ => (0, 0)) d.sec.newHw q.n
  { q with ctr := max (d.get (fSEC_KR_CHW_CHW q.n)) h.2 + 1, maj := max (d.get (fSEC_KR_MHW_MHW q.n)) h.1 + 1 }

/-- The children of node i of level k + 1. -/
def Dev.kids (d : Dev) (n k i : Nat) : Nat := min 8 (levelCount (d.leaves n) k - 8 * i)

/-- One node of a subtree is rewritten under its parent's counter; a leaf then stands QUAR, and counts as it did as lost. -/
def Acc.rebuildNode (a : Acc) (q : Quar) (pc : Nat) : Acc :=
  let k := q.curLevel
  let i := q.curIdx
  let gen := 4 * a.dev.nodeGen q.n k i
  let v := if k = 0 then leafNode q.maj 0 (2 + gen) else upperNode (a.dev.kids q.n (k - 1) i) q.ctr gen
  let used := fun (d : Dev) =>
    if k = 0 then
      let d := { d with sec := { d.sec with qleaf := (d.sec.qleaf ++ [(q.n, i)]).eraseDups } }
      if majorMax ≤ q.maj then d.exhaust q.n else d
    else d.ctrUsed q.n q.ctr
  ((a.writeNode q.n k i v pc).upd used).trimNodes 2

/-- The next node of the subtree, top down; none after the last. -/
def Dev.quarNext (d : Dev) (q : Quar) : Option Quar :=
  let w := 8 ^ (q.level - q.curLevel)
  let last := min ((q.idx + 1) * w) (levelCount (d.leaves q.n) q.curLevel)
  if q.curIdx + 1 < last then some { q with curIdx := q.curIdx + 1 }
  else if q.curLevel = 0 then none
  else some { q with curLevel := q.curLevel - 1, curIdx := q.idx * (w * 8) }

/-- The first subtree of a range is replaced by its next stage, or its rebuild ends and waiting writes go on. -/
def Acc.quarStep (a : Acc) (q : Quar) (next : Option Quar) : Acc :=
  let others := a.dev.sec.quar.filter (fun (p : Quar) => !(p.n == q.n && p.level == q.level && p.idx == q.idx))
  match next with
  | some p => a.upd (fun d => { d with sec := { d.sec with quar := [p] ++ others } })
  | none =>
    let lo := (a.dev.krBase q.n + q.idx * 8 ^ q.level * 2048) / 64
    let hi := a.dev.coverEnd q.n q.level q.idx / 64
    (a.upd (fun d => { d with sec := { d.sec with quar := others } })).wakeLines (fun dl => decide (lo ≤ dl) && decide (dl < hi))

/-- R186: one node of the first quarantined subtree of a range is rewritten. -/
def Acc.rebuildStep (a : Acc) (n : Nat) : Acc :=
  match a.dev.sec.quar.find? (fun q => q.n == n) with
  | none => a
  | some q =>
    if q.curLevel = q.level then
      let q := a.dev.quarStart q
      match a.parentCtr n q.level q.idx (· + 1) with
      | (some pc, a) => (a.rebuildNode q pc).quarStep q (a.dev.quarNext q)
      | (none, a) => a
    else (a.rebuildNode q q.ctr).quarStep q (a.dev.quarNext q)

/-- R186. -/
def execTreeRebuildStep (n : KeyRange) : State → Result :=
  runAcc (fun a => a.when (a.dev.krUsable n.toNat) (fun a => a.underKr n.toNat (fun a => a.rebuildStep n.toNat)))

end Sys2Proof.Machine
end

