-- ==== Sys2Proof/Machine/Tiering.lean ====
section
/-! DEFINITION. Tiered pages at work (08_compression_tiering.md R199 to R226): decodes, re-encodes, the migrator, the scanner, the
discard sweeper, sweeps and rebuilds, and the capacity commands. -/

namespace Sys2Proof.Machine

/-! ### Page transactions (R85, R210) -/

/-- Requests that waited for room or for the counters are tried again (R209, R226). -/
def Acc.retryTier (a : Acc) : Acc :=
  let l := a.dev.tier.waits
  (a.upd (fun d => { d with tier := { d.tier with waits := [] } })).retryInOrder l

/-- A page transaction of a page of a tiered window: it runs when the page's slice can take it up, then waiting requests go on. -/
def Acc.pageTx (a : Acc) (pg : Nat) (f : Nat → Acc → Acc) : Acc :=
  match a.dev.winOf (pg * 4096) with
  | some w =>
    a.when (a.dev.winTiered w && a.dev.krUsable (a.dev.winKr w) && a.dev.pageQuiet pg && !a.dev.tier.rebuild && !a.dev.win.faulted.contains w)
      (fun a => a.underKr (a.dev.winKr w) (fun a => (f w a).retryTier))
  | none => a

/-! ### Sub-block decodes (R22, R202, R208) -/

/-- The waiting reads of a sub-block end, each with its line. -/
def Dev.endDecode (d : Dev) (x : Nat) (data : Nat → PLine) : Dev :=
  (d.home.trans.filter (fun t => t.wait = .decode && t.line / 16 == x)).foldl (fun d t => d.endRead t (data (t.line % 16)) true) d

/-- The decoded sub-block fills its entry: lines that are dirty stay. Where no way can take it, the reads are served without a fill. -/
def Dev.decodeFill (d : Dev) (x cls : Nat) (lines : List LineData) : Dev :=
  match d.hlcEnt x with
  | some h => d.hlcPut x (h.fill lines)
  | none => (d.hlcAlloc cls ((HEnt.empty x).fill lines)).getD d

/-- The decoded lines of a sub-block, with the reason of all of them: they fill its entry unless they are poison, and the waiting reads
end. -/
def Dev.decoded (d : Dev) (x cls : Nat) (l : List PLine) : Dev :=
  let d := if l.all (·.2 == 0) then d.decodeFill x cls (l.map (·.1)) else d
  let m := HEnt.over (d.hlcEnt x) l
  d.endDecode x (fun i => m.getD i (0, 0))

/-- A decode ends: its stored lines are verified, decrypted and decoded (R202), and an error that the command names is met on the way. A
page that is no longer coded so serves what it holds. -/
def Acc.decodeDone (a : Acc) (x : Nat) (f : DecodeFault) : Acc :=
  let pg := x / 4
  let a := a.upd (fun d => { d with tier := { d.tier with decoding := d.tier.decoding.filter (· != x) } })
  match a.dev.winOf (pg * 4096) with
  | none => a
  | some w =>
    let t := a.dev.home.trans.find? (fun t => t.wait = .decode && t.line / 16 == x)
    let q := (t.map (·.req)).getD { head := 0, op := .rd .i, cls := 8 }
    let source := if q.org = .host && t.isSome then 0 else 1
    let r := (a.serving q).pent w pg
    let e := r.1
    let a := r.2
    let n := a.dev.winKr w
    let bad := fun (d : Dev) => d.decoded x q.cls (List.replicate 16 (0, poisonMedia))
    if peState e != 2 || peCls e == 7 then
      match a.newestSub w pg e (x % 4) source with
      | (some l, a) => a.upd (fun d => d.endDecode x (fun i => l.getD i (0, 0)))
      | (none, a) => a
    else
      match f with
      | .none =>
        match a.farSub w pg e (x % 4) true source with
        | (some l, a) => a.upd (fun d => d.decoded x q.cls l)
        | (none, a) => a
      | .malformed => a.upd (fun d => bad (d.malformed pg (x % 4)))
      | .uncorrectable =>
        a.upd (fun d => bad (d.eccBad (d.cellLine e ((subRange (peCls e) (peSb e) (x % 4)).headD 0)) 1 (some (pg * 4096 + x % 4 * 1024)) q.head false))
      | .tagMismatch =>
        if a.dev.krMode n = 1 then a.upd (fun d => bad (d.malformed pg (x % 4))) else a.upd (fun d => d.haltNow 1 n source (pg * 4096) false)

/-- R22, R202. -/
def execSubBlockDecodeDone (x : BitVec 36) (f : DecodeFault) : State → Result :=
  runAcc (fun a => a.when (a.dev.tier.decoding.contains x.toNat) (fun a => a.decodeDone x.toNat f))

/-! ### Re-encodes (R209) -/

/-- Encoding runs: outside Basic service, or while its entry writes dirty entries out (R225). -/
def Dev.encodes (d : Dev) : Bool := !d.basic || d.flt.basicStep == 1

/-- R209: the page of the oldest queued victim of a bank is re-encoded; in an exhausted range it waits for the rotation (R179, log entry
82). -/
def execPageReencode (bank : BitVec 2) : State → Result :=
  runAcc (fun a => match a.dev.tier.reQ.find? (fun e => hlcBank (e.x / 4) == bank.toNat) with
    | some e => a.when a.dev.encodes (fun a => a.pageTx (e.x / 4) (fun w a =>
        if a.dev.krExh (a.dev.winKr w) then a else a.reencode w (e.x / 4)))
    | none => a)

/-! ### The migrator (R211, R212, R221) -/

/-- The migrator moves pages: outside Basic service, in no exhausted range (R179), the page not copied by a head (R95). -/
def Acc.mayMove (a : Acc) (w pg : Nat) : Bool := !a.dev.basic && !a.dev.krExh (a.dev.winKr w) && a.pageFree w pg

/-- R211: a FAR page goes to a frame of the tier pool; without one the promotion is skipped. -/
def Acc.promote (a : Acc) (w pg : Nat) : Acc :=
  let r := a.pent w pg
  let a := r.2
  if peState r.1 = 2 ∧ a.mayMove w pg = true then
    match a.poolFrame with
    | (some f, a) =>
      match a.farPage w pg r.1 1 with
      | (some l, a) => (a.intoNear w pg f l r.1 (peAcc r.1)).2.upd (fun d => d.pmu (36 + hlcBank pg) 0x54 0 8 1)
      | (none, a) => a
    | (none, a) => a
  else a

/-- R211, R220: a queued promotion runs while the level is GREEN. -/
def execPromote (page : BitVec 34) : State → Result :=
  let pg := page.toNat
  runAcc (fun a => a.when (a.dev.tier.promoQ.contains pg && a.dev.flag fCDC_CTL_MIG_EN && !a.dev.basic && a.dev.get fCDC_LEVEL_LEVEL == 0) (fun a =>
    a.pageTx pg (fun w a =>
      (a.upd (fun d => { d with tier := { d.tier with promoQ := d.tier.promoQ.filter (· != pg) } })).promote w pg)))

/-- R212: the demotion threshold of the level. -/
def Dev.demoteBelow (d : Dev) : Nat := if d.get fCDC_LEVEL_LEVEL = 0 then d.get fCDC_THR_DEMOTE_BELOW else d.get fCDC_THR_AMBER_BELOW

/-- R211: a NEAR page is encoded into a cell; C8 and a poisoned line cancel it. -/
def Acc.demote (a : Acc) (w pg e : Nat) : Acc :=
  match a.nearLines w pg (peLoc e / 8) with
  | (none, a) => a
  | (some lines, a) =>
    if lines.any (fun x => x.2 != 0) then a
    else
      let eff := a.dev.effort
      let c := encodePage eff (lines.map (·.1))
      let a := a.upd (fun d => d.pmu (36 + hlcBank pg) 0x52 0 8 1)
      if c.cls = 8 then (a.upd (fun d => d.pmu (36 + hlcBank pg) 0x53 0 8 1)).setPent w pg (wordPut e 2 3 7)
      else
        match a.poolCell c.cls (fun _ => true) true with
        | (some b, a) =>
          let a := (a.intoCell w pg b eff c (lines.map (·.1)) e (peAcc e)).2
          a.upd (fun d => d.pmu (36 + hlcBank pg) 0x55 0 8 1)
        | (none, a) => a

/-- R212: a page that the scanner would demote. -/
def Acc.demotable (a : Acc) (w pg e : Nat) : Bool :=
  peState e == 1 && peCls e == 0 && a.dev.get (fCDC_WPOL_MODE w) == 0 && decide (peAcc e < a.dev.demoteBelow) && a.mayMove w pg

/-- R211. -/
def execDemote (page : BitVec 34) : State → Result :=
  let pg := page.toNat
  runAcc (fun a => a.when (a.dev.flag fCDC_CTL_MIG_EN) (fun a => a.pageTx pg (fun w a =>
    let r := a.pent w pg
    r.2.when (r.2.demotable w pg r.1) (fun a => a.demote w pg r.1))))

/-- R211: compaction runs. -/
def Dev.compacts (d : Dev) : Bool :=
  d.flag fCDC_CTL_COMPACT_EN && !d.basic &&
  (d.get fCDC_LEVEL_LEVEL != 0 || decide (d.get fCDC_CELLB_BLOCKS < 8 * d.get fCDC_FRAG_BLOCKS))

/-- R180: a stored line moves unchanged to another place; one on an out slot is lost. -/
def Acc.moveLine (a : Acc) (l m : Nat) : Acc :=
  if a.dev.lineOut l then a.wrQueued m 5 (markerWord poisonMedia) else (a.access l 5 none).wrQueued m 5 (a.line l)

/-- R180: a cell moves unchanged to a block. -/
def Acc.moveCell (a : Acc) (w pg e b : Nat) : Acc :=
  match tfind a.dev.tier.cells (peLoc e) with
  | some c =>
    let a := (List.range (8 * c.cls)).foldl (fun (a : Acc) j =>
      a.moveLine (a.dev.cellLine e j) (a.dev.redirect (b * 512 + j * 64) / 64)) (a.upd (fun d => d.putCell b c))
    (a.setPent w pg (wordPut e 5 35 b)).upd (fun d => d.dropCell (peLoc e))
  | none => a

/-- R211: a cell of a frame with at most four used blocks moves into a free run of another CELLS frame. -/
def Acc.compact (a : Acc) (w pg : Nat) : Acc :=
  let r := a.pent w pg
  let a := r.2
  let f := peLoc r.1 / 8
  if peState r.1 = 2 ∧ popCount 8 (a.dev.frameOf f).2 ≤ 4 ∧ a.mayMove w pg = true then
    match a.poolCell (peCls r.1 + 1) (· != f) false with
    | (some b, a) => a.moveCell w pg r.1 b
    | (none, a) => a
  else a

/-- R211. -/
def execCompact (page : BitVec 34) : State → Result :=
  runAcc (fun a => a.when a.dev.compacts (fun a => a.pageTx page.toNat (fun w a => a.compact w page.toNat)))

/-- R212: the scanner visits the entry of a page. -/
def Acc.scan (a : Acc) (w pg : Nat) : Acc :=
  let r := a.pent w pg
  let a := r.2.when (r.2.demotable w pg r.1) (fun a => a.demote w pg r.1)
  let s := a.pent w pg
  s.2.setPent w pg (wordPut s.1 58 6 (peAcc s.1 / 2))

/-- R212. -/
def execScannerVisit (page : BitVec 34) : State → Result :=
  runAcc (fun a => a.when (a.dev.flag fCDC_CTL_MIG_EN && a.dev.get fCDC_MIG_SCAN_S != 0 && !a.dev.basic) (fun a =>
    a.pageTx page.toNat (fun w a => a.scan w page.toNat)))

/-- R180: the stored lines of a NEAR page move unchanged to another frame. -/
def Acc.moveFrame (a : Acc) (w pg e f : Nat) : Acc :=
  let a := (List.range 64).foldl (fun (a : Acc) i =>
    a.moveLine (a.dev.redirect (peLoc e * 512 + i * 64) / 64) (a.dev.redirect (f * 4096 + i * 64) / 64)) a
  let a := a.upd (fun d => d.setFrame f 1 pg)
  (a.setPent w pg (wordPut e 5 35 (8 * f))).upd (fun d => d.freeStorage e)

/-- R221: at GREEN a page held in a reserve frame moves to the tier pool. -/
def Acc.reserveReturn (a : Acc) (w pg : Nat) : Acc :=
  let r := a.pent w pg
  let e := r.1
  let a := r.2
  if a.dev.tierHi ≤ peLoc e / 8 ∧ a.mayMove w pg = true then
    if peState e = 1 then
      match a.poolFrame with
      | (some f, a) => a.moveFrame w pg e f
      | (none, a) => a
    else if peState e = 2 then
      match a.poolCell (peCls e + 1) (fun _ => true) true with
      | (some b, a) => a.moveCell w pg e b
      | (none, a) => a
    else a
  else a

/-- R221. -/
def execReserveReturn (page : BitVec 34) : State → Result :=
  runAcc (fun a => a.when (a.dev.get fCDC_LEVEL_LEVEL == 0) (fun a => a.pageTx page.toNat (fun w a => a.reserveReturn w page.toNat)))

/-! ### The discard sweeper (R222) -/

/-- Table 8.7: the sweeper may drop pages of window w at the level. -/
def Dev.sweeps (d : Dev) (w : Nat) : Bool :=
  let l := d.get fCDC_LEVEL_LEVEL
  d.winKind w == 2 && (l == 2 || (l == 1 && d.flag (fCDC_WPOL_DROP_AT w)))

/-- R222: a page of a window that the sweeper may drop now: its entry. -/
def Acc.droppable (a : Acc) (pg : Nat) : Option (Nat × Nat) :=
  match a.dev.winOf (pg * 4096) with
  | some w =>
    let e := (a.pent w pg).1
    if a.dev.sweeps w && a.dev.krUsable (a.dev.winKr w) && (peState e == 1 || peState e == 2) && a.dev.pageQuiet pg && a.pageFree w pg then some (w, e) else none
  | none => none

/-- R222: the order of a page: FAR pages below AMBER_BELOW first, then NEAR pages in ascending ACC; with AMBER_BELOW 0 every page is in
the second group. None for a page that is not dropped. -/
def Acc.dropRank (a : Acc) (pg : Nat) : Option Nat :=
  match a.droppable pg with
  | some (_, e) =>
    let t := a.dev.get fCDC_THR_AMBER_BELOW
    if peState e = 2 ∧ peAcc e < t then some 0 else if peState e = 1 ∨ t = 0 then some (1 + peAcc e) else none
  | none => none

/-- R222: no droppable page comes before one of a rank. -/
def Acc.isNext (a : Acc) (r : Nat) : Bool :=
  let pages := a.dev.tier.cells.map (fun e => e.2.page) ++ a.dev.tier.frames.filterMap (fun e => framePage e.2)
  pages.all (fun p => match a.dropRank p with
    | some x => decide (r ≤ x)
    | none => true)

/-- R222. -/
def execDiscardSweeperDrop (page : BitVec 34) : State → Result :=
  let pg := page.toNat
  runAcc (fun a => a.when (a.dev.flag fCDC_CTL_SWEEP_EN && !a.dev.basic) (fun a =>
    match a.dropRank pg with
    | some r => if a.isNext r then a.pageTx pg (fun w a => a.sweepDrop w pg) else a
    | none => a))

/-! ### Sweeps and rebuilds (R224, R226) -/

/-- The page map names a cell at block b. -/
def Acc.cellNamed (a : Acc) (b : Nat) (c : Cell) : Bool :=
  match a.dev.winOf (c.page * 4096) with
  | some w => let e := (a.pent w c.page).1; peState e == 2 && peLoc e == b
  | none => false

/-- The page map names a frame for a page. -/
def Acc.frameNamed (a : Acc) (f pg : Nat) : Bool :=
  match a.dev.winOf (pg * 4096) with
  | some w => let e := (a.pent w pg).1; a.dev.winTiered w && peState e == 1 && peLoc e == 8 * f
  | none => false

/-- R224 step 4: the frame table follows the page maps, its lines that could not be read are written anew, and what the maps do not name is
freed. -/
def Acc.orphanSweep (a : Acc) : Acc :=
  let cells := a.dev.tier.cells.filter (fun e => a.cellNamed e.1 e.2)
  let frames := a.dev.tier.frames.filterMap (fun e =>
    let m := (cells.filter (fun c => c.1 / 8 == e.1)).foldl (fun m c => m ||| runMask (c.1 % 8) c.2.cls) 0
    if m != 0 then some (e.1, (2, m))
    else match (framePage e.2).filter (a.frameNamed e.1) with
      | some p => some (e.1, (1, p))
      | none => none)
  let a := (List.range a.dev.ftabCount).foldl (fun (a : Acc) i => match a.dev.ftabLine i with
    | some l => if (match a.rdRaw l with | .clean _ => true | _ => false) then a else a.wrMeta l 4 0
    | none => a) a
  a.upd (fun d => ({ d.setFlag fCDC_STS_ORPHAN_SWEEP false with tier := { d.tier with cells := cells, frames := frames } }).recount)

/-- R224. -/
def execOrphanSweep : State → Result :=
  runAcc (fun a => a.when (a.dev.flag fCDC_STS_ORPHAN_SWEEP) (fun a => a.orphanSweep.retryTier))

/-- R226. -/
def execPoolCounterRebuild : State → Result :=
  runAcc (fun a => a.when a.dev.tier.rebuild (fun a => a.poolRebuild.retryTier))

/-! ### The capacity commands (R48, R213, R214, R220) -/

/-- The four sizes of a CAP_LAYOUT. -/
def layoutIn (c : Pkt) : List Nat := (List.range 4).map (fun i => c.at_ (4 * i) 4)

/-- Units of the frame table of a tier pool and reserve (Table 8.6). -/
def ftabUnits (tier res : Nat) : Nat := ((tier + res) * 512 * 2 + unit2M - 1) / unit2M

/-- R214, R215: the refusal of a CAP_LAYOUT. -/
def Dev.layoutBad (d : Dev) (l : List Nat) : Option (Nat × Nat) :=
  let t := l.getD 1 0
  let r := l.getD 2 0
  firstBad [(!d.images.isEmpty || (List.range 16).any d.krValid, stWinBusy, noDetail), (l.sum + 18 != d.fitted / unit2M, stInvalidField, 16),
    (l.getD 3 0 == 0, stInvalidField, 28), (t != 0 && r < 32, stInvalidField, 24), (t == 0 && r != 0, stInvalidField, 24),
    (l.getD 3 0 < ftabUnits t r, stNoCapacity, noDetail)]

/-- R214: a layout comes into force: every frame is free, and the frame table is allotted. -/
def Dev.setLayout (d : Dev) (l : List Nat) : Dev :=
  let d := (l.zipIdx).foldl (fun d x => d.set (fCDC_LAYOUT_SIZE x.2) x.1) d
  let d := d.setFlag (fCDC_LAYOUT_SET 0) true
  let d := { d with sec := { d.sec with allot := [] }, tier := { d.tier with frames := [], cells := [] } }
  let u := ftabUnits (l.getD 1 0) (l.getD 2 0)
  (if u = 0 then d else d.allotMeta 4 0 d.metaLo u).recount

/-- R214. -/
def execCapLayout (c : Pkt) : State → Result :=
  run (fun d => d.command rowCapLayout c (fun d => d.layoutBad (layoutIn c)) (fun _ d =>
    (.done [] 0, { d.setLayout (layoutIn c) with flash := { d.flash with cfg := { d.flash.cfg with layout := layoutIn c } } }.cdatFollow)))

/-- R220: CAP_THRESHOLDS. -/
def execCapThresholds (c : Pkt) : State → Result :=
  run (fun d => d.command rowCapThresholds c
    (fun _ =>
      let a := c.at_ 0 2
      let r := c.at_ 2 2
      let h := c.at_ 4 2
      firstBad [(a == 0 || a ≤ r || 500 < a, stInvalidField, 16), (r == 0, stInvalidField, 18), (h == 0 || 100 < h, stInvalidField, 20)])
    (fun _ d =>
      let d := ((d.set fCDC_WM_AMBER_PM (c.at_ 0 2)).set fCDC_WM_RED_PM (c.at_ 2 2)).set fCDC_WM_HYST_PM (c.at_ 4 2)
      (.done [] 0, d.relevel.cfgRegs [rCDC_WM])))

/-- R213: CAP_WINDOW_POLICY. -/
def execCapWindowPolicy (c : Pkt) : State → Result :=
  run (fun d => d.command rowCapWindowPolicy c
    (fun d =>
      let n := c.at_ 0 1
      firstBad [(!d.winValid n, stInvalidField, 16), (1 < c.at_ 1 1, stInvalidField, 17), (1 < c.at_ 2 1, stInvalidField, 18),
        (!d.winTiered n || (c.at_ 2 1 == 1 && d.winKind n != 2), stWinIllegal, noDetail)])
    (fun _ d =>
      let n := c.at_ 0 1
      (.done [] 0, ((d.set (fCDC_WPOL_MODE n) (c.at_ 1 1)).set (fCDC_WPOL_DROP_AT n) (c.at_ 2 1)).cfgRegs [rCDC_WPOL n])))

/-- R213: a firmware setting within its limits, lower and upper from place i of the list. -/
def clampIn (lim : List Nat) (i v : Nat) : Nat := max (lim.getD (2 * i) 0) (min v (lim.getD (2 * i + 1) 63))

/-- R213: firmware keeps its tiering settings within the limits. -/
def Dev.keepLimits (d : Dev) : Dev :=
  let l := d.mgt.tierLim
  let thr := fun (d : Dev) (f : Fld) (i : Nat) => d.set f (min 63 (clampIn l i (d.get f)))
  let eff := fun (d : Dev) (f : Fld) (i : Nat) => d.set f (max 1 (min 2 (clampIn l i (d.get f))))
  let d := thr (thr (thr d fCDC_THR_PROMOTE_AT 0) fCDC_THR_DEMOTE_BELOW 1) fCDC_THR_AMBER_BELOW 2
  eff (eff d fCDC_CTL_EFFORT_G 3) fCDC_CTL_EFFORT_A 4

/-- R213: CAP_TIER_LIMITS. -/
def execCapTierLimits (c : Pkt) : State → Result :=
  let lim := (List.range 10).map (fun i => c.at_ i 1)
  run (fun d => d.command rowCapTierLimits c
    (fun _ => firstBad ((List.range 5).map (fun i => (decide (lim.getD (2 * i + 1) 0 < lim.getD (2 * i) 0), stInvalidField, 16 + 2 * i))))
    (fun _ d => (.done [] 0, ({ d with mgt := { d.mgt with tierLim := lim }, flash := { d.flash with cfg := { d.flash.cfg with tierLim := lim } } }).keepLimits)))

/-- A region holds an extent, held or offered, or a window. -/
def Dev.dcExtents (d : Dev) (r : Nat) : Bool :=
  heads.any (fun h => ((d.portOf h).extents ++ (d.portOf h).offers).any (fun e => d.get (fWIN_ENT_W0_DCR e.2.2) == r))
def Dev.dcWindow (d : Dev) (r : Nat) : Bool := d.images.any (fun w => imKind w != 0 && imDcr w == r)

/-- R48: the refusal of a CAP_DC_REGION. -/
def Dev.dcBad (d : Dev) (r code base len : Nat) : Option (Nat × Nat) :=
  let old := tfind d.win.dc r
  let moves := match old with
    | some x => x.1 != base || len < x.2.1
    | none => false
  let recode := match old with
    | some x => x.2.2 != code
    | none => false
  let rest := tdel d.win.dc r
  let low := ((if len = 0 then rest else tins rest r (base, len, code)).map (fun e => e.2.1 * 2 ^ 28)).foldl min (2 ^ 46)
  let top := ((d.images.filter (fun w => imKind w == 0)).map (fun w => (imBase w + imSize w) * unit2M)).foldl max 0
  firstBad [(7 < r, stInvalidField, 16), (2 < code, stInvalidField, 17),
    (len != 0 && (rest.any (fun e => meet base len e.2.1 e.2.2.1) || 2 ^ 18 < base + len), stInvalidField, 20),
    (moves && (d.dcWindow r || d.dcExtents r), stWinBusy, noDetail), (recode && d.dcExtents r, stWinBusy, noDetail),
    (low < top, stWinBusy, noDetail)]

/-- R48: CAP_DC_REGION. -/
def execCapDcRegion (c : Pkt) : State → Result :=
  let r := c.at_ 0 1
  let len := c.at_ 8 4
  let put := fun (t : Tbl (Nat × Nat × Nat)) => if len = 0 then tdel t r else tins t r (c.at_ 4 4, len, c.at_ 1 1)
  run (fun d => d.command rowCapDcRegion c (fun d => d.dcBad r (c.at_ 1 1) (c.at_ 4 4) len) (fun _ d =>
    (.done [] 0, { d with win := { d.win with dc := put d.win.dc }, flash := { d.flash with cfg := { d.flash.cfg with dc := put d.flash.cfg.dc } } }.cdatFollow)))

end Sys2Proof.Machine
end

