-- ==== Sys2Proof/Machine/PairLink.lean ====
section
/-! DEFINITION. The pair link (09_pair_link.md R227 to R253): frames sent and received, replay, key phases, link states, pause and
retrain, lane drops, sleep and wake. -/

namespace Sys2Proof.Machine

/-! ### Conditions and training (R228, R245) -/

/-- R245, R248. -/
def execRetryTimerExpiry : State → Result :=
  run (fun d => d.when (d.linkSt == 0) (fun d => ({ d with pair := { d.pair with retryOk := true } }).tryTrain))

/-- R247: PAIR_PRESENT_N is high. -/
def execPairPresentHigh : State → Result :=
  run (fun d => (({ d with pin := { d.pin with pairPresent := false } }).setFlag fPAIR_STS_PRESENT false).linkDown 13)

/-- R245: PAIR_PRESENT_N is low. -/
def execPairPresentLow : State → Result :=
  run (fun d => (({ d with pin := { d.pin with pairPresent := true } }).setFlag fPAIR_STS_PRESENT true).tryTrain)

/-- R245: a write of PAIR_CTL.EN. While the link sleeps, 1 has the partner woken (R252): a controller that is awake is told nowhere when
it does so (DESIGN CHOICE, log entry 95). -/
def Dev.pairEn (d : Dev) (en : Bool) : Dev :=
  let d := d.setFlag fPAIR_CTL_EN en
  if en then d.tryTrain.wakePartner else d.linkDown 6

/-- R245. -/
def execPairCtlEn (by_ : Writer) (en : Bool) : State → Result := run (fun d => d.writeBy by_ rPAIR_CTL (fun d => d.pairEn en))

/-- The lanes of a mask, at most n of them, in ascending order. -/
def firstLanes (mask n : Nat) : Nat := (((bitsOf 16 mask).take n).map (2 ^ ·)).sum

/-- The lanes and the rate of both directions. -/
def Dev.setLanes (d : Dev) (tx rx : Nat) (slow : Bool) : Dev :=
  let d := (d.set fPAIR_LANE_STS_TX_ACTIVE tx).set fPAIR_LANE_STS_RX_ACTIVE rx
  ((d.set fPAIR_STS_TX_W (popCount 16 tx)).set fPAIR_STS_RX_W (popCount 16 rx)).setFlag fPAIR_STS_RATE slow

/-- R228: the rate that training tries. -/
def Dev.trainsSlow (d : Dev) : Bool := d.flag fPAIR_CTL_RATE_CAP || 2 ≤ d.pair.trainFails

/-- R228: training fails; two failures at the full rate leave it. -/
def Dev.trainFail (d : Dev) : Dev :=
  let n := if d.trainsSlow then d.pair.trainFails else d.pair.trainFails + 1
  { (d.linkDown 9) with pair := { (d.linkDown 9).pair with trainFails := n } }

/-- R228: both directions have trained: the link enters SETUP, or too few lanes trained. The requester of the session is the
controller whose ROLE is 0 (R356). -/
def Dev.trained (d : Dev) (tx rx : Nat) (slow : Bool) : Dev :=
  if popCount 16 tx < 4 ∨ popCount 16 rx < 4 then d.trainFail
  else
    let d := (d.setLanes tx rx slow).set fPAIR_STS_STATE 2
    let d := (List.range 4).foldl (fun d v => d.set (fPAIR_VC_AVAIL v) (d.get (fPAIR_VC_LIMIT v))) d
    let d : Dev := { d with pair := { d.pair with trainFails := 0 } }
    if d.mir.pairing.isSome ∧ d.get fPAIR_STS_ROLE = 0 then d.spdmSend else d

/-- R228. -/
def execPairTrainingDone (tx rx : BitVec 16) (slow : Bool) : State → Result :=
  run (fun d => d.when (d.linkSt == 1 && d.trainsSlow == slow) (fun d => d.trained tx.toNat rx.toNat slow))

/-- R245. -/
def execTrainTimeout : State → Result := run (fun d => d.when (d.linkSt == 1) Dev.trainFail)

/-- R245. -/
def execSetupTimeout : State → Result := run (fun d => d.when (d.linkSt == 2) (fun d => d.linkDown 8))

/-- Frames flow. -/
def Dev.framing (d : Dev) : Bool := d.linkSt == 2 || d.linkSt == 3

/-- R249: this controller's PAUSE_ACK has left, and the partner is to stop. -/
def Dev.pauseSent (d : Dev) : Bool := d.linkUp && d.pair.pause == 2 && d.pair.pauseSeq.isSome

/-- R249: the link enters PAUSED; AVAIL reads 0, and the credits stand. -/
def Dev.enterPaused (d : Dev) : Dev :=
  let c := (List.range 4).foldl (fun (t : Tbl Nat) v => setCnt t v (d.get (fPAIR_VC_AVAIL v))) []
  (List.range 4).foldl (fun (d : Dev) v => d.set (fPAIR_VC_AVAIL v) 0) ({ d with pair := { d.pair with credits := c } }.set fPAIR_STS_STATE 4)

/-- R249: this controller pauses once its PAUSE_ACK is acknowledged. The rule has both controllers pause when the partner accepts it, and
says not how this one learns of that: an ACK, lost lock, or the end of the retrain tells it (DESIGN CHOICE, log entry 90). -/
def Dev.pauseCheck (d : Dev) : Dev :=
  match d.pair.pauseSeq with
  | some s => if d.pauseSent && !d.pair.outst.any (fun f => f.seq == s) then d.enterPaused else d
  | none => d

/-- R247, cause 1; after PAUSE_ACK the partner's retraining (R249). -/
def execLockLoss : State → Result := run (fun d => d.when d.framing (fun d => if d.pauseSent then d.enterPaused else d.linkDown 1))

/-- Credits of a virtual channel that a frame may take: one of VC2 is kept for HALT (Table 9.4). -/
def Dev.credit (d : Dev) (v : Nat) : Nat := d.get (fPAIR_VC_AVAIL v) - (if v = 2 then 1 else 0)

/-- R247, cause 2. -/
def execCreditTimeout (vc : BitVec 2) : State → Result :=
  run (fun d => d.when (d.framing && !(d.txq vc.toNat).isEmpty && d.credit vc.toNat == 0) (fun d => d.linkDown 2))

/-- R257, R245: entry to UP: the shadow is discarded, VC0 is numbered anew, and records of every window, key range and mirror state
are sent. -/
def Dev.enterUp (d : Dev) : Dev :=
  let d := (d.set fPAIR_STS_STATE 3).setFlag fPAIR_MIR_STS_SHADOW_OLD false
  let d := { d with mir := { d.mir with shWin := [], shKr := [], shMst := [], shGot := false, shCur := true, nextNum := 0, applied := 0, unacked := [], apply := [] } }
  let gen := fun (d : Dev) (i : Nat) => d.genOf i
  let d := d.windows.foldl (fun d w => d.sendSrec 0 w (gen d w)) d
  let d := ((List.range 16).filter d.krValid).foldl (fun d n => d.sendSrec 1 n (gen d (256 + n))) d
  ((List.range 256).filter (fun w => d.mirSt w != 0)).foldl (fun d w => d.sendMstate w) d

/-- R245: SETUP ends when the session stands and both directions use its keys. -/
def Dev.tryUp (d : Dev) : Dev := if d.linkSt == 2 && d.pair.session && d.pair.setupTx && d.pair.setupRx then d.enterUp else d

/-! ### Sleep (R251) -/

/-- Both SLEEP messages are acknowledged: the link sleeps, and keeps nothing. -/
def Dev.linkSleep (d : Dev) : Dev :=
  let d := (((d.set fPAIR_STS_STATE 5).set fPAIR_STS_TX_W 0).set fPAIR_STS_RX_W 0).wr rPAIR_LANE_STS 0
  let d := (List.range 4).foldl (fun d v => d.set (fPAIR_VC_AVAIL v) 0) d
  { d with pair := { d.pair with session := false, txKey := none, rxKey := none, rxOld := none, txOld := none, rxNew := none, txNext := none,
                                 spdmIn := none, sleepReq := false, sleepOk := false, sleepAcked := false, rx := [], rxDrop := [], txRestripe := [] } }

/-! ### Messages that have arrived (R238) -/

/-- The oldest message received on a virtual channel. -/
def Dev.rxHead (d : Dev) (v : Nat) : Option PMsg :=
  match tget (fun _ => []) d.pair.rx v with
  | (m :: _) :: _ => some m
  | _ => none

/-- The oldest message of a virtual channel is taken; its frame's buffer is freed with its last message (R238). -/
def Dev.rxTake (d : Dev) (v : Nat) : Dev :=
  let put := fun (l : List (List PMsg)) => { d with pair := { d.pair with rx := tset (fun _ => []) d.pair.rx v l } }
  match tget (fun _ => []) d.pair.rx v with
  | (_ :: []) :: t =>
    let d := put t
    { d with pair := { d.pair with freed := setCnt d.pair.freed v ((cnt d.pair.freed v + 1) % 4096) } }
  | (_ :: ms) :: t => put (ms :: t)
  | _ => d

/-- A command that takes the oldest message of a virtual channel, when it has the type. -/
def Dev.onMsg (d : Dev) (v ty : Nat) (f : PMsg → Dev → Dev) : Dev :=
  match d.rxHead v with
  | some m => if m.mtype = ty then f m (d.rxTake v) else d
  | none => d

/-! ### Sending (R232, R236, R237, R243) -/

/-- The count at which a key may not go on (R244). -/
def keyLimit : Nat := 2 ^ 32 - 2 ^ 24

/-- R244: the first frame first-sent after an exchange uses the new key and toggles the phase, and its count restarts. -/
def Dev.takeKey (d : Dev) : Dev :=
  match d.pair.txNext with
  | some k =>
    let d := d.setFlag fPAIR_STS_KEYPH_TX (!d.flag fPAIR_STS_KEYPH_TX)
    { d with pair := { d.pair with txNext := none, txKey := some k, txCnt := 0, txOld := if d.pair.outst.isEmpty then none else d.pair.txKey,
                                   setupTx := true } }
  | none => d

/-- The header of a frame first-sent now. -/
def Dev.frameHdr (d : Dev) (null : Bool) (v seq : Nat) : FrameHdr :=
  { null := null, vc := v, seq := seq, ack := (d.get fPAIR_SEQ_NEXT_RX + 4095) % 4096, crvc := d.pair.crvc, crtot := cnt d.pair.freed d.pair.crvc,
    keyph := d.get fPAIR_STS_KEYPH_TX, fcnt := d.pair.txCnt % 2 ^ 22 }

/-- The bytes of a frame first-sent now. -/
def Dev.frameNow (d : Dev) (h : FrameHdr) (body : List Byte) : List Byte := (d.pair.txKey.getD setupKey).frame d.pair.txCnt h body

/-- A frame has been first-sent: its count and the cycle of CRVC. -/
def Dev.framed (d : Dev) : Dev := { d with pair := { d.pair with txCnt := d.pair.txCnt + 1, crvc := (d.pair.crvc + 1) % 4 } }

/-- A NULL frame. -/
def Dev.sendNull (d : Dev) : Dev :=
  let d := d.takeKey
  ((d.putFrame (d.frameNow (d.frameHdr true 0 0) (bodyOf []))).pmu 41 0x61 0 8 1).framed

/-- R229: before the lanes stop, NULL frames go on until the codeword with the last bit of what was sent is complete (DEDUCED, log entry
116). -/
def Dev.finishStream (d : Dev) : Dev :=
  if d.pair.str.len = 0 then d else (List.range ((5140 - d.pair.str.len + 2047) / 2048)).foldl (fun (d : Dev) _ => d.sendNull) d

/-- A DATA frame of messages of a virtual channel is first-sent. -/
def Dev.sendData (d : Dev) (v : Nat) (l : List PMsg) : Dev :=
  let d := d.takeKey
  let seq := d.get fPAIR_SEQ_NEXT_TX
  let f := d.frameNow (d.frameHdr false v seq) (bodyOf l)
  let d := (d.set fPAIR_SEQ_NEXT_TX ((seq + 1) % 4096)).bump fPAIR_SEQ_OUTSTANDING 1
  let d := ((d.drop (fPAIR_VC_AVAIL v) 1).putFrame f).pmu 41 0x60 v 8 1
  let fr : PFrame := { seq := seq, vc := v, ph := d.get fPAIR_STS_KEYPH_TX, bytes := f }
  { d with pair := { d.pair with outst := d.pair.outst ++ [fr], sinceVc0 := if v = 0 then 0 else d.pair.sinceVc0 + 1 } }.framed

/-- The waiting messages of a virtual channel that may be first-sent now: only SPDM in SETUP (Table 9.6); after SLEEP_ACK 0 nothing but
it (R251); once a pause is served nothing but PAUSE_ACK (R249); under a SLEEP_REQ only it, answers, and LANE_DROP (R250, R251). -/
def Dev.sendable (d : Dev) (v : Nat) : List PMsg :=
  let q := d.txq v
  let only := fun (l : List Nat) => if v = 2 then (q.find? (fun m => l.contains m.mtype)).toList else []
  if d.linkSt = 2 then (if v = 2 then q.filter (fun m => m.mtype == 0x20) else [])
  else if d.pair.sleepAcked then only [0x25]
  else if d.pair.pause = 2 then only [0x22]
  else if d.pair.sleepReq then only [0x22, 0x23, 0x24, 0x25]
  else q

/-- A virtual channel has a message and a credit. -/
def Dev.vcReady (d : Dev) (v : Nat) : Bool := !(d.sendable v).isEmpty && d.credit v != 0 && d.pair.outst.length < 2047

/-- R236: the virtual channel of the next DATA frame: VC1, VC2, VC3, VC0, but VC0 at least once in four. -/
def Dev.nextVc (d : Dev) : Option Nat :=
  if d.vcReady 0 && 3 ≤ d.pair.sinceVc0 then some 0 else [1, 2, 3, 0].find? d.vcReady

/-- R244: a frame is replayed as it was first sent. -/
def Dev.resend (d : Dev) (f : PFrame) : Dev := (d.putFrame f.bytes).pmu 41 0x62 0 8 1

/-- Messages of a virtual channel that fit a frame leave in one; the frame with a PAUSE_ACK is marked (R249). -/
def Dev.sendSome (d : Dev) (v : Nat) : Dev :=
  let l := fitting 240 (d.sendable v)
  let seq := d.get fPAIR_SEQ_NEXT_TX
  let d := (d.setTxq v (l.foldl List.erase (d.txq v))).sendData v l
  if l.any (fun m => m.mtype == 0x22) then { d with pair := { d.pair with pauseSeq := some seq } } else d

/-- R237, R253: the HALT message leaves with VC2's reserved credit, and the link goes down. -/
def Dev.sendHalt (d : Dev) (cause : Nat) : Dev :=
  let d := (d.sendData 2 [pmsg 0x26 (leOf 1 cause)]).finishStream.linkDown 7
  { d with pair := { d.pair with held := true } }

/-- R236: one frame slot. -/
def Dev.frameSlot (d : Dev) : Dev :=
  let d := d.restripe
  if keyLimit ≤ d.pair.txCnt && d.pair.txNext.isNone then d.linkDown 11
  else
    match d.pair.replay.filterMap (fun s => d.pair.outst.find? (fun f => f.seq == s)) with
    | f :: _ => ({ d with pair := { d.pair with replay := (d.pair.replay.dropWhile (· != f.seq)).drop 1 } }).resend f
    | [] =>
      let d := { d with pair := { d.pair with replay := [] } }
      match d.pair.halt with
      | some c => if d.pair.outst.length < 2047 ∧ d.get (fPAIR_VC_AVAIL 2) ≠ 0 then d.sendHalt c else d.sendNull
      | none =>
        let d := match d.nextVc with
          | some v => d.sendSome v
          | none =>
            let d := d.sendNull
            if d.pair.sleepOk && d.pair.outst.isEmpty then d.finishStream.linkSleep else d
        d.tryUp

/-- R236. -/
def execFrameSlotSend : State → Result := run (fun d => d.when d.framing Dev.frameSlot)

/-- R243. While the partner's pause is awaited, expiries resend and do not count (log entry 90). -/
def Dev.replayExpiry (d : Dev) : Dev :=
  let d := d.bumpSat fPAIR_ERRCNT0_REPLAYS 1
  let m := d.get fPAIR_TMR1_REPLAY_MAX
  let d := { d with pair := { d.pair with expiries := if d.pauseSent then d.pair.expiries else d.pair.expiries + 1
                                          replay := d.pair.outst.map (fun (f : PFrame) => f.seq) } }
  if (if m = 0 then 15 else m) ≤ d.pair.expiries then d.linkDown 3 else d

/-- R243. -/
def execReplayTimerExpiry : State → Result := run (fun d => d.when (d.framing && !d.pair.outst.isEmpty) Dev.replayExpiry)

/-- A key and an IV base that a handshake or a KEY_UPDATE gives a direction: free values (DESIGN CHOICE, log entry 94: R193 speaks of the
session's IV base). -/
def Dev.newPairKey (d : Dev) : PKey × Dev := (⟨(Config.pairKey d.freeN).toNat, (Config.pairIv d.freeN).toNat⟩, { d with freeN := d.freeN + 1 })

/-- R244: an SPDM KEY_UPDATE of a direction is complete. -/
def Dev.keyUpdate (d : Dev) (rx : Bool) : Dev :=
  let ok := d.linkUp && d.fwUp && (if rx then d.pair.rxNew.isNone else d.pair.txNext.isNone && 2 ^ 31 ≤ d.pair.txCnt)
  if ok then
    let k := (d.bumpSat fSEC_PAIR_STS_KEY_EPOCH 1).spdmSend.newPairKey
    let d := k.2
    if rx then { d with pair := { d.pair with rxNew := some k.1 } } else { d with pair := { d.pair with txNext := some k.1 } }
  else d

/-- R244. -/
def execKeyUpdate (rx : Bool) : State → Result := run (fun d => d.keyUpdate rx)

/-! ### Receiving (R239 to R242) -/

/-- The count of a frame: the value near H with the low bits FCNT. -/
def recount22 (h fcnt : Nat) : Nat :=
  if h < 2 ^ 21 then (if fcnt < h + 2 ^ 21 then fcnt else 0)
  else (h - 2 ^ 21) + (fcnt + 2 ^ 22 - (h - 2 ^ 21) % 2 ^ 22) % 2 ^ 22

/-- R194: a frame fails its check; eight in 1 ms take the link down. -/
def Dev.gcmFail (d : Dev) : Dev :=
  let d := d.bumpSat fSEC_PAIR_STS_GCMFAIL 1
  let t := (d.pair.gcmTimes.filter (fun x => d.now < x + 1000000)) ++ [d.now]
  let d := { d with pair := { d.pair with gcmTimes := t } }
  if 8 ≤ t.length then
    (({ d with pair := { d.pair with gcmTimes := [] } }).raise { src := src 31 14, sev := 3, code := 194 }).linkDown 5
  else d

/-- R241: a fresh ACK; none for a protocol error. -/
def Dev.applyAck (d : Dev) (ack : Nat) : Option Dev :=
  let n := (ack + 4096 - d.get fPAIR_SEQ_ACKED) % 4096
  if d.pair.outst.length < n then none
  else if n = 0 then some d
  else
    let gone := (d.pair.outst.take n).map (fun (f : PFrame) => f.seq)
    let left := d.pair.outst.drop n
    let d := (d.set fPAIR_SEQ_ACKED ack).drop fPAIR_SEQ_OUTSTANDING n
    let ph := d.get fPAIR_STS_KEYPH_TX
    let d := { d with pair := { d.pair with outst := left, replay := d.pair.replay.filter (fun s => !gone.contains s), expiries := 0,
                                            txOld := if left.any (fun f => f.ph != ph) then d.pair.txOld else none } }
    some (if d.pair.sleepAcked && left.isEmpty then d.finishStream.linkSleep else d)

/-- R242: a fresh credit total; none for a protocol error. -/
def Dev.applyCredit (d : Dev) (v tot : Nat) : Option Dev :=
  let n := (tot + 4096 - cnt d.pair.ret v) % 4096
  if d.get (fPAIR_VC_LIMIT v) - d.get (fPAIR_VC_AVAIL v) < n then none
  else some (({ d with pair := { d.pair with ret := setCnt d.pair.ret v tot } }).bump (fPAIR_VC_AVAIL v) n)

/-- H after a fresh frame; the first of a new phase switches the receiver (R244). -/
def Dev.applyFresh (d : Dev) (newPh : Bool) (c : Nat) : Dev :=
  if newPh then
    let d := d.setFlag fPAIR_STS_KEYPH_RX (!d.flag fPAIR_STS_KEYPH_RX)
    { d with pair := { d.pair with rxOldH := d.pair.rxH, rxOld := d.pair.rxKey, rxKey := d.pair.rxNew, rxNew := none, rxH := c, rxAny := true,
                                   setupRx := true } }
  else { d with pair := { d.pair with rxH := c, rxAny := true } }

/-- R239: a DATA frame in order: its messages enter the buffer of its virtual channel; an empty body frees it at once. -/
def Dev.acceptBody (d : Dev) (h : FrameHdr) (body : List Byte) : Dev :=
  let v := h.vc
  let q := tget (fun _ => []) d.pair.rx v
  match parseBody v 240 body with
  | none => d.linkDown 4
  | some ms =>
    if d.get (fPAIR_VC_LIMIT v) ≤ q.length then d.linkDown 4
    else
      let d := d.set fPAIR_SEQ_NEXT_RX ((d.get fPAIR_SEQ_NEXT_RX + 1) % 4096)
      let d := if d.get fPAIR_STS_KEYPH_RX = h.keyph then { d with pair := { d.pair with rxOld := none } } else d
      if ms.isEmpty then { d with pair := { d.pair with freed := setCnt d.pair.freed v ((cnt d.pair.freed v + 1) % 4096) } }
      else { d with pair := { d.pair with rx := tset (fun _ => []) d.pair.rx v (q ++ [ms]) } }

/-- R239 after the check of a frame. -/
def Dev.sequence (d : Dev) (h : FrameHdr) (body : List Byte) : Dev :=
  if h.null then d
  else
    let k := (h.seq + 4096 - d.get fPAIR_SEQ_NEXT_RX) % 4096
    if k = 0 then d.acceptBody h body
    else if 2048 ≤ k then (d.bumpSat fPAIR_ERRCNT0_DUP 1).pmu 41 0x63 0 8 1
    else (d.bumpSat fPAIR_ERRCNT0_GAP 1).pmu 41 0x63 0 8 1

/-- Which key phase a frame belongs to: the current one, the one that follows, the one before. -/
inductive RxPhase where
  | cur | new | old
deriving DecidableEq, Repr

/-- R239: the phase, key and count of a frame; none where the key of its KEYPH is not held. -/
def Dev.frameKey (d : Dev) (h : FrameHdr) : Option (RxPhase × PKey × Nat) :=
  if d.get fPAIR_STS_KEYPH_RX = h.keyph then d.pair.rxKey.map (fun k => (.cur, k, recount22 d.pair.rxH h.fcnt))
  else
    match d.pair.rxNew with
    | some k => some (.new, k, recount22 0 h.fcnt)
    | none => d.pair.rxOld.map (fun k => (.old, k, recount22 d.pair.rxOldH h.fcnt))

/-- R239: the fields and the body of a frame that has verified; the link fields count only where it is fresh (R240). -/
def Dev.verified (d : Dev) (h : FrameHdr) (body : List Byte) (ph : RxPhase) (c : Nat) : Dev :=
  if ph = .new ∨ (ph = .cur ∧ (!d.pair.rxAny || decide (d.pair.rxH < c)) = true) then
    match d.applyAck h.ack with
    | none => d.linkDown 4
    | some d =>
      if !d.framing then d
      else
        match d.applyCredit h.crvc h.crtot with
        | none => d.linkDown 4
        | some d => if keyLimit ≤ c then d.linkDown 11 else (((d.applyFresh (ph == .new) c).tryUp).sequence h body).pauseCheck
  else d.sequence h body

/-- A frame verifies under the key of its phase. -/
def Dev.frameGood (d : Dev) (f : FrameIn) : Bool :=
  match d.frameKey (inHdr f) with
  | some (_, k, c) => f.fecOk && k.verifies c f.bytes
  | none => false

/-- R239. -/
def Dev.frameIn (d : Dev) (f : FrameIn) : Dev :=
  if !f.fecOk then d.bumpSat fPAIR_ERRCNT0_FEC_UNC 1
  else
    match d.frameKey (inHdr f) with
    | none => (d.bumpSat fPAIR_ERRCNT0_DUP 1).pmu 41 0x63 0 8 1
    | some (ph, k, c) => if k.verifies c f.bytes then d.verified (inHdr f) (k.body c f.bytes) ph c else d.gcmFail

/-- R239; a DATA frame wakes from S1 (R394). -/
def execPairFrameReceive (f : FrameIn) : State → Result :=
  runAcc (fun a => a.when a.dev.framing (fun a =>
    let good := a.dev.frameGood f
    let a := a.upd (fun d => d.frameIn f)
    if good && !(inHdr f).null then a.wake 4 else a))

/-! ### The session (R193, R235, R356) -/

/-- R356: the session is accepted: it used mutual authentication, and SHA-256 of the other's device identity public key is the digest that
MIR_PAIR stored. -/
def Dev.peerOk (d : Dev) (hs : PairHs) (peerKey : Nat) : Bool :=
  match hs, d.mir.pairing with
  | .done m, some r => m && r.2 == ofBytes (sha256 (toBytes 32 peerKey))
  | _, _ => false

/-- R356: a whole SPDM message of the partner. One that establishes the session with the paired partner gives both directions their keys;
firmware answers as the handshake has it, under the key of the setup (DESIGN CHOICE, log entry 109). Whether the message does so is the
command's operand (log entry 94). -/
def Dev.pairSpdmIn (d : Dev) (hs : PairHs) (peerKey : Nat) : Dev :=
  if !d.fwUp then d
  else
    let d := d.spdmSend
    if d.peerOk hs peerKey && d.linkSt == 2 && !d.pair.session then
      let d := d.set fSEC_PAIR_STS_KEY_EPOCH 0
      let t := d.newPairKey
      let r := t.2.newPairKey
      { r.2 with pair := { r.2.pair with session := true, txNext := some t.1, rxNew := some r.1 } }
    else d

/-- R235: a fragment arrives: FIRST begins a message, LAST ends it; one out of order is out of sequence (R247, cause 4). -/
def Dev.spdmFragment (d : Dev) (m : PMsg) (hs : PairHs) (peerKey : Nat) : Dev :=
  let first := (m.at_ 0 1).testBit 0
  let l := d.pair.spdmIn.getD [] ++ m.payload.drop 1
  if first = d.pair.spdmIn.isSome then d.linkDown 4
  else if (m.at_ 0 1).testBit 1 then ({ d with pair := { d.pair with spdmIn := none } }).pairSpdmIn hs peerKey
  else { d with pair := { d.pair with spdmIn := some l } }

/-- R235. -/
def execSpdm (hs : PairHs) (peerKey : BitVec 256) : State → Result :=
  run (fun d => d.onMsg 2 0x20 (fun m d => d.spdmFragment m hs peerKey.toNat))

/-! ### Pause (R249) -/

/-- R249: PAIR_LINK_SET. -/
def execPairLinkSet (c : Pkt) : State → Result :=
  run (fun d => d.command rowPairLinkSet c
    (fun d => firstBad [(c.at_ 0 1 < 4 || 16 < c.at_ 0 1, stInvalidField, 16), (1 < c.at_ 1 1, stInvalidField, 17),
      (!d.linkUp, stPairLinkDown, noDetail), (d.pair.pause != 0, stPairBusy, noDetail)])
    (fun i d =>
      let d := d.pairPush 2 (pmsg 0x21 (leOf 1 (c.at_ 0 1) ++ leOf 1 (c.at_ 1 1)))
      (.runs [c.at_ 0 1, c.at_ 1 1],
        { d with pair := { d.pair with pause := 1, pauseW := c.at_ 0 1, pauseR := c.at_ 1 1, pauseBg := some i } })))

/-- R249: PAUSE_REQ arrives; of two requests the one of the controller with ROLE 0 is served. -/
def Dev.pauseReqIn (d : Dev) (m : PMsg) : Dev :=
  if d.pair.pause = 1 ∧ d.get fPAIR_STS_ROLE = 0 then d
  else
    let d := d.bgDoneOpt d.pair.pauseBg stPairBusy noDetail []
    let q := (d.txq 2).filter (fun x => x.mtype != 0x21)
    let d := (d.setTxq 2 q).pairPush 2 (pmsg 0x22 [])
    { d with pair := { d.pair with pause := 2, pauseW := m.at_ 0 1, pauseR := m.at_ 1 1, pauseBg := none, pauseSeq := none } }

/-- A message of the link's own arrives on VC2 in the state in which it makes sense; else it is out of sequence (R247, cause 4). -/
def Dev.linkMsg (d : Dev) (ty : Nat) (ok : Bool) (f : PMsg → Dev → Dev) : Dev :=
  d.onMsg 2 ty (fun m d => if ok then f m d else d.linkDown 4)

/-- R249. -/
def execPauseReq : State → Result := run (fun d => d.linkMsg 0x21 (d.linkUp && d.pair.pause < 2) (fun m d => d.pauseReqIn m))

/-- R249: PAUSE_ACK arrives: first-sends stop, and the link pauses and retrains. -/
def execPauseAck : State → Result :=
  run (fun d => d.linkMsg 0x22 (d.linkUp && d.pair.pause == 1) (fun _ d =>
    { d with pair := { d.pair with pause := 3 } }.enterPaused))

/-- R249: the retrain is complete: outstanding frames are replayed, then first-sends resume. Drops of lanes that have trained again go on on
both sides (R250), and windows that came to wait for the link during the pause resume (R265). -/
def Dev.pairRetrained (d : Dev) (tx rx : Nat) : Dev :=
  let tx := firstLanes tx d.pair.pauseW
  let rx := firstLanes rx d.pair.pauseW
  if popCount 16 tx < 4 ∨ popCount 16 rx < 4 then d.linkDown 9
  else
    let bg := d.pair.pauseBg
    let d := (d.setLanes tx rx (d.pair.pauseR == 1)).set fPAIR_STS_STATE 3
    let d := (List.range 4).foldl (fun (d : Dev) v => d.set (fPAIR_VC_AVAIL v) (cnt d.pair.credits v)) d
    let d := { d with pair := { d.pair with pause := 0, pauseBg := none, pauseSeq := none, credits := [],
                                            rxDrop := d.pair.rxDrop.filter rx.testBit, txRestripe := d.pair.txRestripe.filter tx.testBit,
                                            replay := d.pair.outst.map (fun (f : PFrame) => f.seq), str := { epoch := d.pair.str.epoch + 1 } } }
    (if d.mir.shGot then d.resumeAll else d).bgDoneOpt bg stSuccess noDetail []

/-- R249. -/
def execPairRetrainDone (tx rx : BitVec 16) : State → Result :=
  run (fun d => d.when (d.linkSt == 4 || d.pauseSent) (fun d => (if d.linkSt = 4 then d else d.enterPaused).pairRetrained tx.toNat rx.toNat))

/-- R249. -/
def execPauseTimeout : State → Result := run (fun d => d.when (d.linkSt == 4 || d.pauseSent) (fun d => d.linkDown 10))

/-! ### Lane drops (R250) -/

/-- R250: a receive lane fails: LANE_DROP goes to the head of VC2, or too few lanes would be left. -/
def Dev.laneFails (d : Dev) (k : Nat) : Dev :=
  let d := { d with pair := { d.pair with rxDrop := d.pair.rxDrop ++ [k] } }
  if d.get fPAIR_STS_RX_W < 4 + d.pair.rxDrop.length then d.linkDown 12
  else (d.setTxq 2 ([pmsg 0x23 (leOf 1 k)] ++ d.txq 2)).raise { src := src 31 0, sev := 3, code := 250, obj := k }

/-- R250: a lane fails that has lost its lock, or whose symbol errors in 1 ms exceed SER_THR; 0 fails none. -/
def Dev.laneBad (d : Dev) (errors : Option Nat) : Bool :=
  match errors with
  | none => true
  | some n => d.get fPAIR_LANE_SER_THR != 0 && decide (d.get fPAIR_LANE_SER_THR < n)

/-- R250. -/
def execLaneFailure (x : LaneLoss) : State → Result :=
  let k := x.lane.toNat
  run (fun d => d.when (d.laneBad (x.errors.map BitVec.toNat) && d.linkUp && d.flag fPAIR_CTL_DROP_EN && d.bit fPAIR_LANE_STS_RX_ACTIVE k &&
    !d.pair.rxDrop.contains k) (fun d => d.laneFails k))

/-- R250: LANE_DROP arrives: a restripe slot is to be sent. -/
def Dev.laneDropIn (d : Dev) (k : Nat) : Dev :=
  if d.bit fPAIR_LANE_STS_TX_ACTIVE k && !d.pair.txRestripe.contains k then
    if d.get fPAIR_STS_TX_W ≤ 4 + d.pair.txRestripe.length then d.linkDown 12
    else { d with pair := { d.pair with txRestripe := d.pair.txRestripe ++ [k] } }
  else d

/-- R250. -/
def execLaneDrop : State → Result := run (fun d => d.linkMsg 0x23 d.linkUp (fun m d => d.laneDropIn (m.at_ 0 1)))

/-- R250: the restripe slot arrives: the failed lane leaves the striping. -/
def Dev.restripeIn (d : Dev) : Dev :=
  match d.pair.rxDrop with
  | k :: t =>
    let d := ({ d with pair := { d.pair with rxDrop := t } }.setBit fPAIR_LANE_STS_RX_ACTIVE k false).bumpSat fPAIR_ERRCNT1_LANE_DROPS 1
    d.set fPAIR_STS_RX_W (popCount 16 (d.get fPAIR_LANE_STS_RX_ACTIVE))
  | [] => d

/-- R250. -/
def execRestripeSlot : State → Result := run (fun d => d.when d.framing Dev.restripeIn)

/-! ### Sleep, wake, halt (R251 to R253) -/

/-- R251, R276: SLEEP_REQ arrives: refused while a window is COPY or INSYNC; else accepted once nothing is queued or outstanding. -/
def Dev.sleepReqIn (d : Dev) : Dev :=
  if (List.range 256).any d.mirLive then d.onMsg 2 0x24 (fun _ d => d.pairPush 2 (pmsg 0x25 (leOf 1 1)))
  else if (List.range 4).all (fun v => (d.txq v).isEmpty) && d.pair.outst.isEmpty then
    d.onMsg 2 0x24 (fun _ d => let d := d.pairPush 2 (pmsg 0x25 (leOf 1 0)); { d with pair := { d.pair with sleepAcked := true } })
  else d

/-- R251. -/
def execSleepReq : State → Result := run (fun d => d.when d.linkUp Dev.sleepReqIn)

/-- R251: SLEEP_ACK arrives. -/
def execSleepAck : State → Result :=
  run (fun d => d.linkMsg 0x25 (d.linkUp && d.pair.sleepReq) (fun m d =>
    if m.at_ 0 1 = 0 then { d with pair := { d.pair with sleepOk := true } }
    else { d with pair := { d.pair with sleepReq := false } }))

/-- R253: HALT arrives. -/
def execPairHalt : State → Result := run (fun d => d.onMsg 2 0x26 (fun _ d => d.linkDown 7))

/-- R252: the wake detector sees the partner's pattern: the pair wake source of a sleeping controller, and TRAIN for an awake one. -/
def Acc.wakeSeen (a : Acc) : Acc :=
  let awake := a.dev.get fPWR_SLEEP_STS_STATE < 2 && a.dev.pwr.entering.isNone
  let a := a.wake 3
  if awake && a.dev.linkSt == 5 then a.upd Dev.enterTrain else a

/-- R252. -/
def execWakePatternDetect : State → Result := runAcc (fun a => a.when (a.dev.linkSt == 5) Acc.wakeSeen)

/-- R252. -/
def execWakePatternEnd : State → Result := run (fun d => d.when (d.linkSt == 5 && d.pair.waking) Dev.enterTrain)

end Sys2Proof.Machine
end

