-- ==== Sys2Proof/Machine/Mirror.lean ====
section
/-! DEFINITION. Mirrored windows (10_mirroring.md R254 to R277): pairing and targets, state records, mirror messages, copy and resume,
read-through, slot rebuild, the sideband and promotion. -/

namespace Sys2Proof.Machine

/-! ### Pairing (R254, R271) -/

/-- R254: the partner, as last heard on the sideband, is paired and has a ROLE. -/
def Dev.peerHas (d : Dev) (role : Nat) : Bool := d.mir.sbFlags.testBit 3 && d.mir.sbFlags % 2 == role % 2

/-- R254: what the partner's flags say of the roles: a conflict holds the link down until it ends. -/
def Dev.roleCheck (d : Dev) : Dev :=
  match d.mir.pairing with
  | none => d
  | some r =>
    if !d.mir.sbFlags.testBit 3 then d
    else if d.peerHas r.1 then
      if d.pair.held then d
      else
        let d := (d.linkDown 6).setFlag fPAIR_MIR_STS_ROLE_CONFLICT true
        { d with pair := { d.pair with held := true } }.raise { src := src 31 15, sev := 3, code := 254 }
    else if d.pair.held && !d.halted then ({ d with pair := { d.pair with held := false } }).tryTrain
    else d

/-- R254: a pairing record comes into force; one whose ROLE the partner does not report ends a conflict. -/
def Dev.setPairing (d : Dev) (role digest : Nat) : Dev :=
  let d := { d with mir := { d.mir with pairing := some (role, digest) }, flash := { d.flash with cfg := { d.flash.cfg with pairing := some (role, digest) } } }
  let d := (d.set fPAIR_STS_ROLE role).setFlag fPAIR_MIR_STS_PAIRED true
  let d := if d.halted || d.peerHas role then d else { d with pair := { d.pair with held := false } }
  d.tryTrain

/-- R254: MIR_PAIR. -/
def execMirPair (c : Pkt) : State → Result :=
  run (fun d => d.command rowMirPair c (fun _ => firstBad [(1 < c.at_ 0 1, stInvalidField, 16)])
    (fun _ d => (.done [] 0, d.setPairing (c.at_ 0 1) (c.at_ 4 32))))

/-! ### Targets (R255) -/

/-- R255: MIR_TARGET. -/
def execMirTarget (c : Pkt) : State → Result :=
  let t := c.at_ 0 1
  run (fun d => d.command rowMirTarget c
    (fun d => firstBad [(!d.winValid t, stInvalidField, 16), (d.winKind t != 0 || d.winShared t || d.winMirrored t, stWinIllegal, noDetail),
      (d.winCovered t, stWinBusy, noDetail), (d.mirSt t != 0 && d.mirSt t != mirPromoted, stMirState, noDetail)])
    (fun _ d =>
      let d := ((d.set (fPAIR_MIRW_STS_PEER t) (c.at_ 1 1)).setFlag (fPAIR_MIRW_STS_PEER_SET t) true).setFlag (fPAIR_MIRW_STS_VALID t) false
      (.done [] 0, { d with flash := { d.flash with cfg := { d.flash.cfg with targets := tins d.flash.cfg.targets t (c.at_ 1 1) } } }.setMir t mirTarget)))

/-- A target of the record is forgotten. -/
def Dev.forgetTarget (d : Dev) (t : Nat) : Dev :=
  { d with flash := { d.flash with cfg := { d.flash.cfg with targets := tdel d.flash.cfg.targets t } } }

/-- R255: MIR_UNTARGET. -/
def execMirUntarget (c : Pkt) : State → Result :=
  let t := c.at_ 0 1
  run (fun d => d.command rowMirUntarget c (fun d => firstBad [(d.mirSt t != mirTarget, stMirState, noDetail)])
    (fun _ d =>
      let d := (d.setFlag (fPAIR_MIRW_STS_PEER_SET t) false).setFlag (fPAIR_MIRW_STS_VALID t) false
      (.done [] 0, (d.forgetTarget t).setMir t 0)))

/-! ### Copy and resume (R265, R266) -/

/-- R265: MIR_RESUME; where the link sleeps, the partner is woken for it (DESIGN CHOICE, log entry 95). -/
def execMirResume (c : Pkt) : State → Result :=
  let n := c.at_ 0 1
  run (fun d => d.command rowMirResume c (fun d => firstBad [(d.mirSt n != mirSolo, stMirState, noDetail)])
    (fun _ d => (.done [] 0, if d.linkUp then d.resumeWin n else (d.set (fPAIR_MIRW_STS_CAUSE n) 1).wakePartner)))

/-- R264: MIR_BITMAP_AREA. -/
def execMirBitmapArea (c : Pkt) : State → Result :=
  let u := c.at_ 0 2
  run (fun d => d.command rowMirBitmap c
    (fun d => firstBad [(256 < u, stInvalidField, 16), (d.windows.any d.winMirrored, stWinBusy, noDetail)])
    (fun _ d => (.done [] 0,
      { (d.set fPAIR_MIR_BMAREA_UNITS u) with flash := { d.flash with cfg := { d.flash.cfg with bmUnits := u } } }.bmFree)))

/-- The message of a line that is copied: its data, or its poison. -/
def copyMsg (d : Dev) (w dl : Nat) (x : PLine) : PMsg :=
  { mirMsg (d.get (fPAIR_MIRW_STS_PEER w)) (dl - d.winBase w / 64) x.1 none x.2 true with win := w }

/-- The four lines of a granule, read by the mirror engine; none while one of them must wait. -/
def Acc.readGranule (a : Acc) (w g : Nat) : Option (List PLine) × Acc :=
  let base := a.dev.winBase w / 64 + 4 * g
  let ask := fun (a : Acc) (i : Nat) => a.agentRead (.copy w) 8 w (base + i)
  let wait := (List.range 4).any (fun i => match (ask a i).1 with
    | .wait => true
    | .have_ _ => false)
  if wait then
    (none, (List.range 4).foldl (fun (a : Acc) i => match ask a i with
      | (.wait, b) => b
      | (.have_ _, _) => a) a)
  else
    (List.range 4).foldl (fun (r : Option (List PLine) × Acc) i =>
      match r with
      | (some l, a) => (match ask a i with
        | (.have_ x, b) => (some (l ++ [x]), b)
        | (.wait, b) => (none, b))
      | (none, a) => (none, a)) (some [], a)

/-- The granule that a window's copy takes next: at the cursor of a full copy, else the lowest dirty one that is not on an out slot. -/
def Dev.nextCopy (d : Dev) (w : Nat) : Option Nat :=
  if d.flag (fPAIR_MIRW_STS_FULL w) then some ((d.get (fPAIR_MIRW_CURSOR_DPA w) - d.winBase w) / 256)
  else ((d.mir.dirty.filter (fun e => e.1 / 2 ^ 40 == w)).map (fun e => e.1 % 2 ^ 40)).find? (fun g => !d.lineOut (d.backedMpa w (d.winBase w + g * 256) / 64))

/-- A full copy passes a granule; at the end of the window FULL clears. -/
def Dev.copyPast (d : Dev) (w : Nat) : Dev :=
  if d.flag (fPAIR_MIRW_STS_FULL w) then
    let c := d.get (fPAIR_MIRW_CURSOR_DPA w) + 256
    let d := d.set (fPAIR_MIRW_CURSOR_DPA w) c
    if d.winBase w + d.winSize w ≤ c then (d.setFlag (fPAIR_MIRW_STS_FULL w) false).sendMstate w else d
  else d

/-- R266: one granule of a window is copied; one on an out slot is passed over and stays dirty. Where no bitmap block is free for its bit,
FULL stands for it (R264), and the full copy waits at it until the slot returns (DESIGN CHOICE, log entry 117). -/
def Acc.copyStep (a : Acc) (w : Nat) : Acc :=
  match a.dev.nextCopy w with
  | none => a.upd (fun d => d.copyCheck w)
  | some g =>
    if a.dev.lineOut (a.dev.backedMpa w (a.dev.winBase w + g * 256) / 64) then a.upd (fun d =>
        let d := d.markDirty w g
        if d.isDirty w g then d.copyPast w else d)
    else if 4092 < (a.dev.txq 0).length then a
    else
      match a.readGranule w g with
      | (none, a) => a
      | (some l, a) => a.upd (fun d =>
          let d := (l.zipIdx).foldl (fun d x => d.mirPush (copyMsg d w (d.winBase w / 64 + 4 * g + x.2) x.1)) d
          ((d.clearDirty w g).copyPast w).copyCheck w)

/-- R266. -/
def execGranuleCopy (w : WinId) : State → Result :=
  runAcc (fun a => a.when (a.dev.linkUp && a.dev.mirSt w.toNat == mirCopy) (fun a => a.copyStep w.toNat))

/-! ### State records (R257) -/

/-- R257: a record enters the shadow if its GEN is higher than the stored one; a removal deletes it. -/
def Dev.shadowPut (d : Dev) (kind i gen : Nat) (words : List Nat) : Dev :=
  let newer := fun (t : Tbl (List Nat)) => match tfind t i with
    | some r => (let k := (gen + 2 ^ 32 - r.headD 0) % 2 ^ 32; decide (1 ≤ k) && decide (k ≤ 2 ^ 31))
    | none => true
  if kind = 0 then (if newer d.mir.shWin then { d with mir := { d.mir with shWin := tins d.mir.shWin i ([gen] ++ words) } } else d)
  else if kind = 2 then (if newer d.mir.shWin then { d with mir := { d.mir with shWin := tdel d.mir.shWin i } } else d)
  else if kind = 1 then
    (if newer d.mir.shKr then
      { d with mir := { d.mir with shKr := if words.headD 0 % 2 = 0 then tdel d.mir.shKr i else tins d.mir.shKr i ([gen] ++ words) } } else d)
  else d

/-- R257: an SREC applies, and is answered. -/
def Dev.srecIn (d : Dev) (m : PMsg) : Dev :=
  let k := m.at_ 0 1
  let i := m.at_ 1 1
  let g := m.at_ 2 4
  let words := (List.range (if k = 0 then 6 else if k = 1 then 3 else 0)).map (fun j => m.at_ (6 + 4 * j) 4)
  (d.shadowPut k i g words).pairPush 2 (pmsg 0x29 (leOf 1 k ++ leOf 1 i ++ leOf 4 g))

/-- R257. -/
def execSrec : State → Result := run (fun d => d.when d.linkUp (fun d => d.onMsg 2 0x28 (fun m d => d.srecIn m)))

/-- R257, R265: an SACK arrives; after the first, the partner's first records are all in the shadow, and windows resume. -/
def Dev.sackIn (d : Dev) : Dev :=
  if d.mir.shGot then d else { d with mir := { d.mir with shGot := true } }.resumeAll

/-- R257. -/
def execSack : State → Result := run (fun d => d.when d.linkUp (fun d => d.onMsg 2 0x29 (fun _ d => d.sackIn)))

/-- R265, R266: a target's VALID follows the state of its primary. -/
def Dev.targetValid (d : Dev) (n st : Nat) (full : Bool) : Dev :=
  let put := fun (d : Dev) (v : Bool) =>
    ((List.range 256).filter (fun t => d.mirSt t == mirTarget && d.flag (fPAIR_MIRW_STS_PEER_SET t) && d.get (fPAIR_MIRW_STS_PEER t) == n &&
      d.flag (fPAIR_MIRW_STS_VALID t) != v)).foldl (fun d t => (d.setFlag (fPAIR_MIRW_STS_VALID t) v).sendMstate t) d
  if st = mirInsync then put d true else if st = 0 ∨ (st = mirCopy ∧ full = true) then put d false else d

/-- R257: an MSTATE arrives. -/
def Dev.mstateIn (d : Dev) (m : PMsg) : Dev :=
  let w := m.at_ 0 1
  let fl := m.at_ 2 1
  let d := { d with mir := { d.mir with shMst := tins d.mir.shMst w [m.at_ 1 1, fl, m.at_ 3 2] } }
  d.targetValid w (m.at_ 1 1) (fl.testBit 1)

/-- R257. -/
def execMstate : State → Result := run (fun d => d.when d.linkUp (fun d => d.onMsg 2 0x2A (fun m d => d.mstateIn m)))

/-- R257: MIR_SHADOW_READ; an MSTATE carries no GEN, and 0 stands in its place (log entry 34). -/
def execMirShadowRead (c : Pkt) : State → Result :=
  let k := c.at_ 0 1
  let i := c.at_ 1 1
  run (fun d => d.command rowMirShadow c (fun _ => firstBad [(2 < k, stInvalidField, 16)])
    (fun _ d =>
      let body := match tfind (if k = 0 then d.mir.shWin else if k = 1 then d.mir.shKr else d.mir.shMst) i with
        | some r => if k = 2 then leOf 4 0 ++ leOf 1 i ++ leOf 1 (r.getD 0 0) ++ leOf 1 (r.getD 1 0) ++ leOf 2 (r.getD 2 0) else r.flatMap (leOf 4)
        | none => []
      (.done body 0, d)))

/-! ### The target's side (R259, R268) -/

/-- A VC0 message passes to the home slices, in arrival order. -/
def Dev.toApply (d : Dev) (ty : Nat) : Dev :=
  d.when d.linkUp (fun d => d.onMsg 0 ty (fun m d => { d with mir := { d.mir with apply := d.mir.apply ++ [m] } }))

/-- R259. -/
def execMwr : State → Result := run (fun d => d.toApply 1)
def execMwrp : State → Result := run (fun d => d.toApply 2)
def execMpoi : State → Result := run (fun d => d.toApply 3)

/-- R257, R259: the partner's windows that send to window t, by their mirror states in the shadow. A message names the target only. -/
def Dev.sendersOf (d : Dev) (t : Nat) : List Nat :=
  (d.mir.shMst.filter (fun e => e.2.getD 2 0xffff == t && (e.2.headD 0 == mirCopy || e.2.headD 0 == mirInsync || e.2.headD 0 == mirSolo))).map (·.1)

/-- R259: the reason for which a target cannot apply a message, 0 for none. The target's PEER is held against the windows that the shadow
shows to send to it; where it shows none, against nothing (DEDUCED, log entry 91). -/
def Dev.mirFault (d : Dev) (t line : Nat) : Nat × Dev :=
  let from_ := d.sendersOf t
  if !d.winValid t || d.mirSt t != mirTarget || d.winSize t ≤ line * 64 || (!from_.isEmpty && !from_.contains (d.get (fPAIR_MIRW_STS_PEER t))) then (1, d)
  else if d.krExh (d.winKr t) then (2, d)
  else
    let u := d.entryUse t
    if !u.1 then (3, u.2) else (0, u.2)

/-- A marker of a reason is stored for a line of a BACKED window, without a host; it may have to wait for its leaf. -/
def Acc.storePoison (a : Acc) (w dl reason : Nat) : SRes × Acc :=
  if a.dev.ovfLocked w dl ∨ (a.dev.krFresh (a.dev.winKr w) = true ∧ a.dev.inQuar (a.dev.winKr w) 0 (a.dev.leafOf (a.dev.winKr w) dl) = true) then (.wait, a)
  else
    let l := a.dev.backedMpa w (dl * 64) / 64
    (.ok, a.upd (fun d => if d.lineOut l then d.outDropped w dl none else d.storeMarker dl l 8 reason false none))

/-- R259: the write of a mirror message at its home slice. -/
def Acc.applyMsg (a : Acc) (t : Nat) (m : PMsg) : SRes × Acc :=
  let dl := a.dev.winBase t / 64 + m.at_ 2 5
  if m.mtype = 3 then a.storePoison t dl (max 1 (m.at_ 1 1 % 8))
  else
    let mask := if m.mtype = 2 then some (BitVec.ofNat 64 (m.at_ 8 8)) else none
    let x : WrIn := ⟨lineOfBytes (m.payload.drop (if m.mtype = 2 then 16 else 8)), mask, false⟩
    let q := agentReq .apply 8 t dl (match mask with
      | some b => .wrPtl .i x.data b false
      | none => .wr .i x.data false)
    if a.dev.winNoKey t then (.ok, a)
    else
      match a.dropWrite q with
      | (true, a) => (.ok, a)
      | (false, a) =>
        match a.tryWrite q .cmp with
        | (.ok, a) => (.ok, a.upd (fun d => d.retired q))
        | r => r

/-- A line's newest data for the partner: whatever of it has been accepted, over what is stored. -/
def Acc.peekLine (a : Acc) (w dl : Nat) : PLine × Acc :=
  let stored := fun (a : Acc) =>
    let l := a.dev.backedMpa w (dl * 64) / 64
    match a.rdQueued l 0 (some (dl * 64)) with
    | (.inr r, a) => ((0, r), a)
    | (.inl v, a) =>
      match a.openLine (a.dev.winKr w) dl v 1 with
      | (.data x, a) => ((BitVec.ofNat 512 x, 0), a)
      | (.poison r, a) => ((0, r), a)
      | (.halt, a) => ((0, poisonHalt), a)
  match tfind a.dev.home.lbuf dl with
  | some b =>
    match b.part with
    | none => ((b.data, b.poison), a)
    | some m => let r := stored a; if r.1.2 = 0 then ((mergeLine r.1.1 b.data m, 0), r.2) else r
  | none => stored a

/-- R268: the DRAM requests from a number on are at urgency 3. -/
def Dev.urgentFrom (d : Dev) (n : Nat) : Dev :=
  let up := fun (l : List DReq) => l.map (fun (r : DReq) => if n ≤ r.id then { r with urg := 3 } else r)
  { d with mch := { d.mch with sub := d.mch.sub.map (fun e => (e.1, { e.2 with rq := up e.2.rq, mq := up e.2.mq })) } }

/-- R268: the partner's read of one held RTRD, at urgency 3, and its RTDATA. -/
def Acc.serveRt (a : Acc) (h : RtHeld) : Acc :=
  let from_ := a.dev.mch.nextId
  let f := a.dev.mirFault h.win h.line
  let a := { a with dev := f.2 }
  let r : (Nat × LineData) × Acc :=
    if f.1 = 1 then ((0x10, 0), a) else if f.1 = 3 then ((0x11, 0), a)
    else let x := a.peekLine h.win (a.dev.winBase h.win / 64 + h.line); ((x.1.2, if x.1.2 = 0 then x.1.1 else 0), x.2)
  r.2.upd (fun d => (d.urgentFrom from_).pairPush 3 (pmsg 0x31 (leOf 2 h.tag ++ leOf 1 r.1.1 ++ bytesOfLine r.1.2)))

/-- R268: the held RTRDs whose message number the applied count has reached are served. -/
def Acc.releaseRt (a : Acc) : Acc :=
  let l := a.dev.mir.rtHeld.filter (fun h => covered a.dev.mir.applied h.num)
  let a := a.upd (fun d => { d with mir := { d.mir with rtHeld := d.mir.rtHeld.filter (fun h => !covered d.mir.applied h.num) } })
  l.foldl Acc.serveRt a

/-- R259: the oldest message is applied, or fails; MACK follows, and RTRDs that waited for it. -/
def Acc.mirrorApply (a : Acc) : Acc :=
  match a.dev.mir.apply with
  | [] => a
  | m :: rest =>
    let t := m.at_ 0 1
    let f := a.dev.mirFault t (m.at_ 2 5)
    let a := { a with dev := f.2 }
    let done := fun (a : Acc) =>
      (a.upd (fun d =>
        let d := { d with mir := { d.mir with apply := rest, applied := (d.mir.applied + 1) % 2 ^ 32 } }
        d.pairPush 1 (pmsg 0x10 (leOf 4 d.mir.applied)))).releaseRt
    if f.1 != 0 then done (a.upd (fun d => d.pairPush 1 (pmsg 0x11 (leOf 4 d.mir.applied ++ leOf 1 f.1))))
    else
      match a.applyMsg t m with
      | (.wait, a) => a
      | (.waitTier, a) => a
      | (.waitMir, a) => a
      | (_, a) => done a

/-- R259; nothing is applied in the security halt (R189). -/
def execMirrorApply : State → Result := runAcc (fun a => a.when (a.dev.linkUp && !a.dev.halted) Acc.mirrorApply)

/-- R268: an RTRD arrives, and is held until its message number is applied. -/
def execRtrd : State → Result :=
  runAcc (fun a => a.when a.dev.linkUp (fun a => (a.upd (fun d => d.onMsg 3 0x30 (fun m d =>
    { d with mir := { d.mir with rtHeld := d.mir.rtHeld ++ [(⟨m.at_ 0 1, m.at_ 1 5, m.at_ 6 2, m.at_ 8 4⟩ : RtHeld)] } }))).releaseRt))

/-! ### The primary's side (R260 to R262, R267) -/

/-- R261: a write that waited for room is accepted. -/
def execMirrorQueueEntry : State → Result :=
  runAcc (fun a => match a.dev.mir.waits with
    | q :: t => if a.dev.mirFull && a.dev.mirLive q.win then a
        else Acc.retryWrite (a.upd (fun d => { d with mir := { d.mir with waits := t } })) q
    | [] => a)

/-- R262: fences whose last message is covered return ACKED. -/
def Dev.fencesAcked (d : Dev) (count : Nat) : Dev :=
  let p := fun (f : Nat × Nat × Nat) => covered count f.2.2 && d.mirSt f.2.1 == mirInsync
  let l := d.mir.fences.filter p
  let d := { d with mir := { d.mir with fences := d.mir.fences.filter (fun f => !p f) } }
  l.foldl (fun d f => (d.set (fPAIR_MIRW_FENCE_RESULT f.2.1) 0).emit (.csrValue f.1 0)) d

/-- R260: a MACK covers messages: SYNC completions are given, fences end, and copies that are done make their windows INSYNC. -/
def Dev.mackIn (d : Dev) (count : Nat) : Dev :=
  let l := d.mir.unacked.filter (fun m => covered count m.num)
  let d := { d with mir := { d.mir with unacked := d.mir.unacked.filter (fun m => !covered count m.num) } }
  let d := l.foldl Dev.giveCpl d
  let d := ((l.filter (fun m => m.copy)).map (fun m => m.win)).eraseDups.foldl Dev.copyCheck d
  d.fencesAcked count

/-- R260. -/
def execMack : State → Result := run (fun d => d.when d.linkUp (fun d => d.onMsg 1 0x10 (fun m d => d.mackIn (m.at_ 0 4))))

/-- R259: an MFAIL: the window of the message enters SOLO with cause TARGET, and the message's granule is dirty. -/
def Dev.mfailIn (d : Dev) (num : Nat) : Dev :=
  match d.mir.unacked.find? (fun m => m.num == num) with
  | some m => (d.enterSolo m.win 2).markDirty m.win m.granule
  | none => d

/-- R259. -/
def execMfail : State → Result := run (fun d => d.when d.linkUp (fun d => d.onMsg 1 0x11 (fun m d => d.mfailIn (m.at_ 0 4))))

/-- R262: a read of a fence register. -/
def Dev.fenceRead (d : Dev) (h w : Nat) : Dev :=
  let now := fun (r : Nat) => (d.set (fPAIR_MIRW_FENCE_RESULT w) r).emit (.csrValue h r)
  if !d.winValid w || !d.winMirrored w then now 3
  else if d.mirSt w != mirInsync then now 1
  else
    match (d.mir.unacked.filter (fun m => m.win == w)).getLast? with
    | some m => { d with mir := { d.mir with fences := d.mir.fences ++ [(h, w, m.num)] } }
    | none => now 0

/-- R262. -/
def execPairMirFenceRead (h : Head) (w : WinId) : State → Result :=
  run (fun d => d.when (!d.cfgOnly h.toNat) (fun d => d.fenceRead h.toNat w.toNat))

/-- R262: the oldest held read of a window times out. -/
def execFenceTimeout (w : WinId) : State → Result :=
  run (fun d => match takeFirst (fun f => f.2.1 == w.toNat) d.mir.fences with
    | some (f, rest) => (({ d with mir := { d.mir with fences := rest } }).set (fPAIR_MIRW_FENCE_RESULT w.toNat) 2).emit (.csrValue f.1 2)
    | none => d)

/-! ### Slot rebuild (R270) -/

/-- The first granule of window w from g on that lies on slot s. -/
def Dev.onSlot (d : Dev) (s w g : Nat) : Option Nat :=
  ((List.range (d.winSize w / 256 - g)).map (g + ·)).find? (fun g => d.lineSlot (d.backedMpa w (d.winBase w + g * 256) / 64) == s)

/-- The rebuild moves past granule g of its first window: to the next, or to the next window, or it ends. -/
def Dev.rebuildPast (d : Dev) (g : Option Nat) : Dev :=
  match d.mir.rebuild with
  | [] => d
  | (s, w, _) :: t =>
    let l := match g with
      | some g => [(s, w, g + 1)] ++ t
      | none => t
    let d := { d with mir := { d.mir with rebuild := l } }.setFlag fPAIR_MIR_STS_REBUILD (!l.isEmpty)
    match g with
    | some g => if d.mirSt w == mirCopy && d.flag (fPAIR_MIRW_STS_FULL w) then d else d.set (fPAIR_MIRW_CURSOR_DPA w) (d.winBase w + (g + 1) * 256)
    | none => d

/-- The four lines of a granule are written: data, or markers of their reasons. -/
def Acc.putGranule (a : Acc) (w g : Nat) (l : List PLine) : Acc :=
  (l.zipIdx).foldl (fun (a : Acc) x =>
    let dl := a.dev.winBase w / 64 + 4 * g + x.2
    let mpa := a.dev.backedMpa w (dl * 64) / 64
    if x.1.2 != 0 then a.upd (fun d => d.storeMarker dl mpa 8 x.1.2 false none)
    else (a.storeFull w dl mpa 8 (agentReq .apply 8 w dl (.wr .i x.1.1 false)) x.1.1).2) a

/-- A granule can be written now: none of its leaves is locked or lost, and its range takes writes (R183). -/
def Dev.granFree (d : Dev) (w g : Nat) : Bool :=
  let dl := d.winBase w / 64 + 4 * g
  !d.krExh (d.winKr w) && !d.ovfLocked w dl && !(d.krFresh (d.winKr w) && d.inQuar (d.winKr w) 0 (d.leafOf (d.winKr w) dl))

/-- R270: the next granule of the rebuild: read from the partner, or lost, or the rebuild waits. -/
def Acc.rebuildGran (a : Acc) : Acc :=
  match a.dev.mir.rebuild with
  | [] => a
  | (s, w, g0) :: _ =>
    match a.dev.onSlot s w g0 with
    | none => a.upd (fun d => d.rebuildPast none)
    | some g =>
      let base := a.dev.winBase w / 64 + 4 * g
      if !a.dev.linkUp || a.dev.rebuildReads base || !a.dev.granFree w g then a
      else if a.dev.partnerCurrent w g then a.upd (fun d => (List.range 4).foldl (fun d i => d.sendRt w (base + i) true) d)
      else
        let a := a.upd (fun d => (d.rebuildPast (some g)).raise { src := src 32 4, sev := 2, code := 270, obj := w, addr := base * 64, akind := 1 })
        a.putGranule w g (List.replicate 4 (0, poisonMirrorLost))

/-- R270. -/
def execSlotRebuildStep : State → Result := runAcc (fun a => a.when a.dev.pin.mainUp Acc.rebuildGran)

/-- R270: the last of a granule's four lines has come: the granule is written, and its waiting writes go on. One that cannot be written now
is read again later. -/
def Acc.rebuildGot (a : Acc) (w dl : Nat) (x : PLine) : Acc :=
  let a := a.upd (fun d => { d with mir := { d.mir with rbGot := d.mir.rbGot ++ [(dl, x)] } })
  let mine := a.dev.mir.rbGot.filter (fun g => g.1 / 4 == dl / 4)
  if mine.length < 4 then a
  else
    let g := (dl - a.dev.winBase w / 64) / 4
    let l := (List.range 4).map (fun i => ((mine.find? (fun e => e.1 == dl / 4 * 4 + i)).map (fun e => e.2)).getD (0, poisonMirrorLost))
    let a := a.upd (fun d => { d with mir := { d.mir with rbGot := d.mir.rbGot.filter (fun g => g.1 / 4 != dl / 4) } })
    let a := if a.dev.granFree w g then (a.upd (fun d => d.rebuildPast (some g))).putGranule w g l else a
    a.wakeLines (fun x => x / 4 == dl / 4)

/-- What an RTDATA brings: data, poison of a reason, or MIRROR_LOST where the partner has no target. -/
def rtLine (m : PMsg) : PLine :=
  let s := m.at_ 2 1
  if s = 0 then (lineOfBytes (m.payload.drop 3), 0) else if s < 8 then (0, s) else (0, poisonMirrorLost)

/-- R267, R268: an RTDATA for a read: the line is repaired locally where its slot is in service, the partner has the line, and the range
takes writes (R183), and the read ends. -/
def Acc.rtEnd (a : Acc) (r : RtPend) (x : PLine) (had : Bool) : Acc :=
  let l := a.dev.backedMpa r.win (r.line * 64) / 64
  let a := if !had || a.dev.lineOut l || a.dev.krExh (a.dev.winKr r.win) || (tfind a.dev.home.lbuf r.line).isSome then a
    else if x.2 != 0 then a.upd (fun d => d.storeMarker r.line l 8 x.2 false none)
    else (a.storeAt r.win r.line l 8 (agentReq .apply 8 r.win r.line (.wr .i x.1 false)) ⟨x.1, none, false⟩).2
  match a.dev.transOf r.line with
  | some t => if t.wait = .readThrough r.tag then a.upd (fun d => d.endRead t x true) else a
  | none => a

/-- R267, R270. -/
def Acc.rtdataIn (a : Acc) (m : PMsg) : Acc :=
  match takeFirst (fun r => r.tag == m.at_ 0 2) a.dev.mir.rtPend with
  | none => a
  | some (r, rest) =>
    let a := a.upd (fun d => { d with mir := { d.mir with rtPend := rest } })
    let x := rtLine m
    let a := if r.rebuild then a.rebuildGot r.win r.line x else a.rtEnd r x (decide (m.at_ 2 1 < 8))
    if 8 ≤ m.at_ 2 1 then a.upd (fun d => d.enterSolo r.win 2) else a

/-- R267. -/
def execRtdata : State → Result :=
  runAcc (fun a => a.when a.dev.linkUp (fun a => match a.dev.rxHead 3 with
    | some m => if m.mtype = 0x31 then (a.upd (fun d => d.rxTake 3)).rtdataIn m else a
    | none => a))

/-! ### The sideband and promotion (R271 to R275) -/

/-- A sideband message arrives: one that fails its CRC is discarded; a valid one keeps the sideband alive and shows the roles. -/
def Dev.sbIn (d : Dev) (ty : Nat) (m : SidebandMsg) (f : Dev → Dev) : Dev :=
  if m.crc.toNat = crc16 ([ty, m.flags.toNat] ++ toBytes 4 m.arg.toNat) then
    let d := { d with mir := { d.mir with sbFlags := m.flags.toNat } }.setFlag fPAIR_MIR_STS_SB_ALIVE true
    (f d).roleCheck
  else d

/-- R271: BEAT. -/
def execBeat (m : SidebandMsg) : State → Result :=
  run (fun d => d.sbIn 1 m (fun d => d.setFlag fPAIR_MIR_STS_PEER_HALTED (m.flags.toNat.testBit 1)))

/-- R274: HALT on the sideband. -/
def execSidebandHalt (m : SidebandMsg) : State → Result := run (fun d => d.sbIn 2 m (fun d => d.linkDown 7))

/-- R272: a target is promoted, and the command answered. -/
def Dev.promoteTarget (d : Dev) (t : Nat) : Dev := (d.forgetTarget t).setMir t mirPromoted

/-- R272: a CLAIM for our window n: it yields unless a committed decoder covers it. -/
def Dev.claimIn (d : Dev) (n : Nat) : Dev := if d.winCovered n then d.sbSend 5 n else (d.setMir n mirYielded).sbSend 4 n

/-- R272. -/
def execSbClaim (m : SidebandMsg) : State → Result := run (fun d => d.sbIn 3 m (fun d => d.claimIn (m.arg.toNat % 256)))

/-- The pending claim for the partner's window n ends: promoted, or refused. -/
def Dev.claimEnd (d : Dev) (n : Option Nat) (ok : Bool) : Dev :=
  match d.mir.claim with
  | some (t, p, bg) =>
    if n.isSome ∧ n ≠ some p then d
    else
      let d := { d with mir := { d.mir with claim := none } }
      let d := if ok then d.promoteTarget t else d
      d.bgDoneOpt bg (if ok then stSuccess else stPeerAlive) noDetail []
  | none => d

/-- R272. -/
def execSbYield (m : SidebandMsg) : State → Result := run (fun d => d.sbIn 4 m (fun d => d.claimEnd (some m.arg.toNat) true))
def execSbRefuse (m : SidebandMsg) : State → Result := run (fun d => d.sbIn 5 m (fun d => d.claimEnd (some m.arg.toNat) false))
def execClaimTimeout : State → Result := run (fun d => d.claimEnd none false)

/-- R271. -/
def execSidebandDead : State → Result := run (fun d => d.setFlag fPAIR_MIR_STS_SB_ALIVE false)

/-- Table 10.5: MIR_PROMOTE; one promotion waits for its answer at a time. -/
def execMirPromote (c : Pkt) : State → Result :=
  let t := c.at_ 0 1
  run (fun d => d.command rowMirPromote c
    (fun d => firstBad [(d.mirSt t != mirTarget, stMirState, noDetail), (d.linkUp, stPeerAlive, noDetail),
      (!d.flag fPAIR_MIR_STS_SB_ALIVE && c.at_ 1 1 % 2 == 0, stPeerUnknown, noDetail), (d.mir.claim.isSome, stCmdBusy, noDetail)])
    (fun i d =>
      if d.flag fPAIR_MIR_STS_SB_ALIVE && !d.mir.sbFlags.testBit 1 then
        let p := d.get (fPAIR_MIRW_STS_PEER t)
        (.runs [t], { d with mir := { d.mir with claim := some (t, p, some i) } }.sbSend 3 p)
      else (.done [] 0, d.promoteTarget t)))

end Sys2Proof.Machine
end

