-- ==== Sys2Proof/Machine/Lz4.lean ====
section
/-! DEFINITION. The decoder of LZ4 frames (11_job_engines.md R293, R294). -/

namespace Sys2Proof.Machine

/-- A length of a sequence that goes on in further bytes. -/
def lz4More (n : Nat) : Nat → Inp → Dec (Nat × Inp)
  | 0, i => .error (i.fail, i.off)
  | f + 1, i => do
    let x ← i.num 1
    if x.1 = 255 then lz4More (n + 255) f x.2 else return (n + x.1, x.2)

/-- A length of a sequence, from its four bits. -/
def lz4Len (n : Nat) (i : Inp) : Dec (Nat × Inp) := if n < 15 then .ok (n, i) else lz4More 15 (i.bytes.length + 1) i

/-- The sequences of a block: an output of at most top bytes, newest first, with matches that reach back to the newest of its bytes but base. -/
def lz4Seqs (base top win : Nat) : Nat → Inp → List Nat → Dec (List Nat)
  | 0, i, _ => .error (i.fail, i.off)
  | f + 1, i, out => do
    let t ← i.num 1
    let n ← lz4Len (t.1 / 16) t.2
    let x ← n.2.take n.1
    let out := x.1.reverse ++ out
    need (out.length ≤ top) dLen (x.2.off - 1)
    if x.2.bytes.isEmpty then return out
    else
      let d ← x.2.num 2
      need (d.1 != 0) dCode (d.2.off - 1)
      let m ← lz4Len (t.1 % 16) d.2
      need (d.1 ≤ min win (out.length - base)) dDist (d.2.off - 1)
      let out := copyBack d.1 (m.1 + 4) out
      need (out.length ≤ top) dLen (m.2.off - 1)
      lz4Seqs base top win f m.2 out

/-- The header of a frame. -/
structure Lz4Head where
  indep : Bool
  bsum : Bool
  csize : Option Nat
  csum : Bool
  bmax : Nat
deriving DecidableEq, Repr

/-- The header after its magic number; its checksum byte is always checked. -/
def lz4Head (i : Inp) : Dec (Lz4Head × Inp) := do
  let f ← i.num 1
  need (f.1 / 64 == 1 && f.1 % 4 == 0) dHeader i.off
  let b ← f.2.num 1
  need (b.1 < 128 && b.1 % 16 == 0 && 4 ≤ b.1 / 16) dHeader f.2.off
  let n ← if f.1.testBit 3 then (b.2.num 8).map (fun x => (some x.1, x.2)) else .ok (none, b.2)
  let h ← n.2.num 1
  need (h.1 == xxh32 (i.bytes.take (n.2.off - i.off)) / 256 % 256) dSum n.2.off
  return ({ indep := f.1.testBit 5, bsum := f.1.testBit 4, csize := n.1, csum := f.1.testBit 2, bmax := 2 ^ (8 + 2 * (b.1 / 16)) }, h.2)

/-- The blocks of a frame up to its end mark. -/
def lz4Blocks (h : Lz4Head) (verify : Bool) (win : Nat) : Nat → Inp → List Nat → Dec (List Nat × Inp)
  | 0, i, _ => .error (i.fail, i.off)
  | f + 1, i, out => do
    let n ← i.num 4
    if n.1 = 0 then return (out, n.2)
    else
      let size := n.1 % 2 ^ 31
      need (size ≤ h.bmax) dLen (n.2.off - 1)
      let x ← n.2.sub size
      let out ←
        if 2 ^ 31 ≤ n.1 then .ok (x.1.bytes.reverse ++ out)
        else lz4Seqs (if h.indep then out.length else 0) (out.length + h.bmax) win (size + 1) x.1 out
      let i ← if h.bsum then (do
          let c ← x.2.num 4
          need (!verify || c.1 == xxh32 x.1.bytes) dSum (c.2.off - 1)
          pure c.2)
        else .ok x.2
      lz4Blocks h verify win f i out

/-- A frame after its magic number. -/
def lz4Frame (verify : Bool) (win : Nat) (i : Inp) : Dec (List Nat × Inp) := do
  let h ← lz4Head i
  let r ← lz4Blocks h.1 verify win (i.bytes.length + 1) h.2 []
  let out := r.1.reverse
  need (match h.1.csize with
    | some n => n == out.length
    | none => true) dLen (r.2.off - 1)
  if h.1.csum then
    let c ← r.2.num 4
    need (!verify || c.1 == xxh32 out) dSum (c.2.off - 1)
    return (out, c.2)
  else return (out, r.2)

/-- A skippable frame after its magic number: what follows it. -/
def skipFrame (i : Inp) : Dec (List Nat × Inp) := do
  let n ← i.num 4
  let x ← n.2.take n.1
  return ([], x.2)

/-- The frames of a stream, skippable ones among them, of the format with a magic number and a frame decoder. -/
def frames (magic : Nat) (frame : Inp → Dec (List Nat × Inp)) : Nat → Inp → Dec (List Nat)
  | 0, i => .error (i.fail, i.off)
  | f + 1, i => do
    let m ← i.num 4
    need (m.1 == magic || m.1 / 16 == 0x184D2A5) dHeader i.off
    let r ← if m.1 = magic then frame m.2 else skipFrame m.2
    if r.2.bytes.isEmpty then return r.1 else (frames magic frame f r.2).map (r.1 ++ ·)

/-- A stream of LZ4 frames, with a window of at most 2^wlog bytes. -/
def unLz4 (wlog : Nat) (verify : Bool) (l : List Nat) : Dec (List Nat) :=
  frames 0x184D2204 (lz4Frame verify (2 ^ wlog)) (l.length + 1) ⟨l, 0, dEnd⟩

end Sys2Proof.Machine
end

