-- ==== Sys2Proof/Machine/Zstd.lean ====
section
/-! DEFINITION. The decoder of Zstandard frames (RFC 8878; 11_job_engines.md R293, R294). -/

namespace Sys2Proof.Machine

/-! ### Streams read from their end -/

/-- A stream read from its last bit: its bits as a number, how many are left, and the offset of its first byte. -/
structure Back where
  v : Nat
  n : Nat
  off : Nat
deriving DecidableEq, Repr

/-- A stream of bytes, without the bit that marks its end. -/
def backOf (i : Inp) : Dec Back := do
  let k := i.bytes.length
  need (k != 0) i.fail i.off
  let x := i.bytes.getD (k - 1) 0
  need (x != 0) dCode (i.off + k - 1)
  let v := ofBytes i.bytes
  return { v := v % 2 ^ v.log2, n := v.log2, off := i.off }

/-- The byte that held the last bit. -/
def Back.last (b : Back) : Nat := b.off + b.n / 8

/-- The next k bits; bits beyond the end read 0. -/
def Back.peek (k : Nat) (b : Back) : Nat := if k ≤ b.n then b.v / 2 ^ (b.n - k) % 2 ^ k else b.v % 2 ^ b.n * 2 ^ (k - b.n)

/-- The next k bits of a stream that has them. -/
def Back.take (k : Nat) (b : Back) : Dec (Nat × Back) :=
  if k ≤ b.n then .ok (b.peek k, { b with n := b.n - k }) else .error (dLen, b.off)

/-! ### FSE tables -/

/-- A state of an FSE table: its symbol, and the bits and the base of the next state. -/
structure FseSt where
  sym : Nat
  bits : Nat
  base : Nat
deriving DecidableEq, Repr, Inhabited

/-- An FSE table: the log of its size and its states. -/
structure Fse where
  log : Nat
  tab : Array FseSt
deriving DecidableEq, Repr

/-- The probabilities of a table description, newest first: rem is what is left of the table, zeros whether a run of zeros goes on. -/
def fseProbs : Nat → Nat → Bool → BitIn → List Int → Dec (List Int × BitIn)
  | 0, _, _, b, _ => .error (dCode, b.last)
  | f + 1, rem, zeros, b, l =>
    if zeros then do
      let r ← b.take 2
      fseProbs f rem (r.1 == 3) r.2 (List.replicate r.1 0 ++ l)
    else if rem = 0 then .ok (l, b)
    else do
      let k := (rem + 1).log2
      let low ← b.take k
      let thr := 2 ^ (k + 1) - 1 - (rem + 1)
      let x ←
        if low.1 < thr then .ok low
        else (do
          let h ← low.2.one
          pure (if h.1 = 1 then low.1 + 2 ^ k - thr else low.1, h.2))
      let p : Int := x.1 - 1
      need (p.natAbs ≤ rem) dCode x.2.last
      fseProbs f (rem - p.natAbs) (p == 0) x.2 (p :: l)

/-- A table from its probabilities. -/
def fseTable (log : Nat) (probs : List Int) : Fse :=
  let size := 2 ^ log
  let syms := List.range probs.length
  let p := fun s => probs.getD s 0
  let low := syms.filter (fun s => p s == -1)
  let top := size - low.length
  let step := size / 2 + size / 8 + 3
  let places := ((List.range size).map (fun k => k * step % size)).filter (fun c => c < top)
  let spread := places.zip (syms.flatMap (fun s => List.replicate (p s).toNat s))
  let cells := (spread ++ (low.mapIdx (fun k s => (size - 1 - k, s)))).foldl (fun (t : Array Nat) c => t.setIfInBounds c.1 c.2)
    (Array.replicate size 0)
  let next := (probs.map (fun x => if x = -1 then 1 else x.toNat)).toArray
  let r := cells.foldl (fun (r : Array Nat × Array FseSt) s =>
    let x := r.1.getD s 0
    let nb := log - x.log2
    (r.1.setIfInBounds s (x + 1), r.2.push ⟨s, nb, x * 2 ^ nb - size⟩)) (next, #[])
  { log := log, tab := r.2 }

/-- A table description: a table of at most 2^maxLog states over at most maxSym + 1 symbols, and what follows it. -/
def fseRead (maxLog maxSym : Nat) (i : Inp) : Dec (Fse × Inp) := do
  let a ← BitIn.take 4 ⟨i, 0⟩
  let log := a.1 + 5
  need (log ≤ maxLog) dCode a.2.last
  let r ← fseProbs (2 * maxSym + 8) (2 ^ log) false a.2 []
  need (r.1.length ≤ maxSym + 1) dCode r.2.last
  return (fseTable log r.1.reverse, r.2.align)

/-- A state of a table. -/
def Fse.at_ (t : Fse) (s : Nat) : FseSt := t.tab.getD s default

/-! ### Huffman codes -/

/-- A Huffman table: the most bits of a code, and for every value of so many bits its symbol and the length of its code. -/
structure ZHuff where
  bits : Nat
  tab : Array (Nat × Nat)
deriving DecidableEq, Repr

/-- A table from the weights of all symbols but the last. -/
def zhuffOf (w : List Nat) (off : Nat) : Dec ZHuff := do
  let sum := ((w.filter (· != 0)).map (fun x => 2 ^ (x - 1))).sum
  need (sum != 0) dCode off
  let bits := sum.log2 + 1
  let left := 2 ^ bits - sum
  need (bits ≤ 11 && 2 ^ left.log2 == left) dCode off
  let w := w ++ [left.log2 + 1]
  let syms := List.range w.length
  let tab := (List.range bits).flatMap (fun k => (syms.filter (fun s => w.getD s 0 == k + 1)).flatMap
    (fun s => List.replicate (2 ^ k) (s, bits - k)))
  return { bits := bits, tab := tab.toArray }

/-- Weights from two states that take turns until the stream has no bits for a state; newest first. -/
def zweights (t : Fse) : Nat → Nat → Nat → Back → List Nat → Dec (List Nat)
  | 0, _, _, b, _ => .error (dCode, b.last)
  | f + 1, s1, s2, b, l =>
    let e := t.at_ s1
    if e.bits ≤ b.n then zweights t f s2 (e.base + b.peek e.bits) { b with n := b.n - e.bits } (e.sym :: l)
    else .ok ((t.at_ s2).sym :: e.sym :: l)

/-- The description of a Huffman table, and what follows it. -/
def zhuffRead (i : Inp) : Dec (ZHuff × Inp) := do
  let h ← i.num 1
  if 128 ≤ h.1 then
    let n := h.1 - 127
    let x ← h.2.take ((n + 1) / 2)
    let w := (x.1.flatMap (fun b => [b / 16, b % 16])).take n
    let t ← zhuffOf w (x.2.off - 1)
    return (t, x.2)
  else
    let x ← h.2.sub h.1
    let t ← fseRead 6 255 x.1
    let b ← backOf t.2
    let s1 ← b.take t.1.log
    let s2 ← s1.2.take t.1.log
    let w ← zweights t.1 254 s1.1 s2.1 s2.2 []
    let z ← zhuffOf w.reverse (x.2.off - 1)
    return (z, x.2)

/-- The symbols of a Huffman stream of n symbols, newest first onto out. -/
def zhuffSyms (t : ZHuff) : Nat → Back → List Nat → Dec (List Nat)
  | 0, b, out => if b.n = 0 then .ok out else .error (dLen, b.last)
  | n + 1, b, out =>
    let e := t.tab.getD (b.peek t.bits) (0, 0)
    if e.2 ≤ b.n then zhuffSyms t n { b with n := b.n - e.2 } (e.1 :: out) else .error (dLen, b.off)

/-- A Huffman stream of n symbols, in order. -/
def zhuffStream (t : ZHuff) (n : Nat) (i : Inp) : Dec (List Nat) := do
  let b ← backOf i
  let l ← zhuffSyms t n b []
  return l.reverse

/-! ### Blocks -/

/-- What a frame keeps from block to block: the Huffman table, the tables of literal lengths, offsets and match lengths, the three last
offsets. -/
structure ZState where
  huff : Option ZHuff := none
  ll : Option Fse := none
  of : Option Fse := none
  ml : Option Fse := none
  reps : Nat × Nat × Nat := (1, 4, 8)

/-- The sizes in the header of a literals section: regenerated, compressed (0 where it has none), and one stream or four. -/
def litSizes (i : Inp) : Dec ((Nat × Nat × Nat × Bool) × Inp) := do
  let a ← i.num 1
  let ty := a.1 % 4
  let sf := a.1 / 4 % 4
  if ty < 2 then
    if sf % 2 = 0 then return ((ty, a.1 / 8, 0, false), a.2)
    else
      let x ← i.num (if sf = 1 then 2 else 3)
      return ((ty, x.1 / 16, 0, false), x.2)
  else
    let k := if sf < 2 then 10 else if sf = 2 then 14 else 18
    let x ← i.num (if sf < 2 then 3 else if sf = 2 then 4 else 5)
    return ((ty, x.1 / 16 % 2 ^ k, x.1 / 2 ^ (4 + k) % 2 ^ k, sf != 0), x.2)

/-- The literals of a block. -/
def zLits (z : ZState) (bmax : Nat) (i : Inp) : Dec ((List Nat × ZState) × Inp) := do
  let h ← litSizes i
  let ty := h.1.1
  let n := h.1.2.1
  need (n ≤ bmax) dLen (h.2.off - 1)
  if ty = 0 then
    let x ← h.2.take n
    return ((x.1, z), x.2)
  else if ty = 1 then
    let x ← h.2.num 1
    return ((List.replicate n x.1, z), x.2)
  else
    let s ← h.2.sub h.1.2.2.1
    let t ←
      if ty = 2 then zhuffRead s.1
      else match z.huff with
        | some t => .ok (t, s.1)
        | none => .error (dCode, i.off)
    let q := (n + 3) / 4
    let l ←
      if h.1.2.2.2 then (do
        let a ← t.2.num 2
        let b ← a.2.num 2
        let c ← b.2.num 2
        let sa ← c.2.sub a.1
        let sb ← sa.2.sub b.1
        let sc ← sb.2.sub c.1
        need (3 * q ≤ n) dLen (c.2.off - 1)
        let la ← zhuffStream t.1 q sa.1
        let lb ← zhuffStream t.1 q sb.1
        let lc ← zhuffStream t.1 q sc.1
        let ld ← zhuffStream t.1 (n - 3 * q) sc.2
        pure (la ++ lb ++ lc ++ ld))
      else zhuffStream t.1 n t.2
    return ((l, { z with huff := some t.1 }), s.2)

/-- Base and extra bits of literal length code c. -/
def llCode (c : Nat) : Nat × Nat :=
  if c < 16 then (c, 0)
  else [(16, 1), (18, 1), (20, 1), (22, 1), (24, 2), (28, 2), (32, 3), (40, 3), (48, 4), (64, 6)].getD (c - 16) (2 ^ (c - 19), c - 19)

/-- Base and extra bits of match length code c. -/
def mlCode (c : Nat) : Nat × Nat :=
  if c < 32 then (c + 3, 0)
  else [(35, 1), (37, 1), (39, 1), (41, 1), (43, 2), (47, 2), (51, 3), (59, 3), (67, 4), (83, 4), (99, 5)].getD (c - 32) (2 ^ (c - 36) + 3, c - 36)

/-- The predefined tables. -/
def llDefault : Fse := fseTable 6
  ([4, 3, 2, 2, 2, 2, 2, 2, 2, 2, 2, 2, 2, 1, 1, 1, 2, 2] ++ [2, 2, 2, 2, 2, 2, 2, 3, 2, 1, 1, 1, 1, 1, -1, -1, -1, -1])
def mlDefault : Fse := fseTable 6
  ([1, 4, 3, 2, 2, 2, 2, 2, 2] ++ List.replicate 37 1 ++ List.replicate 7 (-1))
def ofDefault : Fse := fseTable 5
  ([1, 1, 1, 1, 1, 1, 2, 2, 2] ++ List.replicate 15 1 ++ List.replicate 5 (-1))

/-- The table of a mode: predefined, one symbol, described, or the last one. -/
def zTable (mode maxLog maxSym : Nat) (dflt : Fse) (last : Option Fse) (i : Inp) : Dec (Fse × Inp) :=
  if mode = 0 then .ok (dflt, i)
  else if mode = 1 then do
    let x ← i.num 1
    need (x.1 ≤ maxSym) dCode i.off
    return (⟨0, #[⟨x.1, 0, 0⟩]⟩, x.2)
  else if mode = 2 then fseRead maxLog maxSym i
  else match last with
    | some t => .ok (t, i)
    | none => .error (dCode, i.off)

/-- The offset of a sequence, and the three last offsets after it. -/
def zOffset (v ll : Nat) (r : Nat × Nat × Nat) : Nat × (Nat × Nat × Nat) :=
  if 3 < v then (v - 3, (v - 3, r.1, r.2.1))
  else
    let k := v - 1 + (if ll = 0 then 1 else 0)
    if k = 0 then (r.1, r)
    else if k = 1 then (r.2.1, (r.2.1, r.1, r.2.2))
    else if k = 2 then (r.2.2, (r.2.2, r.1, r.2.1))
    else (r.1 - 1, (r.1 - 1, r.1, r.2.1))

/-- The sequences that are left: their tables and states, the literals that are left, the output newest byte first, of at most top bytes. -/
def zSeqs (ll of ml : Fse) (win top : Nat) :
    Nat → Nat → Nat → Nat → Back → List Nat → List Nat → (Nat × Nat × Nat) → Dec (List Nat × List Nat × (Nat × Nat × Nat))
  | 0, _, _, _, b, lits, out, reps => if b.n = 0 then .ok (lits, out, reps) else .error (dLen, b.last)
  | n + 1, sl, so, sm, b, lits, out, reps => do
    let oc := (of.at_ so).sym
    let x ← b.take oc
    let mc := mlCode (ml.at_ sm).sym
    let y ← x.2.take mc.2
    let lc := llCode (ll.at_ sl).sym
    let w ← y.2.take lc.2
    let n1 := lc.1 + w.1
    let n2 := mc.1 + y.1
    need (n1 ≤ lits.length) dLen w.2.last
    let out := (lits.take n1).reverse ++ out
    let o := zOffset (2 ^ oc + x.1) n1 reps
    need (o.1 != 0) dCode w.2.last
    need (o.1 ≤ min win out.length) dDist w.2.last
    need (out.length + n2 ≤ top) dLen w.2.last
    let out := copyBack o.1 n2 out
    if n = 0 then zSeqs ll of ml win top n sl so sm w.2 (lits.drop n1) out o.2
    else
      let a ← w.2.take (ll.at_ sl).bits
      let c ← a.2.take (ml.at_ sm).bits
      let d ← c.2.take (of.at_ so).bits
      zSeqs ll of ml win top n ((ll.at_ sl).base + a.1) ((of.at_ so).base + d.1) ((ml.at_ sm).base + c.1) d.2 (lits.drop n1) out o.2

/-- The number of sequences, and what follows it. -/
def zSeqCount (i : Inp) : Dec (Nat × Inp) := do
  let a ← i.num 1
  if a.1 < 128 then return a
  else if a.1 < 255 then
    let b ← a.2.num 1
    return ((a.1 - 128) * 256 + b.1, b.2)
  else (a.2.num 2).map (fun x => (x.1 + 0x7F00, x.2))

/-- A compressed block: the output, newest byte first, of at most bmax bytes more. -/
def zBlock (win bmax : Nat) (z : ZState) (i : Inp) (out : List Nat) : Dec (List Nat × ZState) := do
  let l ← zLits z bmax i
  let z := l.1.2
  let lits := l.1.1
  let c ← zSeqCount l.2
  if c.1 = 0 then
    need c.2.bytes.isEmpty dLen c.2.off
    return (lits.reverse ++ out, z)
  else
    let m ← c.2.num 1
    need (m.1 % 4 == 0) dHeader c.2.off
    let ll ← zTable (m.1 / 64) 9 35 llDefault z.ll m.2
    let of ← zTable (m.1 / 16 % 4) 8 31 ofDefault z.of ll.2
    let ml ← zTable (m.1 / 4 % 4) 9 52 mlDefault z.ml of.2
    let b ← backOf ml.2
    let sl ← b.take ll.1.log
    let so ← sl.2.take of.1.log
    let sm ← so.2.take ml.1.log
    let r ← zSeqs ll.1 of.1 ml.1 win (out.length + bmax) c.1 sl.1 so.1 sm.1 sm.2 lits out z.reps
    let all := r.1.reverse ++ r.2.1
    need (all.length ≤ out.length + bmax) dLen (i.off + i.bytes.length - 1)
    return (all, { z with ll := some ll.1, of := some of.1, ml := some ml.1, reps := r.2.2 })

/-- The blocks of a frame, up to its last one. -/
def zBlocks (win bmax : Nat) : Nat → ZState → Inp → List Nat → Dec (List Nat × Inp)
  | 0, _, i, _ => .error (i.fail, i.off)
  | f + 1, z, i, out => do
    let h ← i.num 3
    let ty := h.1 / 2 % 4
    let n := h.1 / 8
    need (ty != 3) dCode i.off
    need (n ≤ bmax) dLen (h.2.off - 1)
    let r ←
      if ty = 0 then (h.2.take n).map (fun x => ((x.1.reverse ++ out, z), x.2))
      else if ty = 1 then (h.2.num 1).map (fun x => ((List.replicate n x.1 ++ out, z), x.2))
      else (do
        let x ← h.2.sub n
        let r ← zBlock win bmax z x.1 out
        pure (r, x.2))
    if h.1 % 2 = 1 then return (r.1.1, r.2) else zBlocks win bmax f r.1.2 r.2 r.1.1

/-! ### Frames -/

/-- The header of a frame: window, content size, content checksum, and whether it is a single segment. -/
structure ZHead where
  win : Nat
  size : Option Nat
  sum : Bool
  single : Bool
deriving DecidableEq, Repr

/-- The header after its magic number. -/
def zHead (i : Inp) : Dec (ZHead × Inp) := do
  let d ← i.num 1
  let single := d.1.testBit 5
  need (!d.1.testBit 3) dHeader i.off
  let w ← if single then .ok (0, d.2) else d.2.num 1
  let win := 2 ^ (10 + w.1 / 8) + 2 ^ (10 + w.1 / 8) / 8 * (w.1 % 8)
  let id ← w.2.num ([0, 1, 2, 4].getD (d.1 % 4) 0)
  need (id.1 == 0) dHeader (id.2.off - 1)
  let k := d.1 / 64
  let s ← id.2.num (if k = 0 then (if single then 1 else 0) else 2 ^ k)
  let n := if k = 1 then s.1 + 256 else s.1
  return ({ win := if single then n else win, size := if k = 0 && !single then none else some n, sum := d.1.testBit 2, single := single }, s.2)

/-- A frame after its magic number, with a window of at most lim bytes. -/
def zFrame (verify : Bool) (lim : Nat) (i : Inp) : Dec (List Nat × Inp) := do
  let h ← zHead i
  need (h.1.win ≤ lim) dWindow (h.2.off - 1)
  let r ← zBlocks h.1.win (min h.1.win (2 ^ 17)) (i.bytes.length + 1) {} h.2 []
  let out := r.1.reverse
  need (match h.1.size with
    | some n => n == out.length
    | none => true) dLen (r.2.off - 1)
  if h.1.sum then
    let c ← r.2.num 4
    need (!verify || c.1 == xxh64 out % 2 ^ 32) dSum (c.2.off - 1)
    return (out, c.2)
  else return (out, r.2)

/-- A stream of Zstandard frames, with windows of at most 2^wlog bytes. -/
def unZstd (wlog : Nat) (verify : Bool) (l : List Nat) : Dec (List Nat) :=
  frames 0xFD2FB528 (zFrame verify (2 ^ wlog)) (l.length + 1) ⟨l, 0, dEnd⟩

end Sys2Proof.Machine
end

