-- ==== Sys2Proof/Machine/JobOps.lean ====
section
/-! DEFINITION. Descriptors of the object preparation engines, their checks, and what a chain of operations computes
(11_job_engines.md R279, R287 to R296). -/

namespace Sys2Proof.Machine

/-! ### Descriptors (R287, R288) -/

/-- A field of n bytes of a descriptor. -/
def JobE.at_ (j : JobE) (off n : Nat) : Nat := leBytes j.desc off n

def JobE.nops (j : JobE) : Nat := j.at_ 4 1
def JobE.irq (j : JobE) : Bool := (j.at_ 5 1).testBit 0
def JobE.fence (j : JobE) : Bool := (j.at_ 5 1).testBit 1
def JobE.want (j : JobE) : Nat := j.at_ 6 1
def JobE.src (j : JobE) : Nat := j.at_ 8 8
def JobE.srcLen (j : JobE) : Nat := j.at_ 16 4
def JobE.dstLen (j : JobE) : Nat := j.at_ 20 4
def JobE.dst (j : JobE) : Nat := j.at_ 24 8

/-- An operation slot (Table 11.3). -/
structure JobOp where
  opc : Nat
  fmt : Nat
  p0 : Nat
  p1 : Nat
  p32 : Nat
  a0 : Nat
  a1 : Nat
deriving DecidableEq, Repr

/-- Slot i of a descriptor. -/
def JobE.op (j : JobE) (i : Nat) : JobOp :=
  let o := 32 + 24 * i
  { opc := j.at_ o 1, fmt := j.at_ (o + 1) 1, p0 := j.at_ (o + 2) 1, p1 := j.at_ (o + 3) 1, p32 := j.at_ (o + 4) 4,
    a0 := j.at_ (o + 8) 8, a1 := j.at_ (o + 16) 8 }

/-- The slots of the chain. -/
def JobE.ops (j : JobE) : List JobOp := (List.range (min j.nops 4)).map j.op

/-- A digest operation, and the bytes of its result. -/
def JobOp.digest (o : JobOp) : Bool := o.opc == 0x20 || o.opc == 0x21 || o.opc == 0x22
def JobOp.doutLen (o : JobOp) : Nat := if o.opc = 0x20 then 4 else if o.opc = 0x21 then 8 else 32

/-- R292: the largest window of a COMPRESS, and the window in force. -/
def JobOp.wlogMax (o : JobOp) (afterDec : Bool) : Nat :=
  let m := if o.fmt ≤ 3 then 15 else if o.fmt = 4 then 23 else 16
  if afterDec then min m 16 else m
def JobOp.wlogMin (o : JobOp) : Nat := if o.fmt ≤ 3 then 9 else if o.fmt = 4 then 10 else 16
def JobOp.wlog (o : JobOp) (afterDec : Bool) : Nat := if o.p1 = 0 then o.wlogMax afterDec else o.p1

/-- R292: CFLAGS for the format. -/
def JobOp.cflagsOk (o : JobOp) : Bool :=
  let b := o.p32 / 4 % 8
  if o.fmt ≤ 3 then o.p32 == 0 else if o.fmt = 4 then decide (o.p32 < 2) else decide (o.p32 < 32) && (b == 0 || decide (4 ≤ b))

/-- R296: K, M and SHARD_LEN. -/
def JobOp.ecOk (o : JobOp) : Bool :=
  1 ≤ o.p0 && o.p0 ≤ 32 && 1 ≤ o.p1 && o.p1 ≤ 8 && o.p32 % 64 == 0 && 64 ≤ o.p32 && o.p32 ≤ 2 ^ 24

/-- R279, R288, R292, R293, R295, R296, Table 11.4: a slot below NOPS by itself; afterDec: a DECOMPRESS stands before it. -/
def JobOp.ok (o : JobOp) (afterDec : Bool) : Bool :=
  let plain := o.fmt == 0 && o.p0 == 0 && o.p1 == 0 && o.p32 == 0
  let dout := decide (o.a0 < 2 ^ 46)
  match o.opc with
  | 0x01 => plain && o.a0 == 0 && o.a1 == 0
  | 0x02 => plain && o.a0 == 0
  | 0x10 => 1 ≤ o.fmt && o.fmt ≤ 5 && 1 ≤ o.p0 && o.p0 ≤ 12 && o.cflagsOk && o.a0 == 0 && o.a1 == 0 &&
      decide (o.wlogMin ≤ o.wlog afterDec) && decide (o.wlog afterDec ≤ o.wlogMax afterDec)
  | 0x11 => 1 ≤ o.fmt && o.fmt ≤ 5 && o.p0 == 0 && o.p32 < 2 && o.a0 == 0 && o.a1 == 0 &&
      (o.p1 == 0 || (decide (4 ≤ o.fmt) && 10 ≤ o.p1 && o.p1 ≤ 23))
  | 0x20 => plain && dout && decide (o.a1 < 2 ^ 32)
  | 0x21 => plain && dout
  | 0x22 => plain && dout && o.a0 != 0 && o.a1 == 0
  | 0x30 => o.fmt == 0 && o.ecOk && o.a0 == 0 && o.a1 == 0
  | 0x31 => o.fmt == 0 && o.ecOk && o.a0 < 2 ^ (o.p0 + o.p1) && o.a1 < 2 ^ (o.p0 + o.p1) && (o.a0 &&& o.a1) == 0 && o.a1 != 0
  | _ => false

/-! ### Ranges (R289, R297) -/

/-- A range of DPA: first byte, length, written, and the slot that it belongs to (255: none). -/
structure JRange where
  lo : Nat
  len : Nat
  wr : Bool
  slot : Nat := 255
deriving DecidableEq, Repr

/-- Two ranges of a list overlap. -/
def anyMeet : List JRange → Bool
  | [] => false
  | r :: l => l.any (fun s => r.lo < s.lo + s.len && s.lo < r.lo + r.len) || anyMeet l

/-- The kind of the chain's first slot. -/
def JobE.isEc (j : JobE) : Bool := j.nops == 1 && ((j.op 0).opc == 0x30 || (j.op 0).opc == 0x31)
def JobE.isRecon (j : JobE) : Bool := j.nops == 1 && (j.op 0).opc == 0x31
def JobE.isFill (j : JobE) : Bool := 1 ≤ j.nops && (j.op 0).opc == 0x02

/-- The DOUT fields of a chain. -/
def JobE.douts (j : JobE) : List JRange :=
  (List.range (min j.nops 4)).filterMap (fun i =>
    let o := j.op i
    if o.digest && o.a0 != 0 then some { lo := o.a0, len := o.doutLen, wr := true, slot := i } else none)

/-- The ranges that the descriptor itself names: source or shard table, destination, DOUTs. -/
def JobE.ranges (j : JobE) : List JRange :=
  if j.nops = 0 then []
  else
    ((if j.isFill then [] else [({ lo := j.src, len := j.srcLen, wr := false } : JRange)]) ++
     (if j.isRecon then [] else [({ lo := j.dst, len := j.dstLen, wr := true } : JRange)]) ++ j.douts).filter (fun (r : JRange) => r.len != 0)

/-- R296: the shards that EC_RECON reads, the K lowest present, and those it writes. -/
def JobE.reads (j : JobE) : List Nat := (bitsOf 40 (j.op 0).a0).take (j.op 0).p0
def JobE.builds (j : JobE) : List Nat := bitsOf 40 (j.op 0).a1

/-- The ranges of the shards that a job reads and writes. -/
def JobE.shardRanges (j : JobE) : List JRange :=
  j.shards.map (fun (x : Nat × Nat) => { lo := x.2, len := (j.op 0).p32, wr := j.builds.contains x.1, slot := 0 })

/-- Every range of a job. -/
def JobE.allRanges (j : JobE) : List JRange := j.ranges ++ j.shardRanges

/-- R289: the rules of a chain as a whole. -/
def JobE.chainOk (j : JobE) : Bool :=
  let ops := j.ops
  let n := fun (p : JobOp → Bool) => (ops.filter p).length
  let ec := ops.any (fun o => o.opc == 0x30 || o.opc == 0x31)
  let o0 := j.op 0
  !(ec && j.nops != 1) && !((ops.drop 1).any (fun o => o.opc == 0x02)) &&
  n (fun o => o.opc == 0x10) ≤ 1 && n (fun o => o.opc == 0x11) ≤ 1 && n (fun o => o.opc == 0x01) ≤ 1 && n JobOp.digest ≤ 2 &&
  n (fun o => (o.opc == 0x20 || o.opc == 0x21) && o.a0 == 0) ≤ 1 &&
  (if j.nops = 0 then true else if j.isFill then j.src == 0 && j.srcLen == 0 else 1 ≤ j.srcLen && j.srcLen ≤ 2 ^ 30) &&
  (if o0.opc = 0x30 ∧ j.nops = 1 then j.srcLen == o0.p0 * o0.p32 && j.dstLen == o0.p1 * o0.p32 else true) &&
  (if j.isRecon then j.srcLen == (o0.p0 + o0.p1) * 8 && j.dst == 0 && j.dstLen == 0 else true) && !anyMeet j.ranges

/-- R287 to R290, R296: the status and failing slot of a descriptor that is refused. -/
def JobE.check (j : JobE) : Option (Nat × Nat) :=
  if 4 < j.nops ∨ 4 ≤ j.at_ 5 1 ∨ 8 < j.want ∨ j.at_ 7 1 ≠ 0 ∨ 2 ^ 46 ≤ j.src ∨ 2 ^ 46 ≤ j.dst then some (stInvalidDesc, 255)
  else
    match (List.range 4).find? (fun i =>
      if j.nops ≤ i then j.at_ (32 + 24 * i) 24 != 0
      else !(j.op i).ok ((j.ops.take i).any (fun o => o.opc == 0x11))) with
    | some i => some (stInvalidDesc, i)
    | none =>
      if !j.chainOk then some (stInvalidDesc, 255)
      else if j.isRecon && popCount 40 (j.op 0).a0 < (j.op 0).p0 then some (stInsufficientShards, 0)
      else none

/-! ### Operations (R291 to R296) -/

/-- n bytes of PATTERN repeated (R291). -/
def fillBytes (pattern n : Nat) : List Nat := (List.range n).map (fun i => pattern / 256 ^ (i % 8) % 256)

/-- The bytes of a list in pieces of n bytes, the last one shorter, and at least one. -/
def cutUp (n : Nat) (l : List Nat) : List (List Nat) := pieces n l (max 1 ((l.length + n - 1) / n))

/-- Input in stored blocks of DEFLATE. -/
def storedDeflate (l : List Nat) : List Nat :=
  let ps := cutUp 65535 l
  (ps.mapIdx (fun i p => [if i + 1 = ps.length then 1 else 0] ++ toBytes 2 p.length ++ toBytes 2 (65535 - p.length) ++ p)).flatten

/-- Input in raw blocks of a Zstandard frame, with the header of R292; single: Single_Segment_Flag. -/
def storedZstd (w : Nat) (csum single : Bool) (l : List Nat) : List Nat :=
  let bmax := max 1 (min (if single then l.length else 2 ^ w) (2 ^ 17))
  let ps := cutUp bmax l
  toBytes 4 0xFD2FB528 ++ [0xC0 + (if single then 0x20 else 0) + (if csum then 4 else 0)] ++ (if single then [] else [(w - 10) * 8]) ++
    toBytes 8 l.length ++ (ps.mapIdx (fun i p => toBytes 3 ((if i + 1 = ps.length then 1 else 0) + p.length * 8) ++ p)).flatten ++
    (if csum then toBytes 4 (xxh64 l % 2 ^ 32) else [])

/-- The code of BMAX: 0 means 7 (Table 11.4). -/
def JobOp.bmax (o : JobOp) : Nat := if o.p32 / 4 % 8 = 0 then 7 else o.p32 / 4 % 8

/-- Input in uncompressed blocks of an LZ4 frame, with the header of R292. -/
def JobOp.storedLz4 (o : JobOp) (l : List Nat) : List Nat :=
  let flg := 0x68 + (if o.p32.testBit 1 then 0x10 else 0) + (if o.p32.testBit 0 then 4 else 0)
  let head := [flg, o.bmax * 16] ++ toBytes 8 l.length
  let ps := if l.isEmpty then [] else cutUp (2 ^ (8 + 2 * o.bmax)) l
  toBytes 4 0x184D2204 ++ head ++ [xxh32 head / 256 % 256] ++
    (ps.map (fun p => toBytes 4 (2 ^ 31 + p.length) ++ p ++ (if o.p32.testBit 1 then toBytes 4 (xxh32 p) else []))).flatten ++
    toBytes 4 0 ++ (if o.p32.testBit 0 then toBytes 4 (xxh32 l) else [])

/-- A decode gives these bytes, and consumes its input. -/
def gives (r : Dec (List Nat × Inp)) (l : List Nat) : Bool :=
  match r with
  | .ok x => x.1 == l && x.2.bytes.isEmpty
  | .error _ => false

/-- R292: a Zstandard or LZ4 stream is one frame with the header that the rule fixes, which decodes to the input. -/
def JobOp.frameOk (o : JobOp) (w : Nat) (single : Bool) (l s : List Nat) : Bool :=
  let i : Inp := ⟨s.drop 4, 4, dEnd⟩
  if o.fmt = 4 then
    ofBytes (s.take 4) == 0xFD2FB528 && gives (zFrame true (if single then max (2 ^ w) l.length else 2 ^ w) i) l &&
    (match zHead i with
      | .ok h => h.1.size == some l.length && h.1.sum == o.p32.testBit 0 && h.1.single == single
      | .error _ => false)
  else
    ofBytes (s.take 4) == 0x184D2204 && gives (lz4Frame true (2 ^ w) i) l &&
    (match lz4Head i with
      | .ok h => h.1 == ⟨true, o.p32.testBit 1, some l.length, o.p32.testBit 0, 2 ^ (8 + 2 * o.bmax)⟩
      | .error _ => false)

/-- R292: the coded form of an input, which every conforming decoder accepts: the part's own (Config.compressOutput) where that decodes to
the input within the window and has the header that the rule fixes, else stored blocks (log entry 35). -/
def JobOp.coded (o : JobOp) (w : Nat) (single : Bool) (l : List Nat) : List Nat :=
  let f := if o.fmt ≤ 3 then 1 else o.fmt
  let s := (Config.compressOutput f o.p0 w o.p32 (l.map (BitVec.ofNat 8))).map BitVec.toNat
  if o.fmt ≤ 3 then if gives (inflate (2 ^ w) ⟨s, 0, dEnd⟩) l then s else storedDeflate l
  else if o.frameOk w single l s then s
  else if o.fmt = 4 then storedZstd w (o.p32.testBit 0) single l else o.storedLz4 l

/-- R292: the stream of COMPRESS, with the headers and trailers of zlib and gzip; srcLen: the job's SRC_LEN, which sets
Single_Segment_Flag. -/
def compress (o : JobOp) (afterDec : Bool) (srcLen : Nat) (l : List Nat) : List Nat :=
  let w := o.wlog afterDec
  let s := o.coded w (srcLen ≤ 2 ^ w) l
  if o.fmt = 2 then
    let cmf := (w - 8) * 16 + 8
    let fl := 0x80
    [cmf, fl + (31 - (cmf * 256 + fl) % 31) % 31] ++ s ++ (toBytes 4 (adler32 l)).reverse
  else if o.fmt = 3 then [0x1F, 0x8B, 8, 0, 0, 0, 0, 0, 0, 255] ++ s ++ toBytes 4 (crc32Of l) ++ toBytes 4 (l.length % 2 ^ 32)
  else s

/-- R293: log2 of the window limit of a DECOMPRESS; narrow where it feeds COMPRESS or DST_LEN is 0. -/
def JobOp.limit (o : JobOp) (narrow : Bool) : Nat :=
  let m := if o.fmt ≤ 3 then 15 else if o.p1 = 0 then 23 else o.p1
  if narrow then min m 16 else m

/-- R293, R294: what DECOMPRESS of a format makes of its input, with windows of at most 2^wlog bytes. -/
def decompress (fmt wlog : Nat) (verify : Bool) (l : List Nat) : Dec (List Nat) :=
  if fmt = 1 then unDeflate (2 ^ wlog) l
  else if fmt = 2 then unZlib wlog l
  else if fmt = 3 then unGzip wlog l
  else if fmt = 4 then unZstd wlog verify l
  else unLz4 wlog verify l

/-- What a chain makes: the stream, the digests as DOUT and bytes, and the result of the CRC with DOUT 0; or the failing status,
RESULT and slot. -/
structure JOut where
  data : List Nat
  digests : List (Nat × List Nat) := []
  result : Nat := 0
  err : Option (Nat × Nat × Nat) := none
deriving DecidableEq, Repr

/-- The status of error i of Table 11.6. -/
def stDecode (i : Nat) : Nat := 0x910 + min i 6

/-- A digest of the stream so far. -/
def JOut.digest (r : JOut) (o : JobOp) : JOut :=
  let bytes := if o.opc = 0x20 then toBytes 4 (crc32cFrom o.a1 r.data) else if o.opc = 0x21 then toBytes 8 (crc64 o.a1 r.data) else sha256 r.data
  if o.a0 = 0 then { r with result := ofBytes bytes } else { r with digests := r.digests ++ [(o.a0, bytes)] }

/-- Slot i takes the stream of the slot before it (R289). -/
def JobE.runOp (j : JobE) (r : JOut) (i : Nat) : JOut :=
  let o := j.op i
  let afterDec := (j.ops.take i).any (fun o => o.opc == 0x11)
  let fits := fun (r : JOut) => if 2 ^ 32 ≤ r.data.length then { r with err := some (stOutputOverflow, 0, i) } else r
  if r.err.isSome then r
  else if o.opc = 0x02 then { r with data := fillBytes o.a1 j.dstLen }
  else if o.opc = 0x10 then fits { r with data := compress o afterDec j.srcLen r.data }
  else if o.opc = 0x11 then
    let narrow := j.dstLen == 0 || (j.ops.drop (i + 1)).any (fun o => o.opc == 0x10)
    match decompress o.fmt (o.limit narrow) (o.p32 == 1) r.data with
    | .ok l => fits { r with data := l }
    | .error e => { r with err := some (stDecode e.1, e.2, i) }
  else if o.digest then r.digest o
  else r

/-- Table 11.4: FILL with DST_LEN 0 is a no-op: its digests are those of an empty stream, and its other slots do nothing. -/
def JobE.noFill (j : JobE) : JOut := (j.ops.filter JobOp.digest).foldl JOut.digest { data := [] }

/-- R289, R299: the chain over its source; a stream beyond DST_LEN fails. -/
def JobE.run (j : JobE) (src : List Nat) : JOut :=
  if j.isFill && j.dstLen == 0 then j.noFill
  else
  let r := (List.range (min j.nops 4)).foldl j.runOp { data := src }
  if r.err.isNone && j.dstLen != 0 && j.dstLen < r.data.length then { r with err := some (stOutputOverflow, 0, 255) } else r

/-- R296: the parity shards of EC_ENCODE. -/
def JobE.encode (j : JobE) (src : List Nat) : List Nat :=
  let o := j.op 0
  ((List.range o.p1).map (fun p => ecParity o.p1 p (pieces o.p32 src o.p0))).flatten

/-- R296: the shards that EC_RECON writes, from those it read, in the order of JobE.reads. -/
def JobE.recon (j : JobE) (shards : List (List Nat)) : List (Nat × List Nat) :=
  let o := j.op 0
  let data := ecSolve o.p0 o.p1 (j.reads.zip shards)
  j.builds.map (fun s => (s, if s < o.p0 then data.getD s [] else ecParity o.p1 (s - o.p0) data))

/-! ### Lines -/

/-- The lines of a range. -/
def rangeLines (lo len : Nat) : List Nat := if len = 0 then [] else (List.range ((lo + len - 1) / 64 + 1 - lo / 64)).map (lo / 64 + ·)

/-- The bytes of a range, from its lines in order. -/
def cutBytes (lo len : Nat) (ls : List LineData) : List Nat := ((ls.flatMap (fun x => toBytes 64 x.toNat)).drop (lo % 64)).take len

/-- The line writes that put bytes at a DPA: line, data, byte mask. -/
def lineWrites (lo : Nat) (bytes : List Nat) : List (Nat × LineData × BitVec 64) :=
  (rangeLines lo bytes.length).map (fun l =>
    let first := if l * 64 < lo then lo - l * 64 else 0
    let off := if l * 64 < lo then 0 else l * 64 - lo
    let part := (bytes.drop off).take (64 - first)
    (l, BitVec.ofNat 512 (ofBytes part * 256 ^ first), BitVec.ofNat 64 ((2 ^ part.length - 1) * 2 ^ first)))

/-- A line of free bytes, number n (contents that R295 and R299 call undefined). -/
def freeLine (n : Nat) : LineData := BitVec.ofNat 512 (ofBytes ((List.range 64).map (fun i => (Config.freeByte n i).toNat)))

/-- R299: what a failed job leaves where it would have written: free bytes. -/
def freeWrites (n : Nat) (rs : List JRange) : List (Nat × LineData × BitVec 64) :=
  (((rs.filter (·.wr)).flatMap (fun r => lineWrites r.lo (List.replicate r.len 0))).zipIdx).map
    (fun (x : (Nat × LineData × BitVec 64) × Nat) => (x.1.1, freeLine (n + x.2), x.1.2.2))

end Sys2Proof.Machine
end

