-- ==== Sys2Proof/Machine/Jobs.lean ====
section
/-! DEFINITION. Queues, dispatch, job ends and completion records (11_job_engines.md R278 to R286, R297 to R305). -/

namespace Sys2Proof.Machine

/-! ### Queue counts -/

/-- a - b of free-running 32-bit counts. -/
def cntDiff (a b : Nat) : Nat := (a + 2 ^ 32 - b % 2 ^ 32) % 2 ^ 32

/-- Entries of the two rings. -/
def Dev.dqSize (d : Dev) (h q : Nat) : Nat := 2 ^ d.get (fJDB_CTL_QLOG h q)
def Dev.cqSize (d : Dev) (h q : Nat) : Nat := 2 ^ d.get (fJDB_CTL_CLOG h q)

/-- DPA of an entry of the descriptor ring, and of the completion ring. -/
def Dev.dqAddr (d : Dev) (h q n : Nat) : Nat := d.get (fJDB_DQBASE_DPA h q) + 128 * (n % d.dqSize h q)
def Dev.cqAddr (d : Dev) (h q n : Nat) : Nat := d.get (fJDB_CQBASE_DPA h q) + 32 * (n % d.cqSize h q)

/-- A head reaches its doorbell pages: its link is up, and not configuration space only (R37). -/
def Dev.headReach (d : Dev) (h : Nat) : Bool := (d.portOf h).up && !d.cfgOnly h

/-- A queue that runs or drains halts with cause DOORBELL (R281, log entry 36). -/
def Dev.badDoorbell (d : Dev) (h q : Nat) : Dev :=
  if d.get (fJDB_STS_STATE h q) = qActive ∨ d.get (fJDB_STS_STATE h q) = qDraining then
    let d := { d with job := { d.job with badCount := (qNum h q :: d.job.badCount).eraseDups } }
    d.queueHalt h q 4 0 0 true
  else d

/-- A consistent count has been written. -/
def Dev.goodDoorbell (d : Dev) (h q : Nat) : Dev :=
  { d with job := { d.job with badCount := d.job.badCount.filter (· != qNum h q) } }

/-- A doorbell write of JDB_TAIL. -/
def Dev.tailWrite (d : Dev) (h q n : Nat) : Dev :=
  if d.dqSize h q < cntDiff n (d.get (fJDB_HEAD_COUNT h q)) then d.badDoorbell h q
  else (d.set (fJDB_TAIL_COUNT h q) n).goodDoorbell h q

/-- A write of JDB_CQHEAD. -/
def Dev.cqheadWrite (d : Dev) (h q n : Nat) : Dev :=
  if d.cqSize h q < cntDiff (d.get (fJDB_CQTAIL_COUNT h q)) n then d.badDoorbell h q
  else (d.set (fJDB_CQHEAD_COUNT h q) n).goodDoorbell h q

/-- R281. -/
def execJdbTailWrite (h : Head) (q : BitVec 4) (count : BitVec 32) : State → Result :=
  run (fun d => d.when (d.headReach h.toNat) (fun d => d.tailWrite h.toNat q.toNat count.toNat))

/-- R281. -/
def execJdbCqheadWrite (h : Head) (q : BitVec 4) (count : BitVec 32) : State → Result :=
  run (fun d => d.when (d.headReach h.toNat) (fun d => d.cqheadWrite h.toNat q.toNat count.toNat))

/-! ### The checks of R297 -/

/-- The status of a range that head h must not touch; none where it passes. -/
def Dev.jobRange (d : Dev) (h : Nat) (r : JRange) : Option Nat :=
  match d.winOf r.lo with
  | none => some stAddrFault
  | some w =>
    if !d.winHas w (r.lo + r.len - 1) || !d.winMember w h || d.mirSt w == mirTarget || d.mirSt w == mirYielded || d.winDown w then
      some stAddrFault
    else if r.wr && (d.krExh (d.winKr w) || (d.basic && d.winTiered w)) then some stDestReadOnly
    else none

/-- R76: an access of head h's job to a DPA in no valid window, or in one of which h is no member, is seen and recorded. -/
def Dev.jobMiss (d : Dev) (h dpa : Nat) : Dev :=
  if (match d.winOf dpa with
    | some w => d.winMember w h
    | none => false) then d else (d.missSeen h dpa).unclaimedMark h 76 dpa 0

/-- The first of a list of ranges that fails: status, its first DPA, its slot. -/
def Dev.jobRanges (d : Dev) (h : Nat) (l : List JRange) : Option (Nat × Nat × Nat) :=
  l.findSome? (fun r => (d.jobRange h r).map (fun s => (s, r.lo, r.slot)))

/-- A range's window is being changed: its accesses wait (R71). -/
def Dev.rangeMoves (d : Dev) (r : JRange) : Bool := d.win.chg.any (fun c => d.chgHolds r.lo c)

/-! ### Lines (R95, R298) -/

/-- An agent reads lines; none while one of them must wait, which leaves those that could be read untouched. -/
def Acc.readLines (a : Acc) (o : Origin) (cls : Nat) (ls : List Nat) : Option (List PLine) × Acc :=
  let ask := fun (a : Acc) (dl : Nat) => a.agentRead o cls ((a.dev.winOf (dl * 64)).getD 0) dl
  let wait := ls.any (fun dl => match (ask a dl).1 with
    | .wait => true
    | .have_ _ => false)
  if wait then
    (none, ls.foldl (fun (a : Acc) dl => match ask a dl with
      | (.wait, b) => b
      | (.have_ _, _) => a) a)
  else
    ls.foldl (fun (r : Option (List PLine) × Acc) dl =>
      match r with
      | (some l, a) => (match ask a dl with
        | (.have_ x, b) => (some (l ++ [x]), b)
        | (.wait, b) => (none, b))
      | (none, a) => (none, a)) (some [], a)

/-- The first poisoned line of a list. -/
def firstPoison (ls : List Nat) (xs : List PLine) : Option Nat := ((ls.zip xs).find? (fun (x : Nat × PLine) => x.2.2 != 0)).map (·.1)

/-! ### Service-class weight in the dispatcher (R286, R314) -/

/-- The next job of a queue, if it may start: its jobs start in ring order, and FENCE waits for the earlier ones (R283). -/
def Dev.nextJob (d : Dev) (h q : Nat) : Option JobE :=
  let l := d.jobsOf h q
  if l.any (fun j => j.place == 2) then none
  else
    match l.find? (fun j => j.place == 0) with
    | some j => if j.fence && l.any (fun k => k.seq != j.seq && cntDiff k.seq j.seq ≥ 2 ^ 31) then none else some j
    | none => none

/-- Queues with a job that may start, by number. -/
def Dev.readyQueues (d : Dev) : List Nat :=
  ((d.job.jobs.map (fun j => qNum j.head j.queue)).eraseDups).filter (fun n => (d.nextJob (n / 16) (n % 16)).isSome)

/-- The service class of a queue. -/
def Dev.queueClass (d : Dev) (n : Nat) : Nat := d.get (fJDB_STS_CLASS (n / 16) (n % 16))

/-- Classes with a job that may start. -/
def Dev.readyClasses (d : Dev) : List Nat := (d.readyQueues.map d.queueClass).eraseDups

/-- R314: classes that had no candidate before d0 and have one in d. -/
def Dev.joinJobs (d0 d : Dev) : Dev :=
  let now := d.readyClasses
  let old := d0.readyClasses
  { d with job := { d.job with vt := (now.filter (fun c => !old.contains c)).foldl (fun t c => joinV t 0 c now) d.job.vt } }

/-! ### Jobs -/

/-- R302: poison halts the queue when its jobs have ended; the first is latched. -/
def Dev.jobPoison (d : Dev) (j : JobE) (dpa : Nat) : Dev :=
  let n := qNum j.head j.queue
  let d := if (tfind d.job.halting n).isSome then d
    else { d with job := { d.job with halting := tins d.job.halting n (1, dpa, d.dqSlot j.head j.queue j.seq) } }
  d.raise { src := src 33 2, sev := 2, code := 302, obj := n, addr := dpa, akind := 1, head := some j.head }

/-- A queue whose jobs have all ended and written their records halts, if poisoned, or is DISABLED, if draining (R302, R305). -/
def Dev.queueSettle (d : Dev) (h q : Nat) : Dev :=
  if !(d.jobsOf h q).isEmpty || d.job.fetching.contains (qNum h q) then d
  else
    let n := qNum h q
    let hl := tfind d.job.halting n
    let d := { d with job := { d.job with halting := tdel d.job.halting n } }
    if d.get (fJDB_STS_STATE h q) = qDraining then d.set (fJDB_STS_STATE h q) qDisabled
    else
      match hl with
      | some x => d.queueHalt h q x.1 x.2.1 x.2.2 false
      | none => d

/-! ### Enable, disable, resume (R280, R305) -/

/-- R280: the conditions of an enable. -/
def Dev.queueOk (d : Dev) (h q : Nat) : Bool :=
  let ql := d.get (fJDB_CTL_QLOG h q)
  let cl := d.get (fJDB_CTL_CLOG h q)
  let db := d.get (fJDB_DQBASE_DPA h q)
  let cb := d.get (fJDB_CQBASE_DPA h q)
  let inWin := fun lo len => match d.winOf lo with
    | some w => d.winHas w (lo + len - 1) && d.winMember w h
    | none => false
  4 ≤ ql && ql ≤ 16 && 4 ≤ cl && cl ≤ 16 && db % 4096 == 0 && cb % 4096 == 0 &&
  inWin db (128 * 2 ^ ql) && inWin cb (32 * 2 ^ cl) && (d.jobRange h { lo := cb, len := 32 * 2 ^ cl, wr := true }).isNone

/-- EN is written 1 in a DISABLED queue, whose locked fields are writable. -/
def Dev.queueEnable (d : Dev) (h q ctl : Nat) : Dev :=
  let d := ((d.set (fJDB_CTL_QLOG h q) (ctl / 4 % 32)).set (fJDB_CTL_CLOG h q) (ctl / 128 % 32)).set (fJDB_CTL_VEC h q) (ctl / 4096 % 64)
  if d.queueOk h q then
    let d := (((d.set (fJDB_TAIL_COUNT h q) 0).set (fJDB_HEAD_COUNT h q) 0).set (fJDB_CQHEAD_COUNT h q) 0).set (fJDB_CQTAIL_COUNT h q) 0
    (((d.setFlag (fJDB_CTL_EN h q) true).set (fJDB_STS_STATE h q) qActive).set (fJDB_STS_CAUSE h q) 0).goodDoorbell h q
  else
    (d.set (fJDB_STS_CAUSE h q) 7).raise { src := src 33 1, sev := 1, code := 280, obj := qNum h q, head := some h }

/-- EN is written 0: a queue that runs drains. -/
def Dev.queueDisable (d : Dev) (h q : Nat) : Dev :=
  let st := d.get (fJDB_STS_STATE h q)
  if (st = qActive ∨ st = qHalted) ∧ d.get (fJDB_STS_CAUSE h q) ≠ 5 then
    let d := d.fetchGone h q
    ((d.setFlag (fJDB_CTL_EN h q) false).set (fJDB_STS_STATE h q) qDraining).queueSettle h q
  else d

/-- The cause of a halt can be resumed now (Table 11.9): BASIC after the exit, and a queue that a doorbell halted, whatever halted it as well,
once a consistent count is written (log entry 36). -/
def Dev.resumable (d : Dev) (h q : Nat) : Bool :=
  let c := d.get (fJDB_STS_CAUSE h q)
  c != 5 && !(c == 6 && d.basic) && !d.job.badCount.contains (qNum h q)

/-- RESUME is written 1. -/
def Dev.queueResume (d : Dev) (h q : Nat) : Dev :=
  if d.get (fJDB_STS_STATE h q) = qHalted ∧ d.resumable h q = true then (d.set (fJDB_STS_STATE h q) qActive).set (fJDB_STS_CAUSE h q) 0 else d

/-- R280. -/
def execQueueEnable (h : Head) (q : BitVec 4) (ctl : BitVec 32) : State → Result :=
  run (fun d => d.when (d.headReach h.toNat && ctl.getLsbD 0 && d.get (fJDB_STS_STATE h.toNat q.toNat) == qDisabled)
    (fun d => d.queueEnable h.toNat q.toNat ctl.toNat))

/-- R305. -/
def execQueueDisable (h : Head) (q : BitVec 4) : State → Result :=
  run (fun d => d.when (d.headReach h.toNat) (fun d => d.queueDisable h.toNat q.toNat))

/-- R305. -/
def execQueueResume (h : Head) (q : BitVec 4) : State → Result :=
  run (fun d => d.when (d.headReach h.toNat) (fun d => d.queueResume h.toNat q.toNat))

/-! ### Descriptor fetch (R282, R283, R287) -/

/-- Jobs run now. -/
def Dev.jobsRun (d : Dev) : Bool := !d.halted && !d.fatal && !d.basic && d.portsOpen

/-- R278: the dispatcher's store has a free entry, and no more than 272 jobs (264 on NLH-7324-AB) are in flight. -/
def Dev.storeRoom (d : Dev) : Bool :=
  (d.job.jobs.filter (fun j => j.place == 0)).length + d.job.fetching.length < 256 &&
  d.job.jobs.length + d.job.fetching.length < 256 + 2 * popCount 8 d.present

/-- R283: the conditions of a fetch. -/
def Dev.mayFetch (d : Dev) (h q : Nat) : Bool :=
  let n := (d.jobsOf h q).length
  d.jobsRun && d.get (fJDB_STS_STATE h q) == qActive && (tfind d.job.halting (qNum h q)).isNone &&
  !d.job.fetching.contains (qNum h q) && d.get (fJDB_TAIL_COUNT h q) != d.get (fJDB_HEAD_COUNT h q) && n < 8 &&
  cntDiff (d.get (fJDB_CQTAIL_COUNT h q)) (d.get (fJDB_CQHEAD_COUNT h q)) + n < d.cqSize h q && d.storeRoom

/-- R283. -/
def execDescriptorFetch (h : Head) (q : BitVec 4) : State → Result :=
  run (fun d => d.when (d.mayFetch h.toNat q.toNat) (fun d =>
    { d with job := { d.job with fetching := d.job.fetching ++ [qNum h.toNat q.toNat] } }))

/-- A slice that a descriptor may name. -/
def Dev.sliceThere (d : Dev) (s : Nat) : Bool := d.present.testBit s && d.bit fJOB_CTL_SLICE_EN s

/-- R286, R287: a descriptor enters the store; one that fails its check, or names a slice that is not there, ends at once. -/
def Dev.storeJob (d : Dev) (h q : Nat) (bytes : List Byte) : Dev :=
  let n := d.get (fJDB_HEAD_COUNT h q)
  let j : JobE := { head := h, queue := q, seq := n, desc := bytes }
  let d := (d.set (fJDB_HEAD_COUNT h q) (n + 1)).setJobs h q (d.job.jobs ++ [j])
  match j.check with
  | some x => d.endJob { j with status := x.1, opidx := x.2 }
  | none => if j.want != 0 && !d.sliceThere (j.want - 1) then d.endJob { j with status := stSliceAbsent } else d

/-- The fetch ends: the descriptor is copied whole, or the queue halts with RING (R303); a queue that no longer runs takes none. -/
def Acc.fetched (a : Acc) (h q : Nat) : Acc :=
  let n := qNum h q
  let gone := fun (d : Dev) => d.fetchGone h q
  let hd := a.dev.get (fJDB_HEAD_COUNT h q)
  let lo := a.dev.dqAddr h q hd
  let r : JRange := { lo := lo, len := 128, wr := false }
  if a.dev.get (fJDB_STS_STATE h q) ≠ qActive ∨ (tfind a.dev.job.halting n).isSome = true then a.upd (fun d => (gone d).queueSettle h q)
  else if (a.dev.jobRange h r).isSome then a.upd (fun d => ((gone d).jobMiss h lo).queueHalt h q 2 lo (d.dqSlot h q hd) true)
  else if a.dev.rangeMoves r then a
  else
    match a.readLines (.fetch h q) (a.dev.queueClass n) (rangeLines lo 128) with
    | (none, a) => a
    | (some xs, a) =>
      match firstPoison (rangeLines lo 128) xs with
      | some dl => a.upd (fun d => (gone d).queueHalt h q 2 (dl * 64) (d.dqSlot h q hd) true)
      | none => a.upd (fun d => Dev.joinJobs d ((gone d).storeJob h q (xs.flatMap (fun x => bytesOfLine x.1))))

/-- R287. -/
def execDescriptorFetched (h : Head) (q : BitVec 4) : State → Result :=
  runAcc (fun a => a.when (a.dev.jobsRun && a.dev.job.fetching.contains (qNum h.toNat q.toNat)) (fun a => a.fetched h.toNat q.toNat))

/-! ### Dispatch (R278, R286, R297) -/

/-- Queues whose next job slice s may take. -/
def Dev.queuesFor (d : Dev) (s : Nat) : List Nat :=
  d.readyQueues.filter (fun n => match d.nextJob (n / 16) (n % 16) with
    | some j => j.want == 0 || j.want == s + 1
    | none => false)

/-- The queue that slice s serves: the class of least virtual time, then round robin over head and queue. -/
def Dev.pickQueue (d : Dev) (s : Nat) : Option (Nat × Nat) :=
  let qs := d.queuesFor s
  let cls := (List.range 8).filter (fun c => qs.any (fun n => d.queueClass n == c))
  match leastV d.job.vt 0 cls with
  | some c =>
    (((List.range 512).map (fun i => (d.job.rr + i) % 512)).find? (fun n => qs.contains n && d.queueClass n == c)).map (fun n => (c, n))
  | none => none

/-- The shards of an EC_RECON, from its shard table (R296); an entry with bits above a DPA is refused. -/
def shardsOf (j : JobE) (table : List Nat) : Option (List (Nat × Nat)) :=
  let ent := fun i => ofBytes ((table.drop (8 * i)).take 8)
  let l := (List.range 40).filterMap (fun i => if j.reads.contains i || j.builds.contains i then some (i, ent i) else none)
  if l.all (fun (x : Nat × Nat) => x.2 < 2 ^ 46) then some l else none

/-- Job j goes to slice s: it runs, or stands staged behind the running job. -/
def Dev.placeJob (d : Dev) (j : JobE) (s : Nat) : Dev :=
  let busy := d.job.jobs.any (fun k => k.slice == s && k.place == 1)
  let d := (d.putJob j { j with place := if busy then 2 else 1, slice := s }).slicesStats
  if busy then d else d.pmu 42 0x70 s 8 1

/-- R297: the checks at dispatch; a job that fails ends without a slice. -/
def Dev.dispatchJob (d : Dev) (j : JobE) (s : Nat) : Dev :=
  if j.isRecon && anyMeet j.allRanges then d.endJob { j with status := stInvalidDesc, opidx := 0 }
  else
    match d.jobRanges j.head j.allRanges with
    | some x => (d.jobMiss j.head x.2.1).endJob { j with status := x.1, result := x.2.1, opidx := x.2.2 }
    | none => d.placeJob j s

/-- The job that slice s takes is checked; EC_RECON has its shard table read first. -/
def Acc.dispatch (a : Acc) (s : Nat) : Acc :=
  match a.dev.pickQueue s with
  | none => a
  | some (c, n) =>
    match a.dev.nextJob (n / 16) (n % 16) with
    | none => a
    | some j =>
      let took := fun (d : Dev) => { d with job := { d.job with rr := (n + 1) % 512, vt := d.served 0 c d.job.vt } }
      let fin := fun (a : Acc) (f : Dev → Dev) => a.upd (fun d => Dev.joinJobs d (f (took d)))
      match a.dev.jobRanges j.head j.ranges with
      | some x => fin a (fun d => (d.jobMiss j.head x.2.1).endJob { j with status := x.1, result := x.2.1, opidx := x.2.2 })
      | none =>
        if j.isRecon then
          if j.ranges.any a.dev.rangeMoves then a
          else
            match a.readLines (.fetch j.head j.queue) c (rangeLines j.src j.srcLen) with
            | (none, a) => a
            | (some xs, a) =>
              match firstPoison (rangeLines j.src j.srcLen) xs with
              | some dl =>
                fin a (fun d => (d.jobPoison j (dl * 64)).endJob { j with status := stMemPoison, result := dl * 64, halt := true })
              | none =>
                match shardsOf j (cutBytes j.src j.srcLen (xs.map (·.1))) with
                | none => fin a (fun d => d.endJob { j with status := stInvalidDesc, opidx := 0 })
                | some l => fin a (fun d => d.dispatchJob { j with shards := l } s)
        else fin a (fun d => d.dispatchJob j s)

/-- Slice s has room: it is powered and enabled, and holds no staged job. -/
def Dev.sliceFree (d : Dev) (s : Nat) : Bool :=
  d.sliceThere s && d.bit fPWR_DOM_STS_ON (33 + s) && !d.job.jobs.any (fun j => j.slice == s && j.place == 2)

/-- R286. -/
def execJobDispatch (slice : BitVec 3) : State → Result :=
  runAcc (fun a => a.when (a.dev.jobsRun && a.dev.sliceFree slice.toNat) (fun a => a.dispatch slice.toNat))

/-! ### The end of a job (R298 to R302) -/

/-- A job fails while it runs: what it would still have written is undefined (R299). -/
def Dev.failJob (d : Dev) (j : JobE) (status result opidx : Nat) (left : List (Nat × LineData × BitVec 64)) : JobE × Dev :=
  ({ j with ready := true, status := status, result := result, opidx := opidx, bytes := 0, todo := left }, { d with freeN := d.freeN + left.length })

/-- The free writes of all of a job's outputs. -/
def Dev.allFree (d : Dev) (j : JobE) : List (Nat × LineData × BitVec 64) := freeWrites d.freeN (j.allRanges.filter (fun r => (d.jobRange j.head r).isNone))

/-- The writes of a list with free data. -/
def Dev.freeRest (d : Dev) (l : List (Nat × LineData × BitVec 64)) : List (Nat × LineData × BitVec 64) :=
  (l.zipIdx).map (fun (x : (Nat × LineData × BitVec 64) × Nat) => (x.1.1, freeLine (d.freeN + x.2), x.1.2.2))

/-- The source of a job: the lines it reads, in stream order. -/
def JobE.sourceLines (j : JobE) : List Nat :=
  if j.isRecon then (j.shardRanges.filter (fun r => !r.wr)).flatMap (fun r => rangeLines r.lo r.len)
  else if j.nops = 0 || j.isFill then []
  else rangeLines j.src j.srcLen

/-- The bytes of each shard read, from the lines of JobE.sourceLines. -/
def shardBytes : List JRange → List LineData → List (List Nat)
  | [], _ => []
  | r :: t, xs =>
    let n := (rangeLines r.lo r.len).length
    cutBytes r.lo r.len (xs.take n) :: shardBytes t (xs.drop n)

/-- What a job writes once its source is read, and its completion fields. -/
def JobE.compute (j : JobE) (xs : List LineData) : JobE × Option (Nat × Nat × Nat) :=
  if j.nops = 0 then ({ j with ready := true }, none)
  else if j.isRecon then
    let out := j.recon (shardBytes (j.shardRanges.filter (fun r => !r.wr)) xs)
    ({ j with ready := true, bytes := (out.map (fun x => x.2.length)).sum,
              todo := out.flatMap (fun x => lineWrites ((tfind j.shards x.1).getD 0) x.2) }, none)
  else if j.isEc then
    let out := j.encode (cutBytes j.src j.srcLen xs)
    ({ j with ready := true, bytes := out.length, todo := lineWrites j.dst out }, none)
  else
    let r := j.run (if j.isFill then [] else cutBytes j.src j.srcLen xs)
    ({ j with ready := true, bytes := r.data.length, result := r.result,
              todo := (if j.dstLen = 0 then [] else lineWrites j.dst r.data) ++ r.digests.flatMap (fun x => lineWrites x.1 x.2) }, r.err)

/-- The job reads its source and computes; a line of it that must wait leaves the job as it was. -/
def Acc.jobRead (a : Acc) (j : JobE) : Option JobE × Acc :=
  let s := j.slice
  match a.dev.jobRanges j.head j.allRanges with
  | some x =>
    let f := a.dev.failJob j x.1 x.2.1 x.2.2 (a.dev.allFree j)
    (some f.1, { a with dev := f.2.jobMiss j.head x.2.1 })
  | none =>
    if j.allRanges.any a.dev.rangeMoves then (none, a)
    else
      match a.readLines (.jobRead s) (a.dev.queueClass (qNum j.head j.queue)) j.sourceLines with
      | (none, a) => (none, a)
      | (some xs, a) =>
        let a := a.upd (fun d => d.pmu 42 0x72 s 8 (64 * xs.length))
        match firstPoison j.sourceLines xs with
        | some dl =>
          let f := a.dev.failJob { j with halt := true } stMemPoison (dl * 64) 255 (a.dev.allFree j)
          (some f.1, { a with dev := f.2.jobPoison j (dl * 64) })
        | none =>
          let c := j.compute (xs.map (·.1))
          match c.2 with
          | some e =>
            let f := a.dev.failJob j e.1 e.2.1 e.2.2 (a.dev.allFree j)
            (some f.1, { a with dev := f.2 })
          | none => (some c.1, a)

/-- The range of a line write, for the checks at the access. -/
def writeRange (x : Nat × LineData × BitVec 64) : JRange := { lo := x.1 * 64, len := 64, wr := true }

/-- A line write fails at its access: the job fails; of a job that has failed already nothing more comes. -/
def Dev.writeFails (d : Dev) (j : JobE) (status dpa : Nat) (rest : List (Nat × LineData × BitVec 64)) : JobE × Dev :=
  if j.status = 0 then (d.jobMiss j.head dpa).failJob j status dpa 255 (d.freeRest rest) else ({ j with todo := rest }, d)

/-- The job's writes, in order, until one must wait. -/
def Acc.jobWrites (a : Acc) (j : JobE) : Nat → JobE × Acc
  | 0 => (j, a)
  | k + 1 =>
    match j.todo with
    | [] => (j, a)
    | x :: rest =>
      match a.dev.jobRange j.head (writeRange x) with
      | some st =>
        let f := a.dev.writeFails j st (x.1 * 64) rest
        Acc.jobWrites { a with dev := f.2 } f.1 k
      | none =>
        if a.dev.rangeMoves (writeRange x) then (j, a)
        else
          let w := (a.dev.winOf (x.1 * 64)).getD 0
          let wr : WrIn := ⟨x.2.1, if x.2.2 = BitVec.allOnes 64 then none else some x.2.2, false⟩
          match a.agentWrite (.jobWrite j.slice) (a.dev.queueClass (qNum j.head j.queue)) w x.1 wr with
          | (.ok m, b) =>
            let b := b.upd (fun d => d.pmu 42 0x73 j.slice 8 (popCount 64 x.2.2.toNat))
            Acc.jobWrites b { j with todo := rest, msg := m.or j.msg } k
          | (.lost, b) =>
            let f := b.dev.writeFails j stDestLost (x.1 * 64) rest
            Acc.jobWrites { b with dev := f.2 } f.1 k
          | (.wait, b) => (j, b)

/-- R301: the job of slice s reads, computes and writes; when its last write is accepted it has ended. -/
def Acc.jobEnd (a : Acc) (s time : Nat) : Acc :=
  match a.dev.job.jobs.find? (fun j => j.slice == s && j.place == 1) with
  | none => a
  | some j =>
    let d0 := a.dev
    let r := if j.ready then (some j, a) else a.jobRead j
    match r with
    | (none, a) => a
    | (some j, a) =>
      let w := a.jobWrites j (j.todo.length * 2 + 1)
      w.2.upd (fun d =>
        if w.1.todo.isEmpty then Dev.joinJobs d0 ((d.endJob { w.1 with time := time }).startStaged s) else d.putJob j w.1)

/-- R301. -/
def execJobEnd (slice : BitVec 3) (time10ns : BitVec 32) : State → Result :=
  runAcc (fun a => a.when a.dev.jobsRun (fun a => a.jobEnd slice.toNat time10ns.toNat))

/-! ### Completion records (R284, R285, R300) -/

/-- The 32 bytes of a job's record. -/
def Dev.record (d : Dev) (j : JobE) : List Nat :=
  let phase := 1 - d.get (fJDB_CQTAIL_COUNT j.head j.queue) / d.cqSize j.head j.queue % 2
  toBytes 4 (j.at_ 0 4) ++ toBytes 2 j.status ++ [j.opidx, phase + 2 * j.halt.toNat] ++ toBytes 4 j.seq ++
  toBytes 4 (if j.status = 0 then j.bytes else 0) ++ toBytes 8 j.result ++ toBytes 4 j.time ++ [j.slice, 0, 0, 0]

/-- A job leaves its queue: INFLIGHT follows, a poisoned queue may halt, a draining one may become DISABLED. -/
def Dev.leaveJob (d : Dev) (j : JobE) : Dev :=
  let d0 := d
  let d := (d.setJobs j.head j.queue (d.job.jobs.filter (fun x => !(x.head == j.head && x.queue == j.queue && x.seq == j.seq))))
  Dev.joinJobs d0 (d.queueSettle j.head j.queue)

/-- The first job of a queue that has ended and whose destination writes the partner has acknowledged (R260). -/
def Dev.recordNext (d : Dev) (h q : Nat) : Option JobE :=
  (d.jobsOf h q).find? (fun j => j.place == 3 && (match j.msg with
    | some n => !d.mir.unacked.any (fun m => m.num == n)
    | none => true))

/-- R284, R303: the record of a job is written, or the queue halts with CQ. In Basic service a record that cannot be written is left out,
and the queue, halted with BASIC already, only raises its vector (R285, R304). -/
def Acc.writeRecord (a : Acc) (h q : Nat) : Acc :=
  match a.dev.recordNext h q with
  | none => a
  | some j =>
    let n := a.dev.get (fJDB_CQTAIL_COUNT h q)
    let lo := a.dev.cqAddr h q n
    let r : JRange := { lo := lo, len := 32, wr := true }
    let fails := fun (d : Dev) =>
      if d.basic && d.get (fJDB_STS_STATE h q) == qHalted then (d.leaveJob j).msix h (d.get (fJDB_CTL_VEC h q))
      else ((d.jobMiss h lo).queueHalt h q 3 lo (d.dqSlot h q j.seq) true).leaveJob j
    if (a.dev.jobRange h r).isSome then a.upd fails
    else if a.dev.rangeMoves r then a
    else
      match lineWrites lo (a.dev.record j) with
      | [] => a
      | x :: _ =>
        match a.agentWrite (.record h q) (a.dev.queueClass (qNum h q)) ((a.dev.winOf lo).getD 0) x.1 ⟨x.2.1, some x.2.2, false⟩ with
        | (.ok _, a) => a.upd (fun d =>
            let d := (d.set (fJDB_CQTAIL_COUNT h q) (n + 1)).leaveJob j
            if j.irq || j.halt then d.msix h (d.get (fJDB_CTL_VEC h q)) else d)
        | (.lost, a) => a.upd fails
        | (.wait, a) => a

/-- R284. -/
def execCompletionRecordWrite (h : Head) (q : BitVec 4) : State → Result :=
  runAcc (fun a => a.when (!a.dev.halted && !a.dev.fatal) (fun a => a.writeRecord h.toNat q.toNat))

/-! ### Job administration (Table 13.5) -/

/-- The slices that take jobs; waiting jobs that name another fail (R286). -/
def Dev.setSlices (d : Dev) (mask : Nat) : Dev :=
  let d := (d.set fJOB_CTL_SLICE_EN mask).slicesStats
  (d.job.jobs.filter (fun j => j.place == 0 && j.want != 0 && !d.sliceThere (j.want - 1))).foldl
    (fun d j => d.endJob { j with status := stSliceAbsent }) d

/-- R286. -/
def execJobSliceEn (c : Pkt) : State → Result :=
  run (fun d => d.command rowSliceEn c
    (fun d => firstBad [((c.at_ 0 1 &&& d.present) != c.at_ 0 1, stSliceAbsent, 16)])
    (fun _ d => (.done [] 0, (d.setSlices (c.at_ 0 1)).cfgRegs [rJOB_CTL])))

/-- R279. -/
def execJobQueueClass (c : Pkt) : State → Result :=
  run (fun d => d.command rowQueueClass c
    (fun _ => firstBad [(32 ≤ c.at_ 0 1, stInvalidField, 16), (16 ≤ c.at_ 1 1, stInvalidField, 17), (8 ≤ c.at_ 2 1, stInvalidField, 18)])
    (fun _ d =>
      let h := c.at_ 0 1
      let q := c.at_ 1 1
      let e := Dev.joinJobs d (d.set (fJDB_STS_CLASS h q) (c.at_ 2 1))
      (.done [] 0, { e with flash := { e.flash with cfg := { e.flash.cfg with regs := tins e.flash.cfg.regs (rJDB_STS h q) (c.at_ 2 1 * 32) } } })))

end Sys2Proof.Machine
end

