-- ==== Sys2Proof/Machine/Qos.lean ====
section
/-! DEFINITION. Service class commands (12_qos.md R307, R308, R316 to R318). -/

namespace Sys2Proof.Machine

/-- The settings as they stand once the boundary has applied those that wait (R308). -/
def Dev.qosNext (d : Dev) : Dev := d.qos.pend.foldl Dev.classApply d

/-- R317: 0.9 of P_p0 in units of 1/80,000 of 0.1 GB/s; 0 for a port that is not formed. -/
def Dev.portLimit (d : Dev) (p : Nat) : Nat :=
  match d.formed p with
  | some w => 9 * 895 * (4 * 2 ^ w) * rateTenths (d.portOf p).cap
  | none => 0

/-- Guarantees of a port or of all ports exceed their limits. -/
def Dev.overPort (d : Dev) : Bool := heads.any (fun p => d.portLimit p < d.gbwPort p * 80000)
def Dev.overAll (d : Dev) : Bool := 9 * d.ratedExact.1 < d.gbwAll * 10 * d.ratedExact.2

/-- No C_rated exists. -/
def Dev.noRated (d : Dev) : Bool := d.get fMCH_POP_STS_RESULT == 0 || d.get fMCH_POP_STS_RESULT == 3

/-- The refusals of Table 12.3 that concern the guarantees as a whole: d holds the settings as the command would leave them. -/
def Dev.guaranteeBad (d : Dev) (at_ : Nat) : List (Bool × Nat × Nat) :=
  [(heads.any (fun p => d.flag (fQOS_PORT_CFG_MODE p) && d.gbwPort p != 0), stInvalidField, at_),
   (heads.any (fun p => d.gbwPort p != 0 && decide (d.get (fMCH_PTGT_TGT_NS p) < 300)), stInvalidField, at_),
   (d.noRated, stNotReady, noDetail), (d.overPort, stQosOvercommit, noDetail), (d.overAll, stQosOvercommit, noDetail)]

/-! ### QOS_CLASSMAP_SET -/

/-- R307: the map is recorded, and written into all 32 decoders of a formed head. -/
def Dev.setClassmap (d : Dev) (h m : Nat) : Dev :=
  let d := { d with flash := { d.flash with cfg := { d.flash.cfg with regs := tins d.flash.cfg.regs (rPDV_ALIAS_MAP h 0) m } } }
  if (d.formed h).isSome then (List.range 32).foldl (fun d n => d.set (fPDV_ALIAS_MAP_CLASSMAP h n) m) d else d

/-- R307. -/
def execQosClassmapSet (c : Pkt) : State → Result :=
  run (fun d => d.command rowQosClassmap c (fun _ => firstBad [(32 ≤ c.at_ 0 1, stInvalidField, 16)])
    (fun _ d => (.done [] 0, d.setClassmap (c.at_ 0 1) (c.at_ 4 3))))

/-! ### QOS_CLASS_SET -/

/-- The settings of a packet, as QosS.pend holds them. -/
def classImage (c : Pkt) : List Nat :=
  [c.at_ 0 1, c.at_ 1 1, c.at_ 2 1, c.at_ 6 2, c.at_ 3 1, c.at_ 4 1] ++ (List.range 32).map (fun p => c.at_ (8 + 2 * p) 2)

/-- R318: the refusals of QOS_CLASS_SET. -/
def Dev.classBad (d : Dev) (c : Pkt) : Option (Nat × Nat) :=
  let e := d.qosNext.classApply (classImage c)
  let best := c.at_ 1 1 == 0
  let gp := (List.range 32).find? (fun p => c.at_ (8 + 2 * p) 2 != 0)
  firstBad (([(8 ≤ c.at_ 0 1, stInvalidField, 16), (2 ≤ c.at_ 1 1, stInvalidField, 17),
    (c.at_ 2 1 == 0 || decide (15 < c.at_ 2 1), stInvalidField, 18),
    (c.at_ 4 1 == 0 || decide (224 < c.at_ 4 1) || decide (c.at_ 4 1 < c.at_ 3 1), stInvalidField, 20),
    (192 < e.rsvSum, stInvalidField, 19), (best && gp.isSome, stInvalidField, 24 + 2 * gp.getD 0)] : List (Bool × Nat × Nat)) ++ e.guaranteeBad 24)

/-- R308: the settings take effect at the next boundary; the record holds them as they will stand. -/
def Dev.setClass (d : Dev) (c : Pkt) : Dev :=
  let k := c.at_ 0 1
  let e := d.qosNext.classApply (classImage c)
  let ks := [rQOS_CLS k, rQOS_CLS_SLOT k] ++ heads.map (fun p => rQOS_PORT_GBW p k)
  { d with qos := { d.qos with pend := d.qos.pend ++ [classImage c] }
           flash := (e.cfgRegs ks).flash }

/-- R308. -/
def execQosClassSet (c : Pkt) : State → Result :=
  run (fun d => d.command rowQosClass c (fun d => d.classBad c) (fun _ d => (.done [] 0, d.setClass c)))

/-! ### QOS_PORT_SET -/

/-- A port's mode, window, budget and latency target. -/
def Dev.portSet (d : Dev) (c : Pkt) : Dev :=
  let p := c.at_ 0 1
  let d := (d.set (fQOS_PORT_CFG_MODE p) (c.at_ 1 1)).set (fQOS_PORT_CFG_WINDOW_US p) (c.at_ 2 2)
  (d.set (fQOS_PORT_BUDGET_BYTES p) (c.at_ 4 4)).set (fMCH_PTGT_TGT_NS p) (c.at_ 8 2)

/-- R318: the refusals of QOS_PORT_SET. -/
def Dev.portBad (d : Dev) (c : Pkt) : Option (Nat × Nat) :=
  let e := d.qosNext.portSet c
  firstBad (([(32 ≤ c.at_ 0 1, stInvalidField, 16), (2 ≤ c.at_ 1 1, stInvalidField, 17),
    (c.at_ 1 1 == 1 && (c.at_ 2 2 == 0 || decide (1000 < c.at_ 2 2)), stInvalidField, 18)] : List (Bool × Nat × Nat)) ++ e.guaranteeBad 17)

/-- R316, R318: a COMPAT port has no token buckets. -/
def execQosPortSet (c : Pkt) : State → Result :=
  run (fun d => d.command rowQosPort c (fun d => d.portBad c) (fun _ d =>
    let p := c.at_ 0 1
    let d := (d.portSet c).cfgRegs [rQOS_PORT_CFG p, rQOS_PORT_BUDGET p, rMCH_PTGT p]
    (.done [] 0, if c.at_ 1 1 = 1 then d.updPort p (fun s => { s with tokens := [] }) else d)))

end Sys2Proof.Machine
end

