-- ==== Sys2Proof/Machine/SlhDsa.lean ====
section
/-! DEFINITION. SLH-DSA-SHA2-128s (FIPS 205), by which images and identities are signed (14_management.md R346, R347, R353): n = 16, h = 63,
d = 7, h' = 9, a = 12, k = 14, w = 16, m = 30. Keys, messages and signatures are lists of bytes. -/

namespace Sys2Proof.Machine

/-- The n bytes of a number, highest first. -/
def beBytes (n v : Nat) : List Nat := (toBytes n v).reverse

/-- A number from its bytes, highest first. -/
def beNum (l : List Nat) : Nat := ofBytes l.reverse

/-- HMAC-SHA-256 (FIPS 198-1) under a key of at most 64 bytes. -/
def hmacSha256 (key msg : List Nat) : List Nat :=
  let k := key ++ List.replicate (64 - key.length) 0
  sha256 (k.map (Nat.xor 0x5C) ++ sha256 (k.map (Nat.xor 0x36) ++ msg))

/-- A hash address: layer, tree, type, key pair, chain or height, hash or index. -/
structure Adrs where
  layer : Nat := 0
  tree : Nat := 0
  type : Nat := 0
  kp : Nat := 0
  chain : Nat := 0
  hash : Nat := 0

/-- The compressed form of an address, 22 bytes (FIPS 205, 11.2). -/
def Adrs.bytes (a : Adrs) : List Nat :=
  beBytes 1 a.layer ++ beBytes 8 a.tree ++ beBytes 1 a.type ++ beBytes 4 a.kp ++ beBytes 4 a.chain ++ beBytes 4 a.hash

/-- F, H, T and PRF of the SHA2 parameter sets of category 1 are one function. -/
def slhHash (seed : List Nat) (a : Adrs) (m : List Nat) : List Nat := (sha256 (seed ++ List.replicate 48 0 ++ a.bytes ++ m)).take 16

/-- base_2b: the first n digits of b bits of a byte list. -/
def slhDigits (b : Nat) (l : List Nat) (n : Nat) : List Nat :=
  (List.range n).map (fun i => beNum l / 2 ^ (8 * l.length - b * (i + 1)) % 2 ^ b)

/-! ### WOTS+ -/

/-- The digits of a message and of its checksum. -/
def wotsDigits (m : List Nat) : List Nat :=
  let d := slhDigits 4 m 32
  d ++ slhDigits 4 (beBytes 2 ((d.map (fun x => 15 - x)).sum * 16)) 3

/-- A chain of s steps from step i. -/
def wotsChain (seed : List Nat) (a : Adrs) (i s : Nat) (x : List Nat) : List Nat :=
  (List.range s).foldl (fun x j => slhHash seed { a with hash := i + j } x) x

/-- The secret of chain i of the key pair at an address. -/
def wotsSecret (sk seed : List Nat) (a : Adrs) (i : Nat) : List Nat := slhHash seed { a with type := 5, chain := i, hash := 0 } sk

/-- The public key of the chain ends. -/
def wotsEnds (seed : List Nat) (a : Adrs) (ends : List (List Nat)) : List Nat :=
  slhHash seed { a with type := 1, chain := 0, hash := 0 } ends.flatten

/-- wots_pkGen. -/
def wotsPublic (sk seed : List Nat) (a : Adrs) : List Nat :=
  wotsEnds seed a ((List.range 35).map (fun i => wotsChain seed { a with chain := i } 0 15 (wotsSecret sk seed a i)))

/-- wots_sign. -/
def wotsSign (sk seed : List Nat) (a : Adrs) (m : List Nat) : List (List Nat) :=
  (wotsDigits m).mapIdx (fun i d => wotsChain seed { a with chain := i } 0 d (wotsSecret sk seed a i))

/-- wots_pkFromSig. -/
def wotsFromSig (seed : List Nat) (a : Adrs) (sig : List (List Nat)) (m : List Nat) : List Nat :=
  wotsEnds seed a ((wotsDigits m).mapIdx (fun i d => wotsChain seed { a with chain := i } d (15 - d) (sig.getD i [])))

/-! ### Hash trees -/

/-- The root over a node of index t and its authentication path. -/
def slhClimb (seed : List Nat) (a : Adrs) (t : Nat) (node : List Nat) (auth : List (List Nat)) : List Nat :=
  auth.zipIdx.foldl (fun n x =>
    slhHash seed { a with chain := x.2 + 1, hash := t / 2 ^ (x.2 + 1) } (if t / 2 ^ x.2 % 2 = 0 then n ++ x.1 else x.1 ++ n)) node

/-- Node i of height z over leaves. -/
def slhNode (seed : List Nat) (a : Adrs) (leaf : Nat → List Nat) : Nat → Nat → List Nat
  | 0, i => leaf i
  | z + 1, i => slhHash seed { a with chain := z + 1, hash := i } (slhNode seed a leaf z (2 * i) ++ slhNode seed a leaf z (2 * i + 1))

/-- The sibling of the node at height j over index t. -/
def slhSib (t j : Nat) : Nat := t / 2 ^ j ^^^ 1

/-- A leaf and a node of an XMSS tree. -/
def xmssLeaf (sk seed : List Nat) (a : Adrs) (i : Nat) : List Nat := wotsPublic sk seed { a with type := 0, kp := i }
def xmssNode (sk seed : List Nat) (a : Adrs) (z i : Nat) : List Nat := slhNode seed { a with type := 2 } (xmssLeaf sk seed a) z i

/-- xmss_sign: 35 chain values and 9 nodes. -/
def xmssSign (sk seed : List Nat) (a : Adrs) (idx : Nat) (m : List Nat) : List (List Nat) :=
  wotsSign sk seed { a with type := 0, kp := idx } m ++ (List.range 9).map (fun j => xmssNode sk seed a j (slhSib idx j))

/-- xmss_pkFromSig. -/
def xmssFromSig (seed : List Nat) (a : Adrs) (idx : Nat) (sig : List (List Nat)) (m : List Nat) : List Nat :=
  slhClimb seed { a with type := 2 } idx (wotsFromSig seed { a with type := 0, kp := idx } (sig.take 35) m) ((sig.drop 35).take 9)

/-! ### FORS -/

/-- A secret and a leaf of the FORS trees. -/
def forsSecret (sk seed : List Nat) (a : Adrs) (i : Nat) : List Nat := slhHash seed { a with type := 6, hash := i } sk
def forsLeaf (sk seed : List Nat) (a : Adrs) (i : Nat) : List Nat := slhHash seed { a with type := 3, hash := i } (forsSecret sk seed a i)

/-- The leaf that a digest names in each tree, counted over all trees. -/
def forsLeaves (md : List Nat) : List Nat := (slhDigits 12 md 14).mapIdx (fun i x => i * 4096 + x)

/-- fors_sign. -/
def forsSign (sk seed : List Nat) (a : Adrs) (md : List Nat) : List (List Nat) :=
  (forsLeaves md).flatMap (fun t =>
    forsSecret sk seed a t :: (List.range 12).map (fun j => slhNode seed { a with type := 3 } (forsLeaf sk seed a) j (slhSib t j)))

/-- fors_pkFromSig. -/
def forsFromSig (seed : List Nat) (a : Adrs) (sig : List (List Nat)) (md : List Nat) : List Nat :=
  slhHash seed { a with type := 4 } ((forsLeaves md).mapIdx (fun i t =>
    slhClimb seed { a with type := 3 } t (slhHash seed { a with type := 3, hash := t } (sig.getD (13 * i) [])) ((sig.drop (13 * i + 1)).take 12))).flatten

/-! ### The hypertree -/

/-- The root of layer j of the tree, and with it the tree and leaf of the next layer. -/
def htRoot (seed : List Nat) (sig : List (List Nat)) (tree leaf : Nat) (m : List Nat) : List Nat :=
  ((List.range 7).foldl (fun (s : List Nat × Nat × Nat) j =>
    (xmssFromSig seed { layer := j, tree := s.2.1 } s.2.2 ((sig.drop (44 * j)).take 44) s.1, s.2.1 / 512, s.2.1 % 512)) (m, tree, leaf)).1

/-- ht_sign. -/
def htSign (sk seed : List Nat) (tree leaf : Nat) (m : List Nat) : List (List Nat) :=
  ((List.range 7).foldl (fun (s : List (List Nat) × List Nat × Nat × Nat) j =>
    let a : Adrs := { layer := j, tree := s.2.2.1 }
    let x := xmssSign sk seed a s.2.2.2 s.2.1
    (s.1 ++ x, xmssFromSig seed a s.2.2.2 x s.2.1, s.2.2.1 / 512, s.2.2.1 % 512)) ([], m, tree, leaf)).1

/-! ### SLH-DSA -/

/-- The message that a pure signature with an empty context is made over. -/
def slhPure (m : List Nat) : List Nat := 0 :: 0 :: m

/-- H_msg: 30 bytes, as the FORS digest, the tree and the leaf. -/
def slhDigest (r pk m : List Nat) : List Nat × Nat × Nat :=
  let d := (sha256 (r ++ pk.take 16 ++ sha256 (r ++ pk ++ m) ++ [0, 0, 0, 0])).take 30
  (d.take 21, beNum ((d.drop 21).take 7) % 2 ^ 54, beNum (d.drop 28) % 512)

/-- The public key of a private key (SK.seed, SK.prf, PK.seed; 48 bytes): PK.seed and PK.root. -/
def slhPublic (key : List Nat) : List Nat :=
  let seed := key.drop 32
  seed ++ xmssNode (key.take 16) seed { layer := 6 } 9 0

/-- The signature of a message, with 16 random bytes. -/
def slhSign (key rnd msg : List Nat) : List Nat :=
  let sk := key.take 16
  let seed := key.drop 32
  let m := slhPure msg
  let r := (hmacSha256 ((key.drop 16).take 16) (rnd ++ m)).take 16
  let x := slhDigest r (slhPublic key) m
  let a : Adrs := { tree := x.2.1, kp := x.2.2 }
  let f := forsSign sk seed a x.1
  r ++ (f ++ htSign sk seed x.2.1 x.2.2 (forsFromSig seed a f x.1)).flatten

/-- A signature of 7,856 bytes verifies under a public key of 32. -/
def slhVerify (pk msg sig : List Nat) : Bool :=
  let seed := pk.take 16
  let b := (List.range 491).map (fun i => (sig.drop (16 * i)).take 16)
  let x := slhDigest (b.getD 0 []) pk (slhPure msg)
  let a : Adrs := { tree := x.2.1, kp := x.2.2 }
  pk.length == 32 && sig.length == 7856 && htRoot seed (b.drop 183) x.2.1 x.2.2 (forsFromSig seed a ((b.drop 1).take 182) x.1) == pk.drop 16

end Sys2Proof.Machine
end

