-- ==== Sys2Proof/Machine/Admin.lean ====
section
/-! DEFINITION. Commands of the fault hub, the event log, the firmware slots, the grants and the links (13_commands.md,
14_management.md R346 to R360, 15_faults.md R369 to R383), and packets that no command answers. -/

namespace Sys2Proof.Machine

/-! ### Background commands (R334) -/

/-- R334: a background command that has ended posts its reply. -/
def Dev.bgReply (d : Dev) (i : Nat) : Dev :=
  match tfind d.mgt.bg i with
  | some b =>
    if b.done then ({ d with mgt := { d.mgt with bg := tdel d.mgt.bg i } }).sendReply b b.status 0 b.detail b.body else d
  | none => d

/-- R334. -/
def execBackgroundCommandComplete (i : Nat) : State → Result := run (fun d => d.bgReply i)

/-! ### The fault hub's settings (R369 to R371) -/

/-- Table 15.4: a reaction that a maximum severity allows. -/
def reactOk (sev react : Nat) : Bool :=
  if sev = 0 then false else if sev ≤ 2 then decide (react ≤ 1) else if sev = 3 then decide (react ≤ 3) else if sev = 4 then react == 2 || react == 3
  else react == 3

/-- R369. -/
def execFltReactSet (c : Pkt) : State → Result :=
  let s := c.at_ 0 2
  let k := s / 16
  run (fun d => d.command rowFltReact c
    (fun _ => firstBad [(srcMaxSev s == 0, stInvalidField, 16), (!reactOk (srcMaxSev s) (c.at_ 2 1), stInvalidField, 18)])
    (fun _ d => (d.wrPair (rFLT_REACT k) (rFLT_REACT_C k) (wordPut (d.rd (rFLT_REACT k)) (2 * (s % 16)) 2 (c.at_ 2 1))).stored
      [(rFLT_REACT k, rFLT_REACT_C k)] (fun d => d.cfgRegs [rFLT_REACT k])))

/-- R370. -/
def execFltGlobalSet (c : Pkt) : State → Result :=
  let us := c.at_ 0 3
  let sv := c.at_ 3 1
  run (fun d => d.command rowFltGlobal c
    (fun _ => firstBad [(us < 10 || 100000 < us, stInvalidField, 16), (sv == 0 || 5 < sv, stInvalidField, 19)])
    (fun _ d => (d.wrPair rFLT_GLOBAL rFLT_GLOBAL_C (us + sv * 2 ^ 17)).stored [(rFLT_GLOBAL, rFLT_GLOBAL_C)]
      (fun d => { d with flt := { d.flt with globalBad := false } }.cfgRegs [rFLT_GLOBAL])))

/-- A held record that firmware has not logged yet is logged (R357, R371). -/
def Dev.logHeld (d : Dev) (k : Nat) : Dev :=
  if d.flt.toLog.contains k then { d with flt := { d.flt with toLog := d.flt.toLog.filter (· != k) } }.logFault (d.rd (rFLT_REC k)) else d

/-- A record leaves the table; it has been logged by then (R357). -/
def Dev.recFree (d : Dev) (k : Nat) : Dev :=
  if d.recValid k then ((d.logHeld k).wr (rFLT_REC_CTL k) 0).drop fFLT_STS_HELD 1 else d

/-- The entry that holds record number n. -/
def Dev.recAt (d : Dev) (n : Nat) : Option Nat := (List.range 64).find? (fun k => d.recValid k && d.recNum k == n)

/-- R371. -/
def execFltClear (c : Pkt) : State → Result :=
  run (fun d => d.command rowFltClear c (fun d => firstBad [((d.recAt (c.at_ 0 8)).isNone, stInvalidField, 16)])
    (fun _ d => (.done [] 0, match d.recAt (c.at_ 0 8) with
      | some k => d.recFree k
      | none => d)))

/-- R377: BASIC_EXIT. -/
def execBasicExit (c : Pkt) : State → Result :=
  run (fun d => d.command rowBasicExit c
    (fun d => firstBad [(d.basic && (List.range 64).any (fun k => d.recValid k && decide (3 ≤ d.recSev k) && d.flag (fFLT_REC_CTL_ESCALATED k)),
      stNotReady, noDetail)])
    (fun _ d => (.done [] 0, { d.setFlag fFLT_STS_BASIC false with flt := { d.flt with basicStep := 0 } })))

/-! ### Fault injection (R382, R383, R458) -/

/-- The unlock ends, and with it every injection that waits. -/
def Dev.lockInj (d : Dev) : Dev := { d.setFlag fMGT_STS_INJ_UNLOCK false with flt := { d.flt with inj := [] } }

/-- R382. -/
def execFltInjectUnlock (c : Pkt) : State → Result :=
  run (fun d => d.command rowInjectUnlock c (fun _ => firstBad [(600 < c.at_ 0 4, stInvalidField, 16)])
    (fun _ d => (.done [] 0, if c.at_ 0 4 = 0 then d.lockInj else d.setFlag fMGT_STS_INJ_UNLOCK true)))

/-- R382. -/
def execInjectionUnlockExpiry : State → Result := run (fun d => d.when (d.flag fMGT_STS_INJ_UNLOCK) Dev.lockInj)

/-- Table 15.11: an SRAM entry of a source. -/
def sramEntryOk (s e : Nat) : Bool :=
  let g := s / 64
  let i := s % 64
  if g = 10 then decide (i < 8) && decide (e ≤ 131135)
  else if 18 ≤ g ∧ g ≤ 23 then
    decide (i < 8) && i % 2 == 1 && decide (e ≤ 196607) && (if e < 65536 then e % 6 == g - 18 else (e - 65536) % 6 == g - 18)
  else if g = 24 then (i == 1 && decide (e ≤ 524287)) || (i == 2 && decide (e ≤ 31))
  else if 25 ≤ g ∧ g ≤ 28 then i == 4 && decide (e ≤ 16383)
  else if g = 29 then decide (i < 8) && decide (e ≤ 8191)
  else if g = 30 then i == 4 && decide (e ≤ 65535)
  else if g = 33 then i % 2 == 0 && 4 ≤ i && i ≤ 18 && decide (e ≤ 1023)
  else g == 39 && decide (i < 2) && decide (e ≤ 65535)

/-- Table 15.9: a target of a checker. -/
def Dev.injTarget (d : Dev) (k t : Nat) : Bool :=
  if k = 1 then t % 64 == 0 && decide (t < d.fitted) && d.mch.trained
  else if k = 2 then decide (t < 2 ^ 48) && sramEntryOk (t % 65536) (t / 65536)
  else if k = 3 then decide (src 35 0 ≤ t) && decide (t < src 35 16)
  else if k = 4 then (complOf t).isSome
  else t % 64 == 0 && (match d.winOf t with
    | some w => decide (2 ≤ d.krMode (d.winKr w))
    | none => false)

/-- R382, R383: the refusal of an injection. -/
def Dev.injBad (d : Dev) (c : Pkt) : Option (Nat × Nat) :=
  let k := c.at_ 0 1
  let n := c.at_ 1 1
  firstBad [(!d.flag fMGT_STS_INJ_UNLOCK, stLocked, noDetail), (k == 0 || 5 < k, stInvalidField, 16),
    (n == 0 || (k ≤ 2 && 2 < n), stInvalidField, 17), (!d.injTarget k (c.at_ 4 8), stInvalidField, 20)]

/-- R383: an injection waits at its checker, or rewrites its line of DRAM. -/
def Dev.inject (d : Dev) (i : Nat) (c : Pkt) : CmdEnd × Dev :=
  let k := c.at_ 0 1
  let n := c.at_ 1 1
  if k = 1 then (.runs [k], d.pushDram (c.at_ 4 8 / 64) none 6 (.scrub 1 (some (i, n))) 8 false none)
  else (.done [] 0, { d with flt := { d.flt with inj := d.flt.inj.filter (fun (x : Inj) => x.checker != k) ++ [⟨k, c.at_ 4 8, n⟩] } })

/-- R383. -/
def execFltInject (c : Pkt) : State → Result :=
  run (fun d => d.command rowInject c (fun d => d.injBad c) (fun i d => d.inject i c))

/-! ### The event log (R359) -/

/-- The 64 bytes of a log record (Table 14.5). -/
def logBytes (r : LogRec) : List Nat :=
  let b := toBytes 4 r.seq ++ toBytes 4 r.boot ++ toBytes 8 r.time ++ toBytes 2 r.kind ++ [r.sev, r.flags] ++ toBytes 4 r.source ++
    toBytes 32 r.data ++ [0, 0, 0, 0]
  b ++ toBytes 4 (crc32c b)

/-- R359: the records of a read, from record number n. -/
def Dev.logFrom (d : Dev) (n count : Nat) : List LogRec :=
  match d.flash.log.getLast? with
  | none => []
  | some last =>
    let ahead := cntDiff n last.seq
    if 1 ≤ ahead ∧ ahead ≤ 2 ^ 31 then []
    else
      match d.flash.log.find? (fun r => r.seq == n) with
      | some _ => ((d.flash.log.dropWhile (fun r => r.seq != n)).take count)
      | none => d.flash.log.take count

/-- R359. -/
def execLogRead (c : Pkt) : State → Result :=
  run (fun d => d.command rowLogRead c (fun _ => firstBad [(c.at_ 4 2 == 0 || 64 < c.at_ 4 2, stInvalidField, 20)])
    (fun _ d =>
      let l := d.logFrom (c.at_ 0 4) (if trCode c.tr = 0 then c.at_ 4 2 else min (c.at_ 4 2) 63)
      let first := match l.head? with
        | some r => r.seq
        | none => c.at_ 0 4
      (.done (leOf 4 first ++ (l.flatMap logBytes).map (BitVec.ofNat 8)) 0, d)))

/-! ### Firmware images (R346, R347) -/

/-- A field of an image. -/
def imgAt (b : List Byte) (off n : Nat) : Nat := leBytes b off n
def imgBytes (b : List Byte) (off n : Nat) : List Nat := ((b.drop off).take n).map BitVec.toNat

/-- A SHA-256 digest as a number, first byte highest. -/
def shaNum (l : List Nat) : Nat := leftBytes 32 (sha256 l)

/-- Check 1 of R347: the manifest. -/
def manifestOk (b : List Byte) : Bool :=
  let it := imgAt b 28 4
  let dt := imgAt b 32 4
  decide (512 ≤ b.length) && imgAt b 0 4 == 0x46424C50 && imgAt b 4 2 == 1 && imgAt b 6 2 == 0x7324 && imgAt b 8 1 == 0xB1 &&
  decide (imgAt b 9 1 < 4) && imgAt b 10 2 == 0 && imgAt b 136 376 == 0 && decide (imgAt b 12 4 ≤ 64) &&
  it % 4096 == 0 && decide (4096 ≤ it) && decide (it ≤ 524288) && dt % 4096 == 0 && decide (dt ≤ 524288) &&
  imgAt b 24 4 == 0x6000 + it + dt && decide (imgAt b 24 4 ≤ b.length) && decide (imgAt b 36 4 < it) &&
  ((imgAt b 9 1).testBit 1 || imgAt b 0x2100 7856 == 0)

/-- A signature over manifest bytes 0 to 511 by the key at an offset, the key having a hash in OTP: pure SLH-DSA with an empty context
(R346). -/
def signedBy (b : List Byte) (keyOff sigOff hash : Nat) : Bool :=
  shaNum (imgBytes b keyOff 32) == hash && slhVerify (imgBytes b keyOff 32) (imgBytes b 0 512) (imgBytes b sigOff 7856)

/-- Check 5 of R347: the page-hash table and every page. -/
def pagesOk (b : List Byte) : Bool :=
  let n := (imgAt b 28 4 + imgAt b 32 4) / 4096
  shaNum (imgBytes b 0x4000 (32 * n)) == ofBytes (imgBytes b 40 32).reverse &&
  (List.range n).all (fun i => sha256 (imgBytes b (0x6000 + 4096 * i) 4096) == imgBytes b (0x4000 + 32 * i) 32)

/-- R347: 0 where an image verifies, else the status. -/
def imageStatus (b : List Byte) (rollback : Nat) : Nat :=
  let owner := Config.ownerKeyHash.toNat
  if !manifestOk b then stFwAuthFail
  else if !signedBy b 72 0x200 Config.slojorKeyHash.toNat then stFwAuthFail
  else if owner ≠ 0 ∧ !((imgAt b 9 1).testBit 1 && signedBy b 104 0x2100 owner) then stFwAuthFail
  else if imgAt b 12 4 < rollback then stFwRollback
  else if !pagesOk b then stFwAuthFail
  else 0

/-- Image slot k of flash: 0 is A, 1 is B. -/
def Dev.img (d : Dev) (k : Nat) : ImgSlot := if k = 0 then d.flash.slotA else d.flash.slotB
def Dev.putImg (d : Dev) (k : Nat) (s : ImgSlot) : Dev :=
  { d with flash := if k = 0 then { d.flash with slotA := s } else { d.flash with slotB := s } }

/-- The slot that is not active. -/
def Dev.idleSlot (d : Dev) : Nat := 1 - d.get fMGT_STS_SLOT

/-! ### Transfer and activation (R350, R351) -/

/-- R350: data of a transfer; one that erases the slot leaves it unconfirmed. -/
def Dev.fwData (d : Dev) (off : Nat) (data : List Byte) : Dev :=
  let k := d.idleSlot
  let b := if off = 0 then data else (d.img k).bytes ++ data
  let s := d.flash.sel
  let d := if off = 0 then { d with flash := { d.flash with sel := { s with confirmed := s.confirmed.filter (· != k) } } } else d
  d.putImg k { bytes := b, complete := decide (28 ≤ b.length) && decide (imgAt b 24 4 ≤ b.length) }

/-- R350. -/
def execFwTransfer (c : Pkt) : State → Result :=
  let off := c.at_ 0 4
  let data := c.payload.drop 4
  run (fun d => d.command rowFwTransfer c
    (fun d => firstBad [((off != 0 && off != (d.img d.idleSlot).bytes.length) || decide (2 ^ 23 < off + data.length), stInvalidField, 16)])
    (fun _ d => (.done [] 0, d.fwData off data)))

/-- R351: the slot verifies, and is selected for the next boot. -/
def Dev.fwSelect (d : Dev) (k : Nat) : Dev :=
  let d := d.putImg k { d.img k with verified := true }
  { d with flash := { d.flash with sel := { d.flash.sel with active := k, try_ := true } }, mgt := { d.mgt with activatePending := true } }

/-- R351: the verification of an activation that has started ends. -/
def Dev.fwVerify (d : Dev) (i rollback : Nat) : Dev :=
  match tfind d.mgt.bg i with
  | some b =>
    if b.op = 0xC801 ∧ b.done = false then
      let k := b.arg.headD 0
      let st := imageStatus (d.img k).bytes rollback
      if st = 0 then ((d.fwSelect k).logPut 5 0 k 0).bgDone i stSuccess noDetail [] else d.bgDone i st noDetail []
    else d
  | none => d

/-- R351: the refusals of an activation; under CHECK_ONLY the verification that would follow them too (R329). -/
def Dev.activateBad (d : Dev) (c : Pkt) (rollback : Nat) : Option (Nat × Nat) :=
  let k := c.at_ 0 1
  let other := k != d.get fMGT_STS_SLOT
  (firstBad [(1 < k, stInvalidField, 16), (other && !(d.img k).complete && !(d.img k).verified, stFwSequence, noDetail)]).or
    (if c.flags.toNat = 1 ∧ other = true ∧ imageStatus (d.img k).bytes rollback ≠ 0 then some (imageStatus (d.img k).bytes rollback, noDetail)
     else none)

/-- FW_ACTIVATE. -/
def Dev.fwActivate (d : Dev) (c : Pkt) (rollback : Nat) : Dev :=
  let k := c.at_ 0 1
  d.command rowFwActivate c (fun d => d.activateBad c rollback)
    (fun _ d => if k = d.get fMGT_STS_SLOT then (.done [] 0, d) else (.runs [k], d))

/-- R351. -/
def execFwActivate (c : Pkt) : State → Result :=
  onOtp (fun d o => (((d.fwActivate c o.rollback).fwVerify d.mgt.nextBg o.rollback).settle, o))

/-- Table 14.6: state of an image slot: 0 empty, 1 valid, 2 invalid, 3 below the counter. -/
def imgState (s : ImgSlot) (rollback : Nat) : Nat :=
  if s.bytes.isEmpty then 0
  else
    let st := imageStatus s.bytes rollback
    if st = 0 then 1 else if st = stFwRollback then 3 else 2

/-- The VERSION, SVN, state and zero bytes of a slot. -/
def imgInfo (s : ImgSlot) (rollback : Nat) : List Nat :=
  toBytes 8 (imgAt s.bytes 16 8) ++ toBytes 4 (imgAt s.bytes 12 4) ++ [imgState s rollback, 0, 0, 0]

/-- R360: the 64 bytes of FW_INFO. -/
def Dev.fwInfo (d : Dev) (rollback : Nat) : List Nat :=
  let newest := (d.flash.log.getLast?.map (·.seq)).getD 0
  let oldest := (d.flash.log.head?.map (·.seq)).getD 0
  [d.get fMGT_STS_MODE, d.get fMGT_STS_SLOT, d.flash.sel.active,
    d.get fMGT_STS_FALLBACK + 2 * (Config.ownerKeyHash.toNat != 0).toNat + 4 * d.get fMGT_STS_INJ_UNLOCK] ++
  toBytes 4 rollback ++ imgInfo d.flash.slotA rollback ++ imgInfo d.flash.slotB rollback ++ toBytes 4 Config.bootRomVersion.toNat ++
  toBytes 4 d.flash.coldBoots ++ toBytes 4 d.mgt.restarts ++ toBytes 4 newest ++ toBytes 4 oldest ++ [0, 0, 0, 0]

/-- R360. -/
def execFwInfo (c : Pkt) : State → Result :=
  onOtp (fun d o => ((d.command rowFwInfo c (fun _ => none) (fun _ d => (.done ((d.fwInfo o.rollback).map (BitVec.ofNat 8)) 0, d))).settle, o))

/-! ### Grants and links (R30, R332, R339) -/

/-- R30. -/
def execMgtCsrGrant (c : Pkt) : State → Result :=
  run (fun d => d.command rowCsrGrant c (fun _ => none)
    (fun _ d => (d.wrPair rTOP_CSR_WRGRANT rTOP_CSR_WRGRANT_C (c.at_ 0 4)).stored [(rTOP_CSR_WRGRANT, rTOP_CSR_WRGRANT_C)]
      (fun d => d.cfgRegs [rTOP_CSR_WRGRANT])))

/-- R332. -/
def execMgtCmdGrant (c : Pkt) : State → Result :=
  run (fun d => d.command rowCmdGrant c (fun _ => none)
    (fun _ d => (d.wrPair rMGT_CMD_GRANT rMGT_CMD_GRANT_C (c.at_ 0 4)).stored [(rMGT_CMD_GRANT, rMGT_CMD_GRANT_C)]
      (fun d => d.cfgRegs [rMGT_CMD_GRANT])))

/-- R339: a block or port byte that is refused. -/
def Dev.linkBad (d : Dev) (c : Pkt) : Option (Nat × Nat) :=
  let capBad := fun p => let r := c.at_ (8 + p) 1 / 2 % 8; r < 2 || 6 < r || (d.ab && r == 6)
  firstBad ((List.range 8).map (fun b => (decide (2 < c.at_ b 1), stInvalidField, 16 + b)) ++
    (List.range 32).map (fun p => (capBad p, stInvalidField, 24 + p)))

/-- R339: the record is written; IDE_REQUIRED takes effect at once, the rest at the next WARM reset. -/
def Dev.linkSet (d : Dev) (c : Pkt) : Dev :=
  let l := (List.range 40).map (fun i => c.at_ i 1)
  let d := { d with flash := { d.flash with cfg := { d.flash.cfg with link := l } } }
  heads.foldl (fun d p => if (d.formed p).isSome then d.setFlag (fPDV_PORT_STS_IDE_REQUIRED p) ((l.getD (8 + p) 0).testBit 4) else d) d

/-- R339. -/
def execLinkConfig (c : Pkt) : State → Result :=
  runAcc (fun a =>
    let a := { a with dev := a.dev.command rowLinkConfig c (fun d => d.linkBad c) (fun _ d => (.done [] 0, d.linkSet c)) }
    heads.foldl Acc.releaseRx a)

/-! ### Packets without a command (R330 step 1) -/

/-- The status and DETAIL of a packet whose opcode no command answers: DETAIL is the offset of OPCODE where it is not in the table or the
mailbox's differs from it, of OPCODE_C where that does not match. None where both copies name a command of the table. -/
def badOpcode (c : Pkt) (op opc mbop : Nat) : Option (Nat × Nat) :=
  if op + opc ≠ 0xffff then some (stOpcodeMismatch, 2)
  else if trCode c.tr = 0 ∧ mbop ≠ op then some (stOpcodeMismatch, 0)
  else if (cmdRow op).isNone then some (stUnknownOpcode, 0) else none

/-- The refusal leaves in the carrier of the packet. -/
def Dev.refusePkt (d : Dev) (c : Pkt) (op : Nat) (x : Nat × Nat) : Dev :=
  let h := c.head.toNat
  if d.deaf false c = true then d.askWake false c
  else if trCode c.tr = 0 ∧ c.mailboxLen.toNat ≠ 16 + c.plen.toNat then d.emit (.mailboxRc h 2)
  else d.sendReply (d.cmdOf c op true []) x.1 (c.flags.toNat % 2) x.2 []

/-- R330. A packet that no command answers has no effect but its refusal, and is refused when it comes (log entry 122). -/
def execUnknownOpcode (c : Pkt) (opcode opcodeC mailboxOpcode : BitVec 16) : State → Result :=
  run (fun d => match badOpcode c opcode.toNat opcodeC.toNat mailboxOpcode.toNat with
    | some x => d.refusePkt c opcode.toNat x
    | none => d)

end Sys2Proof.Machine
end

