-- ==== Sys2Proof/Machine/Faults.lean ====
section
/-! DEFINITION. What follows a fault record (15_faults.md R370 to R379): firmware's take-up, acknowledgement, the escalation timer, the
end of the entry into Basic service; and the checkers of channels and clocks. -/

namespace Sys2Proof.Machine

/-- R371: record k is acknowledged; one of severity C leaves the table at once. -/
def Dev.ackRec (d : Dev) (k : Nat) : Dev :=
  if !d.recValid k then d
  else
    let d := d.setFlag (fFLT_REC_CTL_ACK k) true
    if d.recSev k = 1 then d.recFree k else d

/-- R371: a write of ACK. -/
def execFltAck (by_ : Writer) (k : BitVec 6) : State → Result :=
  run (fun d => d.writeBy by_ (rFLT_REC_CTL k.toNat) (fun d => d.ackRec k.toNat))

/-- R74, R371: firmware rewrites a window entry that has failed, and its key range's pairs, from the configuration record. -/
def Dev.rewriteWin (d : Dev) (w : Nat) : Dev :=
  match tfind d.flash.cfg.wins w with
  | some img =>
    let d := d.putImage w img
    let d := match tfind d.flash.cfg.krs (imKr img) with
      | some k => ((krPairs (imKr img)).zip k).foldl (fun (d : Dev) (x : (Nat × Nat) × Nat) => d.wrPair x.1.1 x.1.2 x.2) d
      | none => d
    { d with win := { d.win with faulted := d.win.faulted.filter (· != w) } }
  | none => d

/-- R371: firmware logs a held record, starts its handling, and acknowledges it. -/
def Dev.takeUp (d : Dev) (k : Nat) : Dev :=
  let d := d.logHeld k
  let d := if d.recSrc k = src 8 0 then d.win.faulted.foldl Dev.rewriteWin d else d
  d.ackRec k

/-- R371. -/
def execFaultRecordTakeUp (k : BitVec 6) : State → Result :=
  run (fun d => d.when (d.fwUp && d.recValid k.toNat && d.flt.toLog.contains k.toNat) (fun d => d.takeUp k.toNat))

/-- R370. -/
def execEscalationTimerExpiry (k : BitVec 6) : State → Result :=
  run (fun d => d.when (d.recValid k.toNat && !d.recAcked k.toNat && d.recReact k.toNat == 2 && decide (3 ≤ d.recSev k.toNat) &&
    !d.flag (fFLT_REC_CTL_ESCALATED k.toNat)) (fun d => d.escalateRec k.toNat))

/-- R375, R225: the dirty hot-line cache entries are written out; encoding then stops. -/
def execBasicWriteoutDone : State → Result :=
  runAcc (fun a => a.when (a.dev.basic && a.dev.flt.basicStep == 1) (fun a =>
    a.flushHlc.upd (fun d => { d with flt := { d.flt with basicStep := 2 } })))

/-! ### Channels (R378, R379) -/

/-- Ranks of a channel that are fitted and whose slot is in service. -/
def Dev.probeRanks (d : Dev) (ch : Nat) : List Nat := (List.range 8).filter (fun r => d.rankHere ch r && !d.slotOut (2 * ch + r / 4))

/-- R378, R379: every rank is probed, a failed one again; a rank that fails twice takes its slot out, each slot with a record of its own, and
all of them the channel. -/
def Dev.probe (d : Dev) (ch sub : Nat) (failed : Nat → Bool) : Dev :=
  let rs := d.probeRanks ch
  let bad := rs.filter failed
  let d := d.emits (rs.map (fun r => .ddr 4 ch sub [r]))
  let d := d.emits (bad.map (fun r => .ddr 4 ch sub [r]))
  if bad.isEmpty then d
  else
    if bad.length = rs.length then d.declareFailed ch ([2 * ch, 2 * ch + 1].filter (fun s => (d.mch.pop.getD s none).isSome)) 2
    else (bad.map (fun r => 2 * ch + r / 4)).eraseDups.foldl (fun d s => d.declareFailed ch [s] 2) d

/-- R378. -/
def execChannelProbe (ch : Chan) (sub : Bool) (failed : BitVec 8) : State → Result :=
  run (fun d => d.when d.dramOn (fun d => d.probe ch.val sub.toNat (fun r => failed.getLsbD r)))

/-- R378, R379: CA parity: a command that fails is retried twice; a third failure fails the channel. -/
def Dev.caParity (d : Dev) (ch n : Nat) : Dev :=
  if n = 0 then d
  else if n ≤ 2 then d.raise { src := srcMch ch 5, sev := 1, code := 3, obj := ch, aux0 := n }
  else d.declareFailed ch ([2 * ch, 2 * ch + 1].filter (fun s => (d.mch.pop.getD s none).isSome)) 3

/-- R379. -/
def execCaParityError (ch : Chan) (failures : Nat) : State → Result := run (fun d => d.when d.dramOn (fun d => d.caParity ch.val failures))

/-! ### Clocks (R378) -/

/-- Clock domains 9 to 14 are MG0 to MG5: their channels are out, as Table 15.8 has it; any other domain's failure is fatal (log entry 37). -/
def Dev.clockBad (d : Dev) (k : Nat) : Dev :=
  if 9 ≤ k ∧ k ≤ 14 then
    let slots := ((List.range 8).map (8 * (k - 9) + ·)).filter (fun s => (d.mch.pop.getD s none).isSome)
    (slots.foldl (fun d s => d.setOut s true) d).raise { src := src 36 k, sev := 3, code := 378, obj := k }
  else d.raise { src := src 36 k, sev := 4, code := 378, obj := k }

/-- R378. -/
def execClockMonitorFailure (dom : Fin 20) : State → Result := run (fun d => d.clockBad dom.val)

end Sys2Proof.Machine
end

