-- ==== Sys2Proof/Machine/Boot.lean ====
section
/-! DEFINITION. The management processor (14_management.md R341 to R363): its memories, its restart, the boot chain, the
configuration record at a boot (13_commands.md R336), SPDM, and the decisions that firmware takes on its own. -/

namespace Sys2Proof.Machine

/-! ### Management restart (R342 to R344, R351) -/

/-- R344: the MGMT domain resets: every SPDM session ends, that of the pair link among them, whose link keys stay in force; a command that
was executing receives no reply, and those that wait in the queue are refused with NOT_READY. -/
def Dev.mgtRestart (d : Dev) : Dev :=
  let bg := (d.mgt.bg.filter (fun e => !e.2.done && !e.2.fg)).map (fun (e : Nat × BgCmd) => (e.1, { e.2 with tr := 4 }))
  let waiting := d.mgt.cmdq.map (fun q => (d.queuedCmd q, q.pkt.flags.toNat % 2))
  let d := { d.cmdsStop with pair := { d.pair with session := false } }
  let d := { d with mgt := { d.mgt with restart := true, romDone := false, bg := bg, cmdq := [], sessions := [], activatePending := false,
                                        seedOpen := true, fetchAt := [], restarts := d.mgt.restarts + 1 }
                    pwr := { d.pwr with sleepReq := none } }
  let d := ((d.setFlag fMGT_STS_READY false).set fMGT_STS_MODE 1).bumpSat fMGT_STS_RESTARTS 1
  waiting.foldl (fun d x => d.sendReply x.1 stNotReady x.2 noDetail []) d

/-- R458: an error of TCM i (0 instruction, 1 data) shows: an injection of so many bits that waits at one of the words p is used up;
whether there was one. -/
def Dev.tcmInj (d : Dev) (i bits : Nat) (p : Nat → Bool) : Bool × Dev :=
  match takeFirst (fun (x : Inj) => x.checker == 2 && x.target % 65536 == src 39 i && x.count == bits && p (x.target / 65536)) d.flt.inj with
  | some (_, r) => (true, { d with flt := { d.flt with inj := r } })
  | none => (false, d)

/-- An uncorrectable TCM error at one of the words p: source k of MGT at severity U, then the restart. In RECOVERY, which only a COLD reset
leaves (R349), it is recorded and nothing restarts. -/
def Dev.tcmFail (d : Dev) (k : Nat) (p : Nat → Bool) : Dev :=
  let u := d.tcmInj k 2 p
  let e : Ev := { src := src 39 k, sev := 3, code := 342 + (k + 1) / 2, inj := u.1 }
  if d.get fMGT_STS_MODE = 2 then u.2.raise e else ((u.2.bumpSat fMGT_TCM_STS_UE 1).raise e).mgtRestart

/-- R342: a correctable error is corrected, and with it an injected one. -/
def Dev.tcmFixed (d : Dev) : Dev := ((d.tcmInj 0 1 (fun _ => true)).2.tcmInj 1 1 (fun _ => true)).2.bumpSat fMGT_TCM_STS_CE 1

/-- R342. -/
def execTcmCorrectableError : State → Result := run (fun d => d.when d.pin.mgmtUp Dev.tcmFixed)

/-- R342 steps 1 and 2: page n of the instruction TCM in the active slot matches its hash, and the page-hash table MGT_PHT. -/
def Dev.pageGood (d : Dev) (n : Nat) : Bool :=
  let b := (d.img (d.get fMGT_STS_SLOT)).bytes
  decide (4096 * n < imgAt b 28 4) && sha256 (imgBytes b (0x6000 + 4096 * n) 4096) == imgBytes b (0x4000 + 32 * n) 32 &&
  ofBytes (sha256 (imgBytes b 0x4000 ((imgAt b 28 4 + imgAt b 32 4) / 128))) == d.rd rMGT_PHT

/-- R342 step 3: the page is rewritten. -/
def Dev.pageRewrite (d : Dev) (n : Nat) : Dev :=
  let b := (d.img (d.get fMGT_STS_SLOT)).bytes
  let t := d.mgt.itcm
  { d with mgt := { d.mgt with itcm := t.take (4096 * n) ++ (b.drop (0x6000 + 4096 * n)).take 4096 ++ t.drop (4096 * (n + 1)) } }

/-- A second uncorrectable fetch of page n within 1 s (R342). -/
def Dev.fetchSoon (d : Dev) (n : Nat) : Bool :=
  match tfind d.mgt.fetchAt n with
  | some t => decide (d.now - t ≤ 1000000000)
  | none => false

/-- R342: an uncorrectable fetch of page n of the instruction TCM: the page is repaired from flash, or the processor restarts; readOk is
whether flash gives the page. -/
def Dev.fetchFault (d : Dev) (n : Nat) (readOk : Bool) : Dev :=
  if readOk && d.pageGood n && !d.fetchSoon n then
    let u := d.tcmInj 0 2 (fun e => e / 512 == n)
    let d := { u.2.pageRewrite n with mgt := { (u.2.pageRewrite n).mgt with fetchAt := tins d.mgt.fetchAt n d.now } }
    (d.bumpSat fMGT_TCM_STS_IREPAIR 1).raise { src := src 39 0, sev := 1, code := 342, obj := n, inj := u.1 }
  else d.tcmFail 0 (fun e => e / 512 == n)

/-- R342; a fetch from an address outside the boot ROM and the instruction TCM is handled as a data TCM error (R341). -/
def execInstructionFetchError (page : BitVec 7) (readOk outside : Bool) : State → Result :=
  run (fun d =>
    if outside then d.when d.pin.mgmtUp (fun d => d.tcmFail 1 (fun _ => false))
    else d.when (d.pin.mgmtUp && d.mgt.fwRun) (fun d => d.fetchFault page.toNat readOk))

/-- R343: whatever runs: the boot ROM, firmware, or firmware in a restart. -/
def execDataTcmError : State → Result := run (fun d => d.when d.pin.mgmtUp (fun d => d.tcmFail 1 (fun _ => true)))

/-- R351: an activation fails: the boot ROM selects the previous slot and clears TRY, and the failure is logged. -/
def Dev.fellBack (d : Dev) : Dev :=
  let s := d.flash.sel
  let d := { d with flash := { d.flash with sel := { s with active := 1 - s.active, try_ := false } }.putSel }
  ((d.setFlag fMGT_STS_FALLBACK true).raise { src := src 39 6, sev := 1, code := 351, obj := s.active }).logPut 6 0 0 s.active

/-- The image that runs, or is being started, has been selected with TRY and is not confirmed. -/
def Dev.unconfirmed (d : Dev) : Bool := d.pin.mgmtUp && d.flash.sel.try_ && (d.mgt.restart || d.get fMGT_STS_SLOT == d.flash.sel.active)

/-- R343, R351: the watchdog expires. -/
def Dev.watchdog (d : Dev) : Dev :=
  let d := d.raise { src := src 39 2, sev := 3, code := 343 }
  (if d.unconfirmed then d.fellBack else d).mgtRestart

/-- R343. -/
def execWatchdogExpiry : State → Result := run (fun d => d.when (d.mgt.fwRun || d.mgt.restart) Dev.watchdog)

/-- R351. -/
def execBootConfirmTimeout : State → Result := run (fun d => d.when d.unconfirmed (fun d => d.fellBack.mgtRestart))

/-- R351: 10 ms after the reply of a successful activation. -/
def execActivationRestart : State → Result := run (fun d => d.when (d.fwUp && d.mgt.activatePending) Dev.mgtRestart)

/-! ### The boot ROM (Table 14.3 steps 1 to 7) -/

/-- R349, R351: the slot that the boot ROM runs: the selected one, else the other; none where both fail. -/
def Dev.romSlot (d : Dev) (rollback : Nat) : Option Nat :=
  let k := d.flash.sel.active
  let ok := fun (k : Nat) => imageStatus (d.img k).bytes rollback == 0
  if ok k then some k
  else if ok (1 - k) then some (1 - k)
  else none

/-- Steps 3 to 7: the image is verified, its pages copied to the TCMs, of which the data TCM beyond its pages starts zeroed (Table 14.2),
and its page-hash digest locked; or the ROM stays in RECOVERY. -/
def Dev.romLoad (d : Dev) (rollback : Nat) : Dev :=
  match d.romSlot rollback with
  | some k =>
    let d := if d.flash.sel.try_ && k != d.flash.sel.active then d.fellBack else d
    let b := (d.img k).bytes
    let n := imgAt b 28 4
    let d := (d.wr rMGT_PHT (ofBytes (imgBytes b 40 32))).set fMGT_STS_SLOT k
    { d with mgt := { d.mgt with romDone := true, itcm := (b.drop 0x6000).take n, dtcm := (b.drop (0x6000 + n)).take (imgAt b 32 4) } }.putImg k
      { d.img k with verified := true }
  | none => { d.set fMGT_STS_MODE 2 with mgt := { d.mgt with romDone := false, fwRun := false, restart := false } }

/-- R405 step 1: the temperature in degrees that every valid sensor must be below: SHUTDOWN - HYST of the record, or 114. -/
def Dev.coolTarget (d : Dev) : Nat :=
  match tfind d.flash.cfg.regs rTHM_THRESH with
  | some v => wordField v fTHM_THRESH_SHUTDOWN.lo fTHM_THRESH_SHUTDOWN.w - wordField v fTHM_THRESH_HYST.lo fTHM_THRESH_HYST.w
  | none => 114

/-- R405: a boot after a thermal shutdown waits for the sensors. -/
def Dev.coolEnough (d : Dev) : Bool :=
  d.pwr.shutRec.isNone || (List.range 32).all (fun k =>
    d.flag (fTHM_SENS_FAILED k) || decide (quarters (d.get (fTHM_SENS_TEMP k)) < 4 * (d.coolTarget : Int)))

/-- R405 step 2: an uncounted shutdown record burns the next fuse of the ledger. -/
def Dev.burnLedger (d : Dev) (o : Otp) : Dev × Otp :=
  if d.pwr.shutRec.isSome && !d.pwr.shutCounted then
    let n := min (o.ledger + 1) 64
    ((({ d with pwr := { d.pwr with shutCounted := true } }).set fTHM_LEDGER_COUNT n).setFlag fTHM_LEDGER_PENDING false, { o with ledger := n })
  else (d, o)

/-- R33, R339: the link configuration of the record comes into force; a bad one forms 1×16 everywhere. Of a bad record R33 says no more
than that: its rate caps and clock bits are still used, where it has them (DESIGN CHOICE, log entry 87). -/
def Dev.linkRead (d : Dev) : Dev :=
  let l := d.flash.cfg.link
  let bad := l.any (fun _ => true) && (l.length != 40 || (l.take 8).any (fun b => decide (2 < b)))
  let l := if bad then List.replicate 8 0 ++ l.drop 8 else l
  let top := if d.ab then 5 else 6
  let d := { d with mgt := { d.mgt with linkCfg := l } }
  let d := if bad then d.raise { src := src 39 4, sev := 1, code := 33 } else d
  heads.foldl (fun (d : Dev) p =>
    let b := l.getD (8 + p) (2 * top)
    let cap := min (b / 2 % 8) top
    (d.updPort p (fun s => { s with sris := b % 2 == 1, cap := cap, adv := cap })).set (fPDV_PORT_STS_FORMED p) ((d.formed p).getD 0)) d

/-- A COLD boot: it is counted (Table 14.5), and the key of the root-spill CMAC is drawn (R191). -/
def Dev.coldBoot (d : Dev) : Dev :=
  { d with flash := { d.flash with coldBoots := d.flash.coldBoots + 1 }, freeN := d.freeN + 1,
           sec := { d.sec with spillKey := (Config.randomKey d.freeN).toNat } }

/-- A measurement block of Table 14.4. What its digests are taken over in blocks 2 and 5, and the bytes of 6 and 7, the table leaves open
(DESIGN CHOICE, log entry 93). -/
def Dev.measurement (d : Dev) (o : Otp) (i : Nat) : List Nat :=
  let b := (d.img (d.get fMGT_STS_SLOT)).bytes
  if i = 1 then sha256 (Config.bootRom.map BitVec.toNat)
  else if i = 2 then sha256 (toBytes 32 Config.slojorKeyHash.toNat ++ toBytes 32 Config.ownerKeyHash.toNat ++ toBytes 4 o.rollback)
  else if i = 3 then sha256 (imgBytes b 0 512)
  else if i = 4 then toBytes 4 (imgAt b 12 4) ++ toBytes 8 (imgAt b 16 8)
  else if i = 5 then sha256 ((Config.recordBytes d.flash.cfg.nums).map BitVec.toNat)
  else if i = 6 then [d.ab.toNat, 0xB1, d.present, 0]
  else if i = 7 then [d.get fMGT_STS_INJ_UNLOCK + 2 * d.halted.toNat + 4 * d.basic.toNat, 0, 0, 0]
  else []

/-- The bytes of a signing key, and of a randomizer that firmware or the boot ROM draws (R341). -/
def signKey (k : BitVec 384) : List Nat := toBytes 48 k.toNat
def drawn (n : Nat) : List Nat := toBytes 16 (Config.randomKey n).toNat

/-- R353, step 6 of Table 14.3: the device identity key from the seed, the alias key from the seed and blocks 1 to 4; the cached alias
certificate stands if it names them, else the device key signs a new one. -/
def Dev.romIdentity (d : Dev) (o : Otp) : Dev :=
  let m := [1, 2, 3, 4].flatMap (d.measurement o)
  let seed := toBytes 32 o.seed.toNat
  let dev := Config.deriveKey seed
  let al := Config.deriveKey (seed ++ m)
  let have_ := match d.flash.aliasCert with
    | some c => c.1 == m
    | none => false
  let d := { d with mgt := { d.mgt with devicePub := BitVec.ofNat 256 (ofBytes (slhPublic (signKey dev))), aliasKey := al } }
  if have_ then d
  else { d with freeN := d.freeN + 1,
                flash := { d.flash with aliasCert := some (m, slhSign (signKey dev) (drawn d.freeN) (slhPublic (signKey al) ++ m)) } }

/-- The boot ROM runs: ledger, the blocks in flash, link configuration, image, identity. -/
def Dev.romBoot (d : Dev) (o : Otp) : Dev × Otp :=
  let x := ({ d with pin := { d.pin with mgmtUp := true } }).burnLedger o
  let d := x.1
  let d := if d.mgt.bootKind = 0 then d.coldBoot else d
  let d : Dev := { d.flashRead with mgt := { d.mgt with seedOpen := true } }
  if d.get fMGT_STS_MODE = 2 then (d, x.2)
  else
    let d := (d.linkRead.set fMGT_STS_MODE 1).romLoad x.2.rollback
    (if d.get fMGT_STS_MODE = 2 then d else d.romIdentity x.2, x.2)

/-- The MGMT reset may be released (Tables 19.2, 19.3). -/
def Dev.mgmtReady (d : Dev) : Bool :=
  !d.pin.sysRst && !d.pin.mgmtUp && d.pin.warm == 0 && d.pin.mainEn && !d.pin.mainFault && d.coolEnough

/-- R348. -/
def execMgmtResetRelease : State → Result :=
  onOtp (fun d o => if d.mgmtReady then let x := d.romBoot o; (x.1.settle, x.2) else (d.settle, o))

/-! ### The configuration record at a boot (R336) -/

/-- Keys of the record that are not written back to the register at that offset: the stored slot enables, a head's CLASSMAP, a queue's
class. -/
def cfgOwn (k : Nat) : Bool := k == rSLT_ON || decide (0x2000000 ≤ k)

/-- A register image takes effect, with its complement as the record holds it; not one of a monitor unit that is off (R424). -/
def Dev.applyImage (d : Dev) (k v : Nat) : Dev :=
  match complOf k with
  | some kc =>
    match tfind d.flash.cfg.comps kc with
    | some vc => (d.wr k v).wr kc vc
    | none => d.wrPair k kc v
  | none => if d.unitOff k then d else d.wr k v

/-- The register images of the record that p selects take effect. -/
def Dev.applyImages (d : Dev) (p : Nat → Bool) : Dev :=
  (d.flash.cfg.regs.filter (fun e => !cfgOwn e.1 && p e.1)).foldl (fun (d : Dev) (e : Nat × Nat) => d.applyImage e.1 e.2) d

/-- The stored classes of the job queues (R307). -/
def Dev.applyQueues (d : Dev) : Dev :=
  (d.flash.cfg.regs.filter (fun e => decide (0x2000000 ≤ e.1) && decide (e.1 < 0x4000000))).foldl
    (fun (d : Dev) (e : Nat × Nat) => d.wr e.1 (wordPut (d.rd e.1) 5 3 (e.2 / 32))) d

/-- R114: the stored slot enables of a COLD boot: the ramps start that R409 lets start. -/
def Dev.bootSlots (d : Dev) : Dev :=
  (bitsOf 48 ((tfind d.flash.cfg.regs rSLT_ON).getD 0)).foldl (fun (d : Dev) s =>
    let u := d.sltUse s
    if u.2.sltState s = slOff ∧ (u.2.enableBad s u.1).isNone = true then u.2.sltRamp s else u.2) d

/-- The grants of the record. -/
def isGrant (k : Nat) : Bool := k == rTOP_CSR_WRGRANT || k == rMGT_CMD_GRANT

/-- R336: what firmware applies when it starts: at a COLD boot the grants and the slot enables, at a WARM boot TOP_CSR_WRGRANT and
the images of WARM and HEAD registers. The device seed can be read no more (Table 14.3 step 7). -/
def Dev.fwEntry (d : Dev) : Dev :=
  let d := { d with mgt := { d.mgt with fwRun := true, seedOpen := false } }
  if d.mgt.bootKind = 0 then (d.applyImages isGrant).bootSlots
  else ((d.applyImages (fun k => (domAt k).1 == .warm || (domAt k).1 == .head)).applyQueues).scrubRate.keepLimits

/-- R336. -/
def execFirmwareEntry : State → Result :=
  run (fun d => d.when (d.pin.mgmtUp && d.mgt.romDone && !d.mgt.fwRun && d.pin.mainUp) Dev.fwEntry)

/-- R83: firmware locks the map once the population is settled. -/
def Dev.bootLock (d : Dev) : Dev := if d.get fMCH_POP_STS_RESULT = 3 then d else d.mapLock

/-- R255, R336: a stored target; its VALID is 0. -/
def Dev.bootTarget (d : Dev) (t n : Nat) : Dev :=
  (((d.set (fPAIR_MIRW_STS_PEER t) n).setFlag (fPAIR_MIRW_STS_PEER_SET t) true).setFlag (fPAIR_MIRW_STS_VALID t) false).setMir t mirTarget

/-- R336: the record at a COLD boot, in its order: layout and regions; key ranges; class, port, threshold, slot and fault settings; the
bitmap area, pairing and targets. -/
def Dev.applyRecord (d : Dev) : Dev :=
  let c := d.flash.cfg
  let d := d.bootLock
  let d := if !c.layout.isEmpty && (d.layoutBad c.layout).isNone then d.setLayout c.layout else d
  let d := { d with win := { d.win with dc := c.dc } }
  let d := c.krs.foldl (fun (d : Dev) (e : Nat × List Nat) => d.krDefine e.1 e.2) d
  let d := (d.applyImages (fun k => !isGrant k)).applyQueues
  let d := { d with mgt := { d.mgt with tierLim := if c.tierLim.isEmpty then d.mgt.tierLim else c.tierLim } }.keepLimits
  let d := d.scrubRate.relevel.evalThrot
  let d := (d.set fPAIR_MIR_BMAREA_UNITS c.bmUnits).bmFree
  let d := match c.pairing with
    | some r => d.setPairing r.1 r.2
    | none => d
  c.targets.foldl (fun (d : Dev) (e : Nat × Nat) => d.bootTarget e.1 e.2) d

/-! ### Boot complete (R344, R348, R351, R352, R358) -/

/-- R351, R352: the image is confirmed, and with RAISE_SVN raises the anti-rollback counter. -/
def Dev.confirm (d : Dev) (o : Otp) : Dev × Otp :=
  let s := d.flash.sel
  let d := if s.try_ then
      { d.setFlag fMGT_STS_FALLBACK false with flash := { d.flash with sel := { s with try_ := false, confirmed := s.confirmed.filter (· != s.active) ++ [s.active] } } }
    else d
  let b := (d.img (d.get fMGT_STS_SLOT)).bytes
  let svn := min (imgAt b 12 4) 64
  if (imgAt b 9 1).testBit 0 && decide (o.rollback < svn) then (d.logPut 7 0 0 svn, { o with rollback := svn }) else (d, o)

/-- R358: the crock's log records go to flash with FROM_CROCK set. -/
def Dev.crockCopy (d : Dev) : Dev :=
  if d.flashUp then
    let f := d.crockLog.foldl (fun (f : Flash) (r : LogRec) =>
      { f with log := logPush f.log { r with seq := f.logNext, flags := 1 }, logNext := (f.logNext + 1) % 2 ^ 32 }) d.flash
    { d with flash := f, crockLog := [] }
  else d

/-- R405 step 3: the thermal shutdown record goes to the log. -/
def Dev.shutLog (d : Dev) : Dev :=
  match d.pwr.shutRec with
  | some r => { d with pwr := { d.pwr with shutRec := none, shutCounted := false } }.logPut 8 4 (src 37 5) (r.foldr (fun w a => w % 2 ^ 32 + 2 ^ 32 * a) 0)
  | none => d

/-- R62: formed heads whose settings are not restored yet are restored, and their requests go on. -/
def Acc.restoreAll (a : Acc) : Acc :=
  (heads.filter (fun p => (a.dev.formed p).isSome && !(a.dev.portOf p).restored)).foldl (fun (a : Acc) p =>
    (a.upd (fun d => d.restoreHead p)).releaseRx p) a

/-- READY, MODE RUN and what follows; kind is the log record's (3 boot, 4 restart). At the end of a boot firmware claims NR0 (R419). -/
def Dev.ready (d : Dev) (kind : Nat) : Dev :=
  let d := if kind = 3 then d.set (fRING_CLAIM_HOLDER 0) 32 else d
  let d := ({ d with mgt := { d.mgt with restart := false, fwRun := true, booted := true } }.setFlag fMGT_STS_READY true).set fMGT_STS_MODE 0
  (d.crockCopy.shutLog.logPut kind 0 0 (d.get fMGT_STS_SLOT)).tryTrain

/-- The boot completes: its record is applied, the heads are restored, and READY is set. -/
def Dev.bootDone (d : Dev) : Dev := if d.mgt.bootKind = 0 then d.applyRecord else d

/-- A boot can complete: its channels are trained and initialized, or the population allows none (Table 19.2). -/
def Dev.bootable (d : Dev) : Bool :=
  d.mgt.fwRun && !d.mgt.restart && !d.flag fMGT_STS_READY &&
  (d.get fMCH_POP_STS_RESULT == 3 || (if d.mgt.bootKind = 0 then d.mch.initDone else d.mch.trained))

/-- The stores and the fuses of a boot or restart that completes; f is what is applied before the heads are restored. -/
def readyStep (c : Dev → Bool) (f : Dev → Otp → Dev) (kind : Nat) (s : State) : Result :=
  if c s.dev then
    let d := f s.dev s.otp
    if d.get fMGT_STS_MODE = 2 then .next { s with dev := d.settle }
    else
      match onAcc (fun a => a.restoreAll) { s with dev := d } with
      | .next t =>
        let x := t.dev.confirm t.otp
        .next { t with dev := (x.1.ready kind).settle, otp := x.2 }
      | r => r
  else .next { s with dev := s.dev.settle }

/-- R348. -/
def execBootComplete : State → Result := readyStep Dev.bootable (fun d _ => d.bootDone) 3

/-- A register whose setting the record takes over from the running one: one with a field that is written, by a command or by a head. -/
def cfgKept (k : Nat) : Bool :=
  match regAt k with
  | some a => a.key == k && !cfgOwn k && !cfgCount k && a.r.fields.any (fun f => f.ty == .rw)
  | none => false

/-- R344: the restarted firmware takes the running registers as the truth and rewrites the record from them. What no running register
holds stands: a link configuration (R33, read at the next WARM reset), tier limits, an entry that has failed its check, and stored windows
that KEY_LOAD has not made yet (R336) (DEDUCED, log entry 92). -/
def Dev.adopt (d : Dev) : Dev :=
  let c := d.flash.cfg
  let regs := c.regs.map (fun (e : Nat × Nat) => if cfgOwn e.1 then e else (e.1, d.regImage e.1))
  let regs := (d.csr.filter (fun e => cfgKept e.1)).foldl (fun (t : Tbl Nat) e => tins t e.1 (d.regImage e.1)) regs
  let old := c.wins.filter (fun e => d.win.faulted.contains e.1 || decide (d.krState (imKr e.2) ≤ 1))
  let wins := (d.windows.filter (fun w => !d.win.faulted.contains w)).foldl (fun (t : Tbl (List Nat)) w => tins t w (withCompl (d.winImage w))) old
  let sound := fun (n : Nat) => (krPairs n).all (fun p => d.pairMatch p.1 p.2)
  let krs := ((List.range 16).filter (fun n => sound n && d.krValid n)).foldl
    (fun (t : Tbl (List Nat)) n => tins t n (withCompl ((krPairs n).map (fun p => d.rd p.1)))) (c.krs.filter (fun e => !sound e.1))
  let targets := ((List.range 256).filter (fun t => d.mirSt t == mirTarget)).foldl (fun (m : Tbl Nat) t => tins m t (d.get (fPAIR_MIRW_STS_PEER t))) []
  let layout := if d.flag (fCDC_LAYOUT_SET 0) then (List.range 4).map (fun k => d.get (fCDC_LAYOUT_SIZE k)) else []
  let comps := (regs.filterMap (fun e => complOf e.1)).foldl (fun (t : Tbl Nat) k => tins t k (d.rd k)) []
  { d with flash := { d.flash with cfg := { c with regs := regs, comps := comps, wins := wins, krs := krs, dc := d.win.dc, layout := layout,
                                                   pairing := d.mir.pairing, targets := targets, bmUnits := d.get fPAIR_MIR_BMAREA_UNITS } } }

/-- Steps 4 to 8 of Table 14.3 of a restart. -/
def Dev.restartDone (d : Dev) (o : Otp) : Dev :=
  let d := d.romLoad o.rollback
  if d.get fMGT_STS_MODE = 2 then d else { (d.romIdentity o).adopt with mgt := { (d.romIdentity o).adopt.mgt with seedOpen := false } }

/-- A restart that comes before the boot has completed: the boot ROM loads the image, and the boot goes on from firmware's entry; no
register has been written from the record yet that the record could be rewritten from (DEDUCED, log entry 115). -/
def Dev.restartInBoot (d : Dev) (o : Otp) : Dev :=
  let d := d.romLoad o.rollback
  if d.get fMGT_STS_MODE = 2 then d
  else { d.romIdentity o with mgt := { (d.romIdentity o).mgt with restart := false, fwRun := false } }

/-- R344. -/
def execManagementRestartDone : State → Result := fun s =>
  if s.dev.mgt.restart && !s.dev.mgt.booted then onOtp (fun d o => ((d.restartInBoot o).settle, o)) s
  else readyStep (fun d => d.mgt.restart) Dev.restartDone 4 s

/-! ### SPDM (R353 to R355) -/

/-- A session ends. -/
def Dev.endSession (d : Dev) (n : Nat) : Dev := { d with mgt := { d.mgt with sessions := d.mgt.sessions.filter (fun x => x.id != n) } }

/-- R354: the flags of CERT (bit 1), CHAL (2), MEAS with signature (4:3), ENCRYPT (6), MAC (7), MUT_AUTH (8), KEY_EX (9), HBEAT (13) and
KEY_UPD (14). -/
def spdmFlags : Nat := 0x63D6

/-- The head whose DOE carries a session. -/
def viaDoe : SpdmVia → Option Nat
  | .doe h => some h.toNat
  | .smbus _ => none
  | .vdm _ => none

/-- An answer in a session; the error of a session that does not exist (2), or whose handshake has not ended (4). -/
def Dev.spdmIn (d : Dev) (n code : Nat) (f : Dev → Dev) : Dev :=
  match d.mgt.sessions.find? (fun x => x.id == n) with
  | some x => if x.fin then (f d).emit (.spdm (viaDoe x.via) code [n]) else d.emit (.spdm (viaDoe x.via) 0x7F [4])
  | none => d.emit (.spdm none 0x7F [2])

/-- R354: FINISH ends the handshake of a session. -/
def Dev.spdmFinish (d : Dev) (n : Nat) : Dev :=
  match d.mgt.sessions.find? (fun x => x.id == n) with
  | some x =>
    if x.fin then d.emit (.spdm (viaDoe x.via) 0x7F [4])
    else { d with mgt := { d.mgt with sessions := d.mgt.sessions.map (fun (y : Session) => if y.id = n then { y with fin := true } else y) } }.emit
      (.spdm (viaDoe x.via) 0x65 [n])
  | none => d.emit (.spdm none 0x7F [2])

/-- R353: certificate slot 0: the Slojor root, the certificate of the device identity key, and that of the alias key: its public key and
the measurements, with the device key's signature. -/
def Dev.certChain (d : Dev) : List Nat :=
  let c := d.flash.aliasCert.getD ([], [])
  Config.rootCertificate.map BitVec.toNat ++ d.flash.devCert.map BitVec.toNat ++ slhPublic (signKey d.mgt.aliasKey) ++ c.1 ++ c.2

/-- R353: an answer signed with the alias key over what it holds and what its signature also covers. -/
def Dev.spdmSigned (d : Dev) (doe : Option Nat) (code : Nat) (body also : List Nat) : Dev :=
  { d with freeN := d.freeN + 1 }.emit (.spdm doe code (body ++ slhSign (signKey d.mgt.aliasKey) (drawn d.freeN) (body ++ also)))

/-- R354: KEY_EXCHANGE: of at most eight sessions one more begins. -/
def Dev.spdmExchange (d : Dev) (via : SpdmVia) (mutAuth owner : Bool) : Dev :=
  let n := d.mgt.nextSession
  let x : Session := ⟨n, via, mutAuth, owner, false⟩
  if 8 ≤ d.mgt.sessions.length then d.emit (.spdm (viaDoe via) 0x7F [10])
  else Dev.spdmSigned { d with mgt := { d.mgt with sessions := d.mgt.sessions ++ [x], nextSession := n + 1 } } (viaDoe via) 0x64 [n] d.certChain

/-- R354: what GET_VERSION, GET_CAPABILITIES and NEGOTIATE_ALGORITHMS answer: versions 1.2 and 1.3; CTExponent 19 and the flags of the
capabilities; SLH-DSA-SHA2-128s under registry vendor 0x1F3B, secp384r1, AES-256-GCM and SHA-256 (codes and bits are DSP0274's, log entry 54). -/
def spdmFixed : List (Nat × (Nat × List Nat)) :=
  [(0x84, (0x04, [0x12, 0x13])), (0xE1, (0x61, [19, spdmFlags])), (0xE3, (0x63, [0x1F3B, 0x10, 0x2, 0x1]))]

/-- R354: the answer to a request; codes are those of DSP0274. -/
def Dev.spdmAnswer (d : Dev) (o : Otp) (r : SpdmReq) : Dev :=
  match r with
  | .getCertificate => d.emit (.spdm none 0x02 d.certChain)
  | .challenge nonce => d.spdmSigned none 0x03 (toBytes 32 nonce.toNat) (d.certChain ++ (List.range 7).flatMap (fun i => d.measurement o (i + 1)))
  | .getMeasurements i =>
    if i = 0 then d.emit (.spdm none 0x60 [7])
    else if i ≤ 7 then d.spdmSigned none 0x60 (i :: d.measurement o i) []
    else if i = 255 then d.spdmSigned none 0x60 (i :: (List.range 7).flatMap (fun i => d.measurement o (i + 1))) []
    else d.emit (.spdm none 0x7F [1])
  | .keyExchange via mutAuth owner => d.spdmExchange via mutAuth owner
  | .finish n => d.spdmFinish n
  | .keyUpdate n => d.spdmIn n 0x69 id
  | .heartbeat n => d.spdmIn n 0x68 id
  | .endSession n => d.spdmIn n 0x6C (fun d => d.endSession n)
  | .other c =>
    match tfind spdmFixed c.toNat with
    | some a => d.emit (.spdm none a.1 a.2)
    | none => if c = 0x81 then d.emit (.spdm none 0x01 (1 :: sha256 d.certChain)) else d.emit (.spdm none 0x7F [7, c.toNat])

/-- R354. -/
def execSpdmRequest (r : SpdmReq) : State → Result := onOtp (fun d o => ((d.when d.fwUp (fun d => d.spdmAnswer o r)).settle, o))

/-- R354. -/
def execSpdmHeartbeatTimeout (session : Nat) : State → Result := run (fun d => d.endSession session)

/-! ### Decisions of firmware (Table 14.7) -/

/-- R402: a thermal stage is rewritten; one in force takes effect, and one slower than SLOWEST is logged. -/
def Dev.setThmStage (d : Dev) (k level cap : Nat) : Dev :=
  let d := (d.set (fTHM_STAGE_PLEVEL k) level).set (fTHM_STAGE_CAP_PM k) cap
  let d := if d.get fTHM_STS_STAGE = k ∧ k ≠ 0 then (d.set fPWR_PSTS_THERM_REQ level).set fQOS_THERM_CAP_PM (max 100 cap) else d
  if d.get fPWR_LIMITS_SLOWEST < level then d.logPut 1 0 (src 37 3) (k + level * 2 ^ 8) else d

/-- R362. -/
def Dev.fwDecide (d : Dev) (x : FwDecision) : Dev :=
  match x with
  | .thresholds p m a =>
    (((d.set fCDC_THR_PROMOTE_AT p.toNat).set fCDC_THR_DEMOTE_BELOW m.toNat).set fCDC_THR_AMBER_BELOW a.toNat).keepLimits
  | .efforts g a => ((d.set fCDC_CTL_EFFORT_G g.toNat).set fCDC_CTL_EFFORT_A a.toNat).keepLimits
  | .pLevel l => d.set fPWR_PSTS_FW_REQ (min (max l.toNat (d.get fPWR_LIMITS_FASTEST)) (d.get fPWR_LIMITS_SLOWEST))
  | .thermalStage k l cap => d.when (k != 0) (fun d => d.setThmStage k.toNat l.toNat cap.toNat)
  | .sleep st => d.when (st != 0 && decide (st.toNat ≤ d.get fPWR_LIMITS_DEEPEST)) (fun d => d.wantSleep st.toNat none)

/-- R362. -/
def execFirmwareDecision (x : FwDecision) : State → Result := run (fun d => d.when d.fwUp (fun d => d.fwDecide x))

end Sys2Proof.Machine
end

