-- ==== Sys2Proof/Machine/Reset.lean ====
section
/-! DEFINITION. Resets and main power (19_pins_electrical.md R438 to R445), and the end of a sleep exit
(16_power_thermal.md R396). -/

namespace Sys2Proof.Machine

/-! ### COLD reset -/

/-- R152: the hard repairs made: they stay in the devices, whatever is reset. -/
def Dev.hardDone (d : Dev) : List (List Nat) := d.mch.pprUsed.filter (fun e => e.getD 7 0 == 1)

/-- R10: everything of the COLD, WARM and HEAD domains takes its reset value, but for registers that keep selects. Flash, the crock's
log and thermal records, and the levels on input pins stay. -/
def Dev.coldState (d : Dev) (o : Otp) (keep : Nat → Bool) : Dev :=
  let port := (d.port.filter (fun e => !e.2.perst)).map (fun (e : Nat × PortS) => (e.1, { PortS.empty with perst := false }))
  let x : Dev := { csr := tdrop (fun k => (domAt k).1 != .aon && !keep k) d.csr, freeN := d.freeN, out := d.out, ab := d.ab, flash := d.flash
                   crockLog := d.crockLog, port := port, mch := { pprUsed := d.hardDone }
                   pwr := { shutRec := d.pwr.shutRec, shutCounted := d.pwr.shutCounted }
                   pin := { sysRst := d.pin.sysRst, aon := d.pin.aon, pairPresent := d.pin.pairPresent, thermtrip := d.pin.thermtrip } }
  let x := (x.set fTHM_LEDGER_COUNT o.ledger).setFlag fTHM_LEDGER_PENDING (d.pwr.shutRec.isSome && !d.pwr.shutCounted)
  x.setFlag fPAIR_STS_PRESENT d.pin.pairPresent

/-- Table 19.2 step 1: SYS_RST_N goes low. After a thermal shutdown the cause says so; THERMTRIP_N is released (R404). -/
def Dev.coldReset (d : Dev) (o : Otp) : Dev :=
  let x := d.coldState o (fun _ => false)
  let x := { x with pin := { x.pin with sysRst := true, thermtrip := false } }
  (x.set fTOP_RST_STS_CAUSE (if d.pin.thermtrip then 5 else 1)).set fTOP_RST_STS_WARMS 0

/-- R442. -/
def execColdReset : State → Result :=
  onOtp (fun d o => (if d.pin.aon then d.coldReset o else d, o))

/-- R440: SYS_RST_N rises. -/
def execSysRstRelease : State → Result :=
  run (fun d => d.when (d.pin.aon && d.pin.sysRst) (fun d => { d with pin := { d.pin with sysRst := false } }))

/-- R440: PWR_MAIN_EN goes high, 50 µs after SYS_RST_N. -/
def execPwrMainEnRise : State → Result :=
  run (fun d => d.when (d.pin.aon && !d.pin.sysRst && !d.pin.mainEn && !d.pin.mainFault && d.get fPWR_SLEEP_STS_STATE != 3)
    (fun d => { d with pin := { d.pin with mainEn := true } }))

/-- R440: MAIN_PWRGD rises. -/
def execMainPwrgdRise : State → Result :=
  run (fun d => d.when (d.pin.mainEn && !d.pin.mainOk) (fun d => { d with pin := { d.pin with mainOk := true } }))

/-- R440, R192: the main domains leave reset; on the exit from S3 the root spill is checked. -/
def Acc.mainRelease (a : Acc) : Acc :=
  let a := a.upd (fun d => { d with pin := { d.pin with mainUp := true } }.pmuPower)
  if a.dev.pwr.exiting && a.dev.pwr.exitFrom == 3 then a.spillCheck else a

/-- R440. -/
def execMainDomainRelease : State → Result :=
  runAcc (fun a => a.when (a.dev.pin.mainOk && !a.dev.pin.mainUp) Acc.mainRelease)

/-- R441: main power is lost: the controller stays as in a COLD reset until SYS_RST_N is pulsed, its slots off with cause THERMAL. -/
def Dev.mainFault (d : Dev) (o : Otp) : Dev :=
  let d := d.slotsThermal
  let sl := d.slot
  let x := d.coldState o (fun k => decide (0x400000 ≤ k) && decide (k < 0x500000))
  let x := { x with pin := { x.pin with mainFault := true }, slot := sl, crockLog := crockPush d.crockLog ⟨0, d.flash.coldBoots, d.now, 1, 0, 0, 0, 2⟩ }
  (x.set fTOP_RST_STS_CAUSE 2).setFlag fTOP_RST_STS_FAULT_SEEN true

/-- R441. -/
def execMainPwrgdFall : State → Result :=
  onOtp (fun d o => (if d.pin.mainEn && d.pin.mainOk then d.mainFault o else d, o))

/-! ### The AON supply (R439, R445) -/

/-- What outlives the AON supply: flash and the outside world. -/
def Dev.noAon (d : Dev) : Dev := { freeN := d.freeN, out := d.out, ab := d.ab, flash := d.flash, mch := { pprUsed := d.hardDone } }

/-- R439: the always-on rails rise with SYS_RST_N low; TOP_RST_STS.CAUSE is AON power-on. -/
def execAonPowerOn : State → Result :=
  onOtp (fun d o => (if d.pin.aon then d else d.noAon.set fTHM_LEDGER_COUNT o.ledger, o))

/-- R445: the AON supply is lost, and all state with it. -/
def execAonPowerLoss : State → Result :=
  onDev (fun d => { d.noAon with pin := { d.noAon.pin with aon := false } })

/-! ### WARM reset (Table 19.3) -/

/-- Step 1 for a port: it stops taking flits, and its requests that no slice has accepted are discarded. -/
def Dev.portStop (d : Dev) (p : Nat) : Dev :=
  (d.updPort p (fun s => { s with up := false, cxl := false, rx := [] })).dropHeadReqs p

/-- R263, R265: a mirrored window at a WARM reset: SOLO with cause RESET, and all of it to copy. -/
def Dev.mirReset (d : Dev) (w : Nat) : Dev :=
  let d := d.enterSolo w 3
  if d.mirSt w = mirSolo then (d.setFlag (fPAIR_MIRW_STS_FULL w) true).set (fPAIR_MIRW_CURSOR_DPA w) (d.winBase w)
  else if d.mirSt w = mirTarget then d.setFlag (fPAIR_MIRW_STS_VALID w) false
  else d

/-- Steps 1 and 2: ports stop, with Mem_Enable and the covered windows of each head latched (R110); jobs are abandoned; mirrored windows
enter SOLO. -/
def Dev.warmStart (d : Dev) : Dev :=
  let ls := (heads.filter d.memEn).map (fun p => (p, d.affected p))
  let d := { d with home := { d.home with latched := ls }, pin := { d.pin with warm := 1 } }
  let d := (heads.foldl Dev.portStop d).jobsAbandon qDisabled 0
  let d := { d with mir := { d.mir with unacked := d.mir.unacked.map (fun (m : PMsg) => { m with cpl := none }), waits := [] } }
  ((List.range 256).foldl Dev.mirReset d).linkDown 6

/-- R445: a WARM reset before the first initialization since COLD reset is a COLD boot. -/
def Dev.warmPromoted (d : Dev) (o : Otp) : Dev := (d.coldState o (fun _ => false)).set fTOP_RST_STS_CAUSE 4

/-- WARM_RST_N goes low: promoted to a COLD boot, a wake of a sleeping controller that Table 19.3 follows, or step 1. -/
def Dev.warmReset (d : Dev) (o : Otp) : Dev :=
  if !d.pin.initSince then d.warmPromoted o
  else
    let d := if d.pwr.entering.isSome then d.abortSleep 0 else d
    if d.pwr.exiting then { d with pin := { d.pin with warm := 3 } }
    else if d.get fPWR_SLEEP_STS_STATE = 0 then d.warmStart
    else { d.beginExit 0 with pin := { (d.beginExit 0).pin with warm := 3 } }

/-- R442, R444, R445. -/
def execWarmReset : State → Result :=
  onOtp (fun d o => ((if d.pin.aon && !d.pin.sysRst && !d.pin.mainFault && d.pin.warm == 0 then d.warmReset o else d).settle, o))

/-- Step 3: everything that the DRAM-resident metadata depends on is written out. -/
def Acc.warmFlush (a : Acc) : Acc := (((a.flushHlc.flushDir).drainDram.flushNodes).flushMeta 0).flushMeta 1

/-- A port after a WARM reset: its pin, its cap and clocking until the record is read again, its Dynamic Capacity (R51), and that it needs
new keys after a MAC failure (R56). -/
def portAfter (s : PortS) : PortS :=
  { PortS.empty with perst := s.perst, cap := s.cap, adv := s.cap, sris := s.sris, extents := s.extents, cdat := s.cdat,
                     needKeys := s.needKeys || s.macStop }

/-- Step 5: the parts of the state that stand in the WARM and HEAD domains. Nodes that could not be written, of ranges whose key is lost,
stay (R187). -/
def Dev.warmParts (d : Dev) : Dev :=
  let m := d.mgt
  { d with
    home := { latched := d.home.latched, dirBad := d.home.dirBad, sweeps := d.home.sweeps.map (fun (s : Sweep) => { s with cur := 0 }) }
    tier := { frames := d.tier.frames, cells := d.tier.cells, lastAcc := d.tier.lastAcc, rebuild := true }
    sec := { d.sec with nodes := d.sec.nodes.filter (fun e => e.2.dirty), mlines := [], ovf := [] }
    mch := { pprUsed := d.mch.pprUsed, out := d.mch.out, initDone := d.mch.initDone, inj := d.mch.inj, nextId := d.mch.nextId }
    mir := { pairing := d.mir.pairing, gens := d.mir.gens, rebuild := d.mir.rebuild, sbFlags := d.mir.sbFlags, dirty := d.mir.dirty, blocks := d.mir.blocks }
    qos := {}
    pair := { held := d.pair.held }
    job := {}
    smp := []
    rings := []
    port := d.port.map (fun (e : Nat × PortS) => (e.1, portAfter e.2))
    win := { d.win with chg := [] }
    flt := { inj := d.flt.inj, toLog := d.flt.toLog, globalBad := d.flt.globalBad }
    mgt := { restarts := m.restarts, nextBg := m.nextBg, nextSession := m.nextSession, tierLim := m.tierLim, linkCfg := m.linkCfg, bootKind := 1 }
    pwr := { hold2 := d.pwr.hold2, shutdown := d.pwr.shutdown, shutRec := d.pwr.shutRec, shutCounted := d.pwr.shutCounted }
    pin := { d.pin with warm := 2, mgmtUp := false } }

/-- What status registers of the WARM domain show of what is kept. -/
def Dev.warmShow (d : Dev) : Dev :=
  let d := (d.setFlag fPAIR_STS_PRESENT d.pin.pairPresent).set fFLT_STS_HELD ((List.range 64).filter d.recValid).length
  let d := match d.mir.pairing with
    | some r => (d.set fPAIR_STS_ROLE r.1).setFlag fPAIR_MIR_STS_PAIRED true
    | none => d
  let d := match d.home.sweeps with
    | s :: _ => (d.setFlag fHOME_SWEEP_ACTIVE true).set fHOME_SWEEP_WINDOW (s.wins.headD 0)
    | [] => d
  let d := d.mch.out.foldl (fun (d : Dev) s => d.setBit fPAIR_MIR_OUT_SLOTS s true) (d.setFlag fPAIR_MIR_STS_REBUILD (!d.mir.rebuild.isEmpty))
  let d := d.pmuPower
  if d.pwr.hold2 then d.setStage 2 else d

/-- Steps 4 and 5: DRAM enters self-refresh; WARM and HEAD domains reset; held fault records count as acknowledged (R371). -/
def Dev.warmDomains (d : Dev) : Dev :=
  let gone := (d.win.chg.filter (fun c => c.kind == 0)).map (·.win)
  let d := { d with sec := { d.sec with allot := d.sec.allot.filter (fun x => !((x.kind == 0 || x.kind == 3) && gone.contains x.obj)) } }
  let d := (d.emit (.ddr 9 0 0 [])).warmParts.resetRegs (fun dom _ => dom == .warm || dom == .head)
  let d := d.setFlag fMGT_STS_READY false
  let d := (List.range 64).foldl (fun (d : Dev) k => d.ackRec k) d.warmShow
  ((d.set fTOP_RST_STS_CAUSE 3).bumpSat fTOP_RST_STS_WARMS 1).relevel

/-- R444. -/
def execWarmResetFlushDone : State → Result :=
  runAcc (fun a => a.when (a.dev.pin.warm == 1) (fun a => a.warmFlush.upd Dev.warmDomains))

/-- Step 6, R110: the reset ends, with head loss for every head that had Mem_Enable; the boot chain then runs. -/
def Acc.warmRelease (a : Acc) : Acc :=
  let ls := a.dev.home.latched
  let a := a.upd (fun d => { d with pin := { d.pin with warm := 0 }, home := { d.home with latched := [] } })
  ls.foldl (fun (a : Acc) (e : Nat × List Nat) => a.headLoss e.1 e.2) a

/-- R444. -/
def execWarmResetRelease : State → Result := runAcc (fun a => a.when (a.dev.pin.warm == 2) Acc.warmRelease)

/-! ### The end of a sleep exit (Table 16.8) -/

/-- Every domain that S0 needs is powered. -/
def Dev.domsUp (d : Dev) : Bool := (List.range 56).all (fun k => !d.domWanted k || d.bit fPWR_DOM_STS_ON k)

/-- R133: DQS-oscillator tracking of every rank. -/
def Dev.trackAll (d : Dev) : Dev :=
  d.emits ((List.range 24).flatMap (fun ch => ((List.range 8).filter (d.rankHere ch)).map (fun r => Out.ddr 6 ch 0 [r])))

/-- R397: HEAD-domain registers are not retained over S3. -/
def Dev.headsLost (d : Dev) : Dev :=
  let d := d.resetRegs (fun dom _ => dom == .head)
  heads.foldl (fun (d : Dev) p => (d.updPort p (fun s => { s with restored := false })).set (fPDV_PORT_STS_FORMED p) ((d.formed p).getD 0)) d

/-- Steps 6 and 7: DRAM and the slices go on; the ports release held requests, unless a WARM reset waits for the exit (R445). -/
def Acc.sleepEnd (a : Acc) : Acc :=
  let from_ := a.dev.pwr.exitFrom
  let a := a.upd (fun d =>
    let d := { d with pwr := { d.pwr with exiting := false, exitFrom := 0 } }.set fPWR_SLEEP_STS_STATE 0
    let d := if from_ = 3 then d.headsLost else d
    if 2 ≤ from_ then d.keysBack.trackAll.pairWake else d)
  if a.dev.pin.warm = 3 then a.upd Dev.warmStart else heads.foldl Acc.releaseRx a

/-- R396. -/
def execSleepExitDone : State → Result :=
  runAcc (fun a => a.when (a.dev.pwr.exiting && (a.dev.pwr.exitFrom == 1 || (a.dev.pin.mainUp && a.dev.domsUp))) Acc.sleepEnd)

end Sys2Proof.Machine
end

