-- ==== Sys2Proof/Machine/Telemetry.lean ====
section
/-! DEFINITION. Claims, monitor units and notice rings as software uses them (18_telemetry.md R418 to R437). -/

namespace Sys2Proof.Machine

/-! ### Claims (R418) -/

/-- The number of a writer as HOLDER names it. -/
def holderOf : Writer → Nat
  | .head h => h.toNat
  | .firmware => 32

/-- A write of HOLDER: a head takes a free claim for itself, or gives up its own; firmware writes what it likes. -/
def Dev.claimWrite (d : Dev) (by_ : Writer) (f : Fld) (v : Nat) : Dev :=
  match by_ with
  | .firmware => d.set f v
  | .head h =>
    if d.get f = 63 ∧ v = h.toNat then d.set f v
    else if d.get f = h.toNat ∧ v = 63 then d.set f v
    else d

/-- R418. -/
def execPmuClaimWrite (by_ : Writer) (u : Fin 44) (holder : BitVec 6) : State → Result :=
  run (fun d => d.writeBy by_ (rPMU_U_CLAIM u.val) (fun d => d.claimWrite by_ (fPMU_U_CLAIM_HOLDER u.val) holder.toNat))

/-- R418. -/
def execRingClaimWrite (by_ : Writer) (n : BitVec 3) (holder : BitVec 6) : State → Result :=
  run (fun d => d.writeBy by_ (rRING_CLAIM n.toNat) (fun d => d.claimWrite by_ (fRING_CLAIM_HOLDER n.toNat) holder.toNat))

/-! ### Counters (R422, R423) -/

/-- Counter k of unit u counts something (R421, R422). -/
def Dev.pmuUsed (d : Dev) (u k : Nat) : Bool :=
  d.pmuOn u && (d.get (fPMU_U_EVSEL_EVENT u k) != 0 || (k % 2 == 1 && d.bit (fPMU_U_CTL_CHAIN u) (k / 2)))

/-- R422: counter k wraps from its last value to 0. -/
def Dev.pmuWrap (d : Dev) (u k : Nat) : Dev := (d.set (fPMU_U_CNT_COUNT u k) (2 ^ 48 - 1)).pmuAdd u k 1

/-- R422. -/
def execCounterOverflow (u : Fin 44) (k : BitVec 3) : State → Result :=
  run (fun d => d.when (d.pmuUsed u.val k.toNat) (fun d => d.pmuWrap u.val k.toNat))

/-- R423: a unit's counters are copied to its shadows. -/
def Dev.pmuSnap (d : Dev) (u : Nat) : Dev :=
  let d := d.set (fPMU_U_SCYC_COUNT u) (d.get (fPMU_U_CYC_COUNT u))
  (List.range 8).foldl (fun (d : Dev) k => d.set (fPMU_U_SCNT_COUNT u k) (d.get (fPMU_U_CNT_COUNT u k))) d

/-- R423. -/
def execPmuUnitSnap (by_ : Writer) (u : Fin 44) : State → Result :=
  run (fun d => d.writeBy by_ (rPMU_U_CTL u.val) (fun d => d.pmuSnap u.val))

/-- R423: every powered unit. -/
def Dev.pmuSnapAll (d : Dev) : Dev := (List.range 44).foldl (fun (d : Dev) u => if d.bit fPMU_GSTS_ON u then d.pmuSnap u else d) d

/-- R423. -/
def execPmuGlobalSnap (by_ : Writer) : State → Result := run (fun d => d.writeBy by_ rPMU_GCTL Dev.pmuSnapAll)

/-! ### Reading a ring (R434) -/

/-- The word that a pop of an empty ring, or by one that does not hold the ring, returns. -/
def idleWord : Nat := 0x1D1E000000000000

/-- The word and the tag at RD. -/
def Dev.ringWord (d : Dev) (n : Nat) : Nat := d.get (fRING_DATAWIN_WORD n (d.get (fRING_PTR_RD n) % 8192))
def Dev.ringTagAt (d : Dev) (n : Nat) : Nat := d.get (fRING_TAGWIN_TAG n (d.get (fRING_PTR_RD n) % 8192))

/-- R434, R436: the writer may take words of the ring now. -/
def Dev.mayPop (d : Dev) (by_ : Writer) (n : Nat) : Bool :=
  d.get (fRING_CLAIM_HOLDER n) == holderOf by_ && !d.flag (fRING_CTL_XEN n) && d.ringOcc n != 0

/-- R434: a pop: the word at RD, which then advances. -/
def Dev.ringPop (d : Dev) (by_ : Writer) (n : Nat) : Dev :=
  if d.mayPop by_ n then
    let w := d.ringWord n
    ((d.bump (fRING_PTR_RD n) 1).ringFreed n).emit (.csrValue (holderOf by_) w)
  else d.emit (.csrValue (holderOf by_) idleWord)

/-- R434. -/
def execRingPop (by_ : Writer) (n : BitVec 3) : State → Result := run (fun d => d.when (!d.unheard by_) (fun d => d.ringPop by_ n.toNat))

/-- R434: a value that RD may take: WR, or a START entry, within [RD, WR]. -/
def Dev.rdOk (d : Dev) (n rd : Nat) : Bool :=
  decide ((rd + 16384 - d.get (fRING_PTR_RD n)) % 16384 ≤ d.ringOcc n) &&
  (rd == d.get (fRING_PTR_WR n) || d.get (fRING_TAGWIN_TAG n (rd % 8192)) % 2 == 1)

/-- R434, R436: RD is written: entries are released, or RDERR is set. -/
def Dev.rdWrite (d : Dev) (by_ : Writer) (n rd : Nat) : Dev :=
  if d.flag (fRING_CTL_XEN n) || (by_ != .firmware && d.get (fRING_CLAIM_HOLDER n) != holderOf by_) then d
  else if d.rdOk n rd then (d.set (fRING_PTR_RD n) rd).ringFreed n
  else d.setFlag (fRING_STS_RDERR n) true

/-- R434. -/
def execRingRdWrite (by_ : Writer) (n : BitVec 3) (rd : BitVec 14) : State → Result :=
  run (fun d => d.writeBy by_ (rRING_PTR n.toNat) (fun d => d.rdWrite by_ n.toNat rd.toNat))

/-! ### Export (R436) -/

/-- R436: the buffer of a ring may be written: a holding head, a length of 12 to 24 bits, and the checks of R297. -/
def Dev.exportOk (d : Dev) (n : Nat) : Bool :=
  let h := d.get (fRING_CLAIM_HOLDER n)
  let x := d.get (fRING_XCFG_XLOG n)
  let b := d.get (fRING_XBASE_DPA n)
  decide (h < 32) && decide (12 ≤ x) && decide (x ≤ 24) && b % 4096 == 0 && (d.jobRange h { lo := b, len := 2 ^ x, wr := true }).isNone &&
    !d.halted && !d.fatal

/-- A write of RING_n_CTL; XEN rising starts the export after its checks. -/
def Dev.ringCtl (d : Dev) (n v : Nat) : Dev :=
  let was := d.flag (fRING_CTL_XEN n)
  let d := ((d.set (fRING_CTL_CUT n) (v / 2)).set (fRING_CTL_LEVEL n) (v / 2 ^ 8)).set (fRING_CTL_VEC n) (v / 2 ^ 22)
  let d := d.setFlag (fRING_CTL_XEN n) (v % 2 == 1)
  if !was && v % 2 == 1 && !d.exportOk n then d.exportStop n else d

/-- R436. -/
def execRingExportEnable (by_ : Writer) (n : BitVec 3) (ctl : BitVec 32) : State → Result :=
  run (fun d => d.writeBy by_ (rRING_CTL n.toNat) (fun d => d.ringCtl n.toNat ctl.toNat))

/-- The words of the packet at RD. -/
def Dev.packetAt (d : Dev) (n : Nat) : List Nat :=
  let rd := d.get (fRING_PTR_RD n)
  (List.range (d.ringTagAt n / 16 % 64 + 1)).map (fun i => d.get (fRING_DATAWIN_WORD n ((rd + i) % 8192)))

/-- Bytes written from a place of the circular buffer: the part before its end, and the part that wraps. -/
def exportWrites (base size off : Nat) (bytes : List Nat) : List (Nat × LineData × BitVec 64) :=
  let k := size - off % size
  (if off % size = 0 ∧ bytes = [] then [] else lineWrites (base + off % size) (bytes.take k)) ++ lineWrites base (bytes.drop k)

/-- The export's writes, in order; true once all of them are accepted. -/
def Acc.exportLines (a : Acc) (n : Nat) : List (Nat × LineData × BitVec 64) → Bool × Acc
  | [] => (true, a)
  | x :: t =>
    match a.agentWrite (.export_ n) 8 ((a.dev.winOf (x.1 * 64)).getD 0) x.1 ⟨x.2.1, some x.2.2, false⟩ with
    | (.wait, b) => (false, b)
    | (_, b) => Acc.exportLines b n t

/-- R436: one packet is copied, behind a word with its tag; RD advances once its writes are accepted. -/
def Acc.exportPacket (a : Acc) (n : Nat) : Acc :=
  let d := a.dev
  if !d.exportOk n then a.upd (fun d => d.exportStop n)
  else if d.ringOcc n = 0 ∨ d.rangeMoves { lo := d.get (fRING_XBASE_DPA n), len := 1, wr := true } = true then a
  else
    let ws := d.packetAt n
    let bytes := (d.ringTagAt n :: ws).flatMap (toBytes 8)
    match a.exportLines n (exportWrites (d.get (fRING_XBASE_DPA n)) (2 ^ d.get (fRING_XCFG_XLOG n)) (d.get (fRING_XCNT_BYTES n)) bytes) with
    | (true, a) => a.upd (fun d => ((d.bump (fRING_XCNT_BYTES n) bytes.length).bump (fRING_PTR_RD n) ws.length).ringFreed n)
    | (false, a) => a

/-- R436. -/
def execRingExport (n : BitVec 3) : State → Result :=
  runAcc (fun a => a.when (a.dev.flag (fRING_CTL_XEN n.toNat)) (fun a => a.exportPacket n.toNat))

end Sys2Proof.Machine
end

