-- ==== Sys2Proof/Machine/Access.lean ====
section
/-! DEFINITION. Register accesses by heads and by command (00_scope.md R6 to R9, 01_architecture.md R28 to R30, 13_commands.md R338,
R456) and the patrol of complement pairs (15_faults.md R378). -/

namespace Sys2Proof.Machine

/-! ### What a write does, by register -/

/-- The value that a write of v under a mask gives a whole register, before its fields' types apply. -/
def Dev.merged (d : Dev) (a : RegAt) (v mask : Nat) : Nat :=
  let o := d.rd a.key
  (v &&& mask) ||| (o - (o &&& mask))

/-- A write of JDB_CTL (R280, R305): EN written 1 to a disabled queue enables it after its checks; RESUME acts on a halted queue; EN
written 0 drains it. -/
def Dev.jdbCtl (d : Dev) (a : RegAt) (v : Nat) : Dev :=
  if d.get (fJDB_STS_STATE a.i a.j) = qDisabled then
    if v % 2 = 1 then d.queueEnable a.i a.j v else d.regWrite a v 0xfffffffc
  else
    let d := if v / 2 % 2 = 1 then d.queueResume a.i a.j else d
    if v % 2 = 0 then d.queueDisable a.i a.j else d

/-- WIN_GEOM before the lock: ROWB and AWIDTH follow from what is written. -/
def Dev.geomWrite (d : Dev) (a : RegAt) (v mask : Nat) : Dev :=
  let d := d.regWrite a v mask
  let rowb := if d.get fWIN_GEOM_DENSITY = 1 then 17 else 16
  (d.set fWIN_GEOM_ROWB rowb).set fWIN_GEOM_AWIDTH (19 + d.get fWIN_GEOM_RANKB + d.get fWIN_GEOM_DIMMB + rowb)

/-- PAIR_CTL: EN acts on the link (Table 9.6); the other fields are held. -/
def Dev.pairCtl (d : Dev) (a : RegAt) (v mask : Nat) : Dev :=
  let d := d.regWrite a v (mask - mask % 2)
  if mask % 2 = 1 then d.pairEn (v % 2 == 1) else d

/-- The effect of a write that is allowed, on the bits that mask selects: what the register's own rule says, else what its fields'
types say (R8). -/
def Dev.regAct (d : Dev) (by_ : Writer) (a : RegAt) (v mask : Nat) : Dev :=
  let b := a.r.base
  let x := v &&& mask
  if b = 0x500000 then (if x % 2 = 1 then d.mapLock else d)
  else if b = 0x500010 then d.geomWrite a v mask
  else if b = 0xd00000 then d.pairCtl a v mask
  else if b = 0x800030 then (if x / 2 ^ 27 % 2 = 1 then (d.regWrite a v mask).retrainAll a.i else d.regWrite a v mask)
  else if b = 0x808200 then (d.regWrite a v mask).scrubRate
  else if b = 0x102038 then (if x / 2 % 2 = 1 then d.ackRec a.i else d)
  else if b = 0x200010 then { d.regWrite a v mask with pwr := { d.pwr with timerWake := false } }
  else if b = 0x1000000 then (if x / 2 % 2 = 1 then (d.regWrite a v mask).pmuSnapAll else d.regWrite a v mask)
  else if b = 0x1001000 then d.claimWrite by_ (fPMU_U_CLAIM_HOLDER a.i) (d.merged a v mask % 64)
  else if b = 0x1001004 then (if x / 2 % 2 = 1 then (d.regWrite a v mask).pmuSnap a.i else d.regWrite a v mask)
  else if b = 0x1100100 then d.claimWrite by_ (fRING_CLAIM_HOLDER a.i) (d.merged a v mask % 64)
  else if b = 0x1100104 then d.ringCtl a.i (d.merged a v mask)
  else if b = 0x1100108 then d.rdWrite by_ a.i (d.merged a v mask / 2 ^ 16 % 16384)
  else if b = 0x2000000 then d.tailWrite a.i a.j v
  else if b = 0x2000008 then d.cqheadWrite a.i a.j v
  else if b = 0x2000010 then d.jdbCtl a v
  else d.regWrite a v mask

/-! ### Accesses by a head -/

/-- The place within a register, in bits, of the word at an offset. -/
def wordShift (a : RegAt) (off : Nat) : Nat := 8 * (off - a.key)

/-- R6, R28 to R30, R418: a head's write of a register. -/
def Dev.headWrite (d : Dev) (h off size v : Nat) (by_ : Writer) : Dev :=
  if d.cfgOnly h then d
  else match accessOk off size with
  | none => d.accessFault h off
  | some a =>
    let m := d.mayWrite h a
    if !m.1 then m.2.accessFault h off
    else if m.2.unitOff a.key then m.2
    else
      let s := wordShift a off
      m.2.regAct by_ a (v % 2 ^ (8 * size) <<< s) ((2 ^ (8 * size) - 1) <<< s)

/-- R6. -/
def execRegisterWrite (h : Head) (off : BitVec 26) (size : Nat) (value : BitVec 64) : State → Result :=
  run (fun d => d.headWrite h.toNat off.toNat size value.toNat (.head h))

/-- R6, R28, R29: a read by head h breaks the rules of access. -/
def readIllegal (h off size : Nat) : Bool :=
  match accessOk off size with
  | none => true
  | some a => 0x2000000 ≤ a.key && (a.key - 0x2000000) / 0x100000 != h

/-- R6: a read that breaks the rules returns 0 and is recorded. A legal read is no such event (log entry 6). -/
def execIllegalCsrRead (h : Head) (off : BitVec 26) (size : Nat) : State → Result :=
  run (fun d => d.when (!d.cfgOnly h.toNat && readIllegal h.toNat off.toNat size) (fun d => (d.accessFault h.toNat off.toNat).emit (.csrValue h.toNat 0)))

/-! ### The patrol of complement pairs (R9, R378) -/

/-- One pair is checked; a mismatch is recorded from the complement source (Table 15.10). -/
def Dev.patrolPair (d : Dev) (k kc : Nat) : Dev :=
  let u := d.pairUse k kc
  if u.1 then u.2 else u.2.pairFail k kc

/-- Every pair, in offset order. -/
def Dev.patrol (d : Dev) : Dev :=
  pairMap.foldl (fun (d : Dev) (p : PairD) =>
    (List.range p.n).foldl (fun (d : Dev) i => d.patrolPair (p.reg + i * p.s) (p.regC + i * p.s)) d) d

/-- R378, Table 15.7. -/
def execComplementPatrol : State → Result := run Dev.patrol

/-! ### DEV_REG_WRITE (R338) -/

/-- The blocks that DEV_REG_WRITE writes: HOME, MCH, SEC, CDC, QOS, PAIR, PMU and RING, less MCH_PTGTp. -/
def devWritable (k : Nat) : Bool :=
  ((0x600000 ≤ k && k < 0x980000) || (0xa00000 ≤ k && k < 0xe00000) || (0x1000000 ≤ k && k < 0x1200000)) &&
  !(0x808000 ≤ k && k < 0x808080)

/-- The bits of a register that DEV_REG_WRITE may select. -/
def RegAt.cmdBits (a : RegAt) : Nat :=
  if devWritable a.key then
    a.r.fields.foldl (fun m f => if f.ty == .rw || f.ty == .rw1c || f.ty == .rw1s || f.ty == .wo then m ||| ((2 ^ f.w - 1) <<< f.lo) else m) 0
  else 0

end Sys2Proof.Machine

namespace Sys2Proof

open Machine in
/-- Entry i of the payload. -/
def Pkt.regEntry (c : Pkt) (i : Nat) : Nat × Nat × Nat := (c.at_ (12 * i) 4, c.at_ (12 * i + 4) 4, c.at_ (12 * i + 8) 4)

open Machine in
/-- The refusal of entry i, if any; DETAIL is the offset of the entry. -/
def Pkt.regEntryBad (c : Pkt) (i : Nat) : Option (Nat × Nat) :=
  let e := c.regEntry i
  match accessOk e.1 4 with
  | none => some (stInvalidField, 16 + 12 * i)
  | some a => if a.r.width ≠ 32 then some (stInvalidField, 16 + 12 * i)
    else if e.2.2 &&& a.cmdBits ≠ e.2.2 then some (stNotPermitted, 16 + 12 * i) else none

end Sys2Proof

namespace Sys2Proof.Machine

/-- R336: the image of a register that was written enters the record: its fields of type RW. -/
def Dev.cfgSettings (d : Dev) (a : RegAt) : Dev :=
  let m := rwMask a.r
  if m = 0 ∨ cfgCount a.key = true then d
  else { d with flash := { d.flash with cfg := { d.flash.cfg with regs := tins d.flash.cfg.regs a.key (d.regImage a.key &&& m) } } }

/-- One entry is written by firmware. -/
def Dev.regEntryWrite (d : Dev) (e : Nat × Nat × Nat) : Dev :=
  match regAt e.1 with
  | some a => if d.unitOff a.key then d else (d.regAct .firmware a e.2.1 e.2.2).cfgSettings a
  | none => d

/-- R338. -/
def execDevRegWrite (c : Pkt) : State → Result :=
  run (fun d => d.command rowRegWrite c (fun _ => (List.range (c.plen.toNat / 12)).findSome? c.regEntryBad)
    (fun _ d => (.done [] 0, (List.range (c.plen.toNat / 12)).foldl (fun (d : Dev) i => d.regEntryWrite (c.regEntry i)) d)))

/-! ### DEV_REG_READ (R456) -/

/-- A register as firmware reads it, without the side effects of a read; what depends on the ordering code follows the part (R3). -/
def Dev.regRead (d : Dev) (a : RegAt) : Nat :=
  let b := a.r.base
  if b = 4 then 0xb1 + 256 * d.ab.toNat
  else if b = 0xe00000 then d.rd a.key &&& d.present
  else if b = 0xe00004 then d.present
  else if b = 0xe00100 && !d.present.testBit a.i then 3
  else if d.unitOff a.key then 0
  else if b = 0x1100118 then (if d.ringOcc a.i = 0 then idleWord else d.ringWord a.i)
  else if b = 0x1100120 then (if d.ringOcc a.i = 0 then 0 else d.ringTagAt a.i)
  else d.rd a.key

/-- The 16 bits at an even offset; 0 where nothing is defined. -/
def Dev.halfRead (d : Dev) (off : Nat) : Nat :=
  match regAt off with
  | some a => d.regRead a / 2 ^ wordShift a off % 65536
  | none => 0

/-- The 32-bit word at an offset. -/
def Dev.wordRead (d : Dev) (off : Nat) : Nat := d.halfRead off + 65536 * d.halfRead (off + 2)

/-- R456. -/
def execDevRegRead (c : Pkt) : State → Result :=
  run (fun d => d.command rowRegRead c
    (fun _ => let o := c.at_ 0 4
      let n := c.at_ 4 2
      firstBad [(o % 4 != 0, stInvalidField, 16), (n == 0 || 256 < n, stInvalidField, 20), (2 ^ 26 < o + 4 * n, stInvalidField, 16)])
    (fun _ d => (.done ((List.range (c.at_ 4 2)).flatMap (fun i => leOf 4 (d.wordRead (c.at_ 0 4 + 4 * i)))) 0, d)))

end Sys2Proof.Machine
end

