-- ==== Sys2Proof/Machine/Dispatch.lean ====
section
/-! DEFINITION. What each command does: one arm per command of the table, one meaning per arm. -/

namespace Sys2Proof.Machine

/-- The effect of a command on everything but the queue. -/
def exec (i : Instr) (s : State) : Host.Outcome State Fault Refusal :=
  match i with
  | .registerWrite h off size value => Sys2Proof.Machine.execRegisterWrite h off size value s
  | .illegalCsrRead h off size => Sys2Proof.Machine.execIllegalCsrRead h off size s
  | .complementPatrol => Sys2Proof.Machine.execComplementPatrol s
  | .memRd q m => Sys2Proof.Machine.execMemRd q m s
  | .memRdData q => Sys2Proof.Machine.execMemRdData q s
  | .memInv q m => Sys2Proof.Machine.execMemInv q m s
  | .memInvNT q => Sys2Proof.Machine.execMemInvNT q s
  | .memClnEvct q => Sys2Proof.Machine.execMemClnEvct q s
  | .memWr q m data poison => Sys2Proof.Machine.execMemWr q m data poison s
  | .memWrPtl q m data mask poison => Sys2Proof.Machine.execMemWrPtl q m data mask poison s
  | .heldRequestRelease slice => Sys2Proof.Machine.execHeldRequestRelease slice s
  | .waitListTakeUp line => Sys2Proof.Machine.execWaitListTakeUp line s
  | .birsp h hpa r => Sys2Proof.Machine.execBirsp h hpa r s
  | .biConflict h hpa => Sys2Proof.Machine.execBiConflict h hpa s
  | .snoopTimeout h line => Sys2Proof.Machine.execSnoopTimeout h line s
  | .retryQueueRetry slice set => Sys2Proof.Machine.execRetryQueueRetry slice set s
  | .victimWriteDone slice line => Sys2Proof.Machine.execVictimWriteDone slice line s
  | .viral h => Sys2Proof.Machine.execViral h s
  | .configurationRequest p write at_ value => Sys2Proof.Machine.execConfigurationRequest p write at_ value s
  | .memEnable p on => Sys2Proof.Machine.execMemEnable p on s
  | .headRestored p => Sys2Proof.Machine.execHeadRestored p s
  | .decoderCommit p n img => Sys2Proof.Machine.execDecoderCommit p n img s
  | .decoderUncommit p n => Sys2Proof.Machine.execDecoderUncommit p n s
  | .headReset p perst => Sys2Proof.Machine.execHeadReset p perst s
  | .reclaimSweepStep => Sys2Proof.Machine.execReclaimSweepStep s
  | .headPerstDeassert p => Sys2Proof.Machine.execHeadPerstDeassert p s
  | .linkUp p t => Sys2Proof.Machine.execLinkUp p t s
  | .equalizationFailure p => Sys2Proof.Machine.execEqualizationFailure p s
  | .replayRateRetrain p replays => Sys2Proof.Machine.execReplayRateRetrain p replays s
  | .macCheckFailure p => Sys2Proof.Machine.execMacCheckFailure p s
  | .ideKm p session go => Sys2Proof.Machine.execIdeKm p session go s
  | .devloadInterval loads => Sys2Proof.Machine.execDevloadInterval loads s
  | .capabilityRise => Sys2Proof.Machine.execCapabilityRise s
  | .compatWindow p => Sys2Proof.Machine.execCompatWindow p s
  | .addCapacity h w exts => Sys2Proof.Machine.execAddCapacity h w exts s
  | .addDynamicCapacityResponse h exts => Sys2Proof.Machine.execAddDynamicCapacityResponse h exts s
  | .offerTimeout h ext => Sys2Proof.Machine.execOfferTimeout h ext s
  | .releaseDynamicCapacity h exts => Sys2Proof.Machine.execReleaseDynamicCapacity h exts s
  | .winCreate c => Sys2Proof.Machine.execWinCreate c s
  | .winModify c => Sys2Proof.Machine.execWinModify c s
  | .winRemove c => Sys2Proof.Machine.execWinRemove c s
  | .windowTableApply w => Sys2Proof.Machine.execWindowTableApply w s
  | .zeroFillDone w => Sys2Proof.Machine.execZeroFillDone w s
  | .mapLockWrite by_ => Sys2Proof.Machine.execMapLockWrite by_ s
  | .populationSettle spd => Sys2Proof.Machine.execPopulationSettle spd s
  | .trainingComplete => Sys2Proof.Machine.execTrainingComplete s
  | .commandSlotPick ch sub legal => Sys2Proof.Machine.execCommandSlotPick ch sub legal s
  | .urgencyRise ch sub id age => Sys2Proof.Machine.execUrgencyRise ch sub id age s
  | .ageCapExpiry ch sub id => Sys2Proof.Machine.execAgeCapExpiry ch sub id s
  | .refreshInterval ch rank => Sys2Proof.Machine.execRefreshInterval ch rank s
  | .mr4Read ch rank code => Sys2Proof.Machine.execMr4Read ch rank code s
  | .zqCalibration ch rank => Sys2Proof.Machine.execZqCalibration ch rank s
  | .dqsOscillatorTracking ch rank => Sys2Proof.Machine.execDqsOscillatorTracking ch rank s
  | .temperatureDriftRetrain ch rank celsius => Sys2Proof.Machine.execTemperatureDriftRetrain ch rank celsius s
  | .retrainNow by_ ch => Sys2Proof.Machine.execRetrainNow by_ ch s
  | .rankRetrainDone ch rank => Sys2Proof.Machine.execRankRetrainDone ch rank s
  | .dramReadData ch sub id err => Sys2Proof.Machine.execDramReadData ch sub id err s
  | .initializationComplete => Sys2Proof.Machine.execInitializationComplete s
  | .scrubStep => Sys2Proof.Machine.execScrubStep s
  | .frameRetire c => Sys2Proof.Machine.execFrameRetire c s
  | .retireCopyDone => Sys2Proof.Machine.execRetireCopyDone s
  | .bankRetire c => Sys2Proof.Machine.execBankRetire c s
  | .pprSoft c => Sys2Proof.Machine.execPprSoft c s
  | .pprSoftReadDone ch => Sys2Proof.Machine.execPprSoftReadDone ch s
  | .pprSoftWriteback ch => Sys2Proof.Machine.execPprSoftWriteback ch s
  | .pprHard c => Sys2Proof.Machine.execPprHard c s
  | .krCreate c => Sys2Proof.Machine.execKrCreate c s
  | .krRemove c => Sys2Proof.Machine.execKrRemove c s
  | .keyLoad c => Sys2Proof.Machine.execKeyLoad c s
  | .counterTreeInitDone n => Sys2Proof.Machine.execCounterTreeInitDone n s
  | .keyRotate c => Sys2Proof.Machine.execKeyRotate c s
  | .rotationStep n => Sys2Proof.Machine.execRotationStep n s
  | .secHalt c => Sys2Proof.Machine.execSecHalt c s
  | .minorOverflowReencrypt => Sys2Proof.Machine.execMinorOverflowReencrypt s
  | .treeRebuildStep n => Sys2Proof.Machine.execTreeRebuildStep n s
  | .keySlotLost n next => Sys2Proof.Machine.execKeySlotLost n next s
  | .subBlockDecodeDone x f => Sys2Proof.Machine.execSubBlockDecodeDone x f s
  | .pageReencode bank => Sys2Proof.Machine.execPageReencode bank s
  | .promote page => Sys2Proof.Machine.execPromote page s
  | .demote page => Sys2Proof.Machine.execDemote page s
  | .compact page => Sys2Proof.Machine.execCompact page s
  | .scannerVisit page => Sys2Proof.Machine.execScannerVisit page s
  | .reserveReturn page => Sys2Proof.Machine.execReserveReturn page s
  | .discardSweeperDrop page => Sys2Proof.Machine.execDiscardSweeperDrop page s
  | .orphanSweep => Sys2Proof.Machine.execOrphanSweep s
  | .poolCounterRebuild => Sys2Proof.Machine.execPoolCounterRebuild s
  | .capLayout c => Sys2Proof.Machine.execCapLayout c s
  | .capThresholds c => Sys2Proof.Machine.execCapThresholds c s
  | .capWindowPolicy c => Sys2Proof.Machine.execCapWindowPolicy c s
  | .capTierLimits c => Sys2Proof.Machine.execCapTierLimits c s
  | .capDcRegion c => Sys2Proof.Machine.execCapDcRegion c s
  | .frameSlotSend => Sys2Proof.Machine.execFrameSlotSend s
  | .pairFrameReceive f => Sys2Proof.Machine.execPairFrameReceive f s
  | .replayTimerExpiry => Sys2Proof.Machine.execReplayTimerExpiry s
  | .keyUpdate rx => Sys2Proof.Machine.execKeyUpdate rx s
  | .lockLoss => Sys2Proof.Machine.execLockLoss s
  | .creditTimeout vc => Sys2Proof.Machine.execCreditTimeout vc s
  | .pairPresentHigh => Sys2Proof.Machine.execPairPresentHigh s
  | .retryTimerExpiry => Sys2Proof.Machine.execRetryTimerExpiry s
  | .pairTrainingDone tx rx slow => Sys2Proof.Machine.execPairTrainingDone tx rx slow s
  | .trainTimeout => Sys2Proof.Machine.execTrainTimeout s
  | .setupTimeout => Sys2Proof.Machine.execSetupTimeout s
  | .spdm hs peerKey => Sys2Proof.Machine.execSpdm hs peerKey s
  | .pairLinkSet c => Sys2Proof.Machine.execPairLinkSet c s
  | .pauseReq => Sys2Proof.Machine.execPauseReq s
  | .pauseAck => Sys2Proof.Machine.execPauseAck s
  | .pairRetrainDone tx rx => Sys2Proof.Machine.execPairRetrainDone tx rx s
  | .pauseTimeout => Sys2Proof.Machine.execPauseTimeout s
  | .laneFailure lane => Sys2Proof.Machine.execLaneFailure lane s
  | .laneDrop => Sys2Proof.Machine.execLaneDrop s
  | .restripeSlot => Sys2Proof.Machine.execRestripeSlot s
  | .sleepReq => Sys2Proof.Machine.execSleepReq s
  | .sleepAck => Sys2Proof.Machine.execSleepAck s
  | .pairHalt => Sys2Proof.Machine.execPairHalt s
  | .wakePatternDetect => Sys2Proof.Machine.execWakePatternDetect s
  | .wakePatternEnd => Sys2Proof.Machine.execWakePatternEnd s
  | .pairCtlEn by_ en => Sys2Proof.Machine.execPairCtlEn by_ en s
  | .mirPair c => Sys2Proof.Machine.execMirPair c s
  | .mirTarget c => Sys2Proof.Machine.execMirTarget c s
  | .mirUntarget c => Sys2Proof.Machine.execMirUntarget c s
  | .mirResume c => Sys2Proof.Machine.execMirResume c s
  | .mirPromote c => Sys2Proof.Machine.execMirPromote c s
  | .mirBitmapArea c => Sys2Proof.Machine.execMirBitmapArea c s
  | .mirShadowRead c => Sys2Proof.Machine.execMirShadowRead c s
  | .mirrorQueueEntry => Sys2Proof.Machine.execMirrorQueueEntry s
  | .mwr => Sys2Proof.Machine.execMwr s
  | .mwrp => Sys2Proof.Machine.execMwrp s
  | .mpoi => Sys2Proof.Machine.execMpoi s
  | .mirrorApply => Sys2Proof.Machine.execMirrorApply s
  | .mack => Sys2Proof.Machine.execMack s
  | .mfail => Sys2Proof.Machine.execMfail s
  | .srec => Sys2Proof.Machine.execSrec s
  | .sack => Sys2Proof.Machine.execSack s
  | .mstate => Sys2Proof.Machine.execMstate s
  | .granuleCopy w => Sys2Proof.Machine.execGranuleCopy w s
  | .pairMirFenceRead h w => Sys2Proof.Machine.execPairMirFenceRead h w s
  | .fenceTimeout w => Sys2Proof.Machine.execFenceTimeout w s
  | .rtrd => Sys2Proof.Machine.execRtrd s
  | .rtdata => Sys2Proof.Machine.execRtdata s
  | .slotRebuildStep => Sys2Proof.Machine.execSlotRebuildStep s
  | .beat m => Sys2Proof.Machine.execBeat m s
  | .sidebandHalt m => Sys2Proof.Machine.execSidebandHalt m s
  | .sbClaim m => Sys2Proof.Machine.execSbClaim m s
  | .sbYield m => Sys2Proof.Machine.execSbYield m s
  | .sbRefuse m => Sys2Proof.Machine.execSbRefuse m s
  | .claimTimeout => Sys2Proof.Machine.execClaimTimeout s
  | .sidebandDead => Sys2Proof.Machine.execSidebandDead s
  | .jdbTailWrite h q count => Sys2Proof.Machine.execJdbTailWrite h q count s
  | .jdbCqheadWrite h q count => Sys2Proof.Machine.execJdbCqheadWrite h q count s
  | .queueEnable h q ctl => Sys2Proof.Machine.execQueueEnable h q ctl s
  | .queueDisable h q => Sys2Proof.Machine.execQueueDisable h q s
  | .queueResume h q => Sys2Proof.Machine.execQueueResume h q s
  | .descriptorFetch h q => Sys2Proof.Machine.execDescriptorFetch h q s
  | .descriptorFetched h q => Sys2Proof.Machine.execDescriptorFetched h q s
  | .jobDispatch slice => Sys2Proof.Machine.execJobDispatch slice s
  | .jobEnd slice time10ns => Sys2Proof.Machine.execJobEnd slice time10ns s
  | .completionRecordWrite h q => Sys2Proof.Machine.execCompletionRecordWrite h q s
  | .jobSliceEn c => Sys2Proof.Machine.execJobSliceEn c s
  | .jobQueueClass c => Sys2Proof.Machine.execJobQueueClass c s
  | .qosClassmapSet c => Sys2Proof.Machine.execQosClassmapSet c s
  | .qosClassSet c => Sys2Proof.Machine.execQosClassSet c s
  | .qosPortSet c => Sys2Proof.Machine.execQosPortSet c s
  | .backgroundCommandComplete k => Sys2Proof.Machine.execBackgroundCommandComplete k s
  | .slotEnable c => Sys2Proof.Machine.execSlotEnable c s
  | .slotDisable c => Sys2Proof.Machine.execSlotDisable c s
  | .slotLimits c => Sys2Proof.Machine.execSlotLimits c s
  | .rankRetrain c => Sys2Proof.Machine.execRankRetrain c s
  | .thmThreshSet c => Sys2Proof.Machine.execThmThreshSet c s
  | .pwrLimits c => Sys2Proof.Machine.execPwrLimits c s
  | .pwrSleep c => Sys2Proof.Machine.execPwrSleep c s
  | .fltReactSet c => Sys2Proof.Machine.execFltReactSet c s
  | .fltGlobalSet c => Sys2Proof.Machine.execFltGlobalSet c s
  | .fltClear c => Sys2Proof.Machine.execFltClear c s
  | .fltInjectUnlock c => Sys2Proof.Machine.execFltInjectUnlock c s
  | .fltInject c => Sys2Proof.Machine.execFltInject c s
  | .basicExit c => Sys2Proof.Machine.execBasicExit c s
  | .logRead c => Sys2Proof.Machine.execLogRead c s
  | .fwTransfer c => Sys2Proof.Machine.execFwTransfer c s
  | .fwActivate c => Sys2Proof.Machine.execFwActivate c s
  | .fwInfo c => Sys2Proof.Machine.execFwInfo c s
  | .devRegWrite c => Sys2Proof.Machine.execDevRegWrite c s
  | .devRegRead c => Sys2Proof.Machine.execDevRegRead c s
  | .mgtCsrGrant c => Sys2Proof.Machine.execMgtCsrGrant c s
  | .mgtCmdGrant c => Sys2Proof.Machine.execMgtCmdGrant c s
  | .linkConfig c => Sys2Proof.Machine.execLinkConfig c s
  | .tcmCorrectableError => Sys2Proof.Machine.execTcmCorrectableError s
  | .instructionFetchError page readOk outside => Sys2Proof.Machine.execInstructionFetchError page readOk outside s
  | .dataTcmError => Sys2Proof.Machine.execDataTcmError s
  | .watchdogExpiry => Sys2Proof.Machine.execWatchdogExpiry s
  | .managementRestartDone => Sys2Proof.Machine.execManagementRestartDone s
  | .activationRestart => Sys2Proof.Machine.execActivationRestart s
  | .bootConfirmTimeout => Sys2Proof.Machine.execBootConfirmTimeout s
  | .mgmtResetRelease => Sys2Proof.Machine.execMgmtResetRelease s
  | .firmwareEntry => Sys2Proof.Machine.execFirmwareEntry s
  | .bootComplete => Sys2Proof.Machine.execBootComplete s
  | .spdmRequest r => Sys2Proof.Machine.execSpdmRequest r s
  | .spdmHeartbeatTimeout session => Sys2Proof.Machine.execSpdmHeartbeatTimeout session s
  | .faultRecordTakeUp k => Sys2Proof.Machine.execFaultRecordTakeUp k s
  | .fltAck by_ k => Sys2Proof.Machine.execFltAck by_ k s
  | .escalationTimerExpiry k => Sys2Proof.Machine.execEscalationTimerExpiry k s
  | .basicWriteoutDone => Sys2Proof.Machine.execBasicWriteoutDone s
  | .channelProbe ch sub failed => Sys2Proof.Machine.execChannelProbe ch sub failed s
  | .caParityError ch failures => Sys2Proof.Machine.execCaParityError ch failures s
  | .clockMonitorFailure dom => Sys2Proof.Machine.execClockMonitorFailure dom s
  | .injectionUnlockExpiry => Sys2Proof.Machine.execInjectionUnlockExpiry s
  | .vfSequencerStep => Sys2Proof.Machine.execVfSequencerStep s
  | .sleepRequestLapse => Sys2Proof.Machine.execSleepRequestLapse s
  | .sleepEntryFlushDone => Sys2Proof.Machine.execSleepEntryFlushDone s
  | .wakeEvent src => Sys2Proof.Machine.execWakeEvent src s
  | .domainPowerUpDone dom => Sys2Proof.Machine.execDomainPowerUpDone dom s
  | .sleepExitDone => Sys2Proof.Machine.execSleepExitDone s
  | .pwrTimerExpiry => Sys2Proof.Machine.execPwrTimerExpiry s
  | .sensorSample quarters => Sys2Proof.Machine.execSensorSample quarters s
  | .graceExpiry => Sys2Proof.Machine.execGraceExpiry s
  | .thermalStepDown => Sys2Proof.Machine.execThermalStepDown s
  | .thermalStepUp => Sys2Proof.Machine.execThermalStepUp s
  | .presencePoll present => Sys2Proof.Machine.execPresencePoll present s
  | .gateRiseCheck sl ok => Sys2Proof.Machine.execGateRiseCheck sl ok s
  | .rampVoutReached sl => Sys2Proof.Machine.execRampVoutReached sl s
  | .fullGateOn sl => Sys2Proof.Machine.execFullGateOn sl s
  | .rampTimeout sl => Sys2Proof.Machine.execRampTimeout sl s
  | .fastTrip sl => Sys2Proof.Machine.execFastTrip sl s
  | .breakerTrip sl => Sys2Proof.Machine.execBreakerTrip sl s
  | .fetModelUpdate sl current vout thermistor => Sys2Proof.Machine.execFetModelUpdate sl current vout thermistor s
  | .fetShort sl => Sys2Proof.Machine.execFetShort sl s
  | .gateFallStart sl => Sys2Proof.Machine.execGateFallStart sl s
  | .slotOffComplete sl => Sys2Proof.Machine.execSlotOffComplete sl s
  | .slotTrainingComplete sl spd => Sys2Proof.Machine.execSlotTrainingComplete sl spd s
  | .slotInitializationDone sl => Sys2Proof.Machine.execSlotInitializationDone sl s
  | .pmuClaimWrite by_ u holder => Sys2Proof.Machine.execPmuClaimWrite by_ u holder s
  | .ringClaimWrite by_ n holder => Sys2Proof.Machine.execRingClaimWrite by_ n holder s
  | .counterOverflow u k => Sys2Proof.Machine.execCounterOverflow u k s
  | .pmuUnitSnap by_ u => Sys2Proof.Machine.execPmuUnitSnap by_ u s
  | .pmuGlobalSnap by_ => Sys2Proof.Machine.execPmuGlobalSnap by_ s
  | .ringPop by_ n => Sys2Proof.Machine.execRingPop by_ n s
  | .ringRdWrite by_ n rd => Sys2Proof.Machine.execRingRdWrite by_ n rd s
  | .ringExportEnable by_ n ctl => Sys2Proof.Machine.execRingExportEnable by_ n ctl s
  | .ringExport n => Sys2Proof.Machine.execRingExport n s
  | .coldReset => Sys2Proof.Machine.execColdReset s
  | .sysRstRelease => Sys2Proof.Machine.execSysRstRelease s
  | .pwrMainEnRise => Sys2Proof.Machine.execPwrMainEnRise s
  | .mainPwrgdRise => Sys2Proof.Machine.execMainPwrgdRise s
  | .mainDomainRelease => Sys2Proof.Machine.execMainDomainRelease s
  | .mainPwrgdFall => Sys2Proof.Machine.execMainPwrgdFall s
  | .warmReset => Sys2Proof.Machine.execWarmReset s
  | .warmResetFlushDone => Sys2Proof.Machine.execWarmResetFlushDone s
  | .warmResetRelease => Sys2Proof.Machine.execWarmResetRelease s
  | .unknownOpcode c opcode opcodeC mailboxOpcode => Sys2Proof.Machine.execUnknownOpcode c opcode opcodeC mailboxOpcode s
  | .firmwareDecision d => Sys2Proof.Machine.execFirmwareDecision d s
  | .aonPowerOn => Sys2Proof.Machine.execAonPowerOn s
  | .aonPowerLoss => Sys2Proof.Machine.execAonPowerLoss s
  | .pairPresentLow => Sys2Proof.Machine.execPairPresentLow s
  | .linkL1Entry p => Sys2Proof.Machine.execLinkL1Entry p s
  | .domainPowerDownDone dom => Sys2Proof.Machine.execDomainPowerDownDone dom s

end Sys2Proof.Machine
end

