-- ==== Sys2Proof/Machine/Tick.lean ====
section
/-! DEFINITION. What passes while no command waits: one tick of 40 ns of device time, one period of the 25 MHz crystal (log entry 8):
the cycle counts of the monitor units and the events of each cycle (18_telemetry.md R420, R421, R424, R426), the cycles of full retry
queues (04_coherence.md R104), the management timer (16_power_thermal.md), the sideband's beat (10_mirroring.md R271); and the packet that
management firmware takes up from its queue (13_commands.md R333). -/

namespace Sys2Proof.Machine

/-- CORE cycles in one tick (Table 16.2); the clock stands still in a sleep state. -/
def Dev.coreCycles (d : Dev) : Nat := if d.get fPWR_SLEEP_STS_STATE = 0 then [84, 64, 40, 20].getD (d.get fPWR_PSTS_CUR) 84 else 0

/-- Cycles of lane block b in one tick: 1.0 GHz at 128 GT/s, in proportion to the rate, at least 250 MHz (Table 1.6). -/
def Dev.laneCycles (d : Dev) (b : Nat) : Nat :=
  let r := ((List.range 4).map (fun p => if (d.portOf (4 * b + p)).up then d.get (fPDV_PORT_STS_RATE (4 * b + p)) else 0)).foldl max 0
  if r = 6 then 40 else if r = 5 then 20 else 10

/-- Cycles of the clock of unit u in one tick (Tables 1.6, 18.1). -/
def Dev.unitCycles (d : Dev) (u : Nat) : Nat :=
  if d.get fPWR_SLEEP_STS_STATE ≠ 0 then 0
  else if u < 8 then d.laneCycles u
  else if 24 ≤ u ∧ u < 30 then d.get (fMCH_CFG_RATE (4 * (u - 24))) / 2
  else if (30 ≤ u ∧ u < 36) ∨ u = 42 then 64
  else if u = 41 then (d.now + 40) * 85 / 64 - d.now * 85 / 64
  else d.coreCycles

/-! ### The events of a cycle (Table 18.2) -/

/-- A lane block: what the escapement holds, and its floor (R312). -/
def Dev.laneEvents (d : Dev) (b n : Nat) : Dev :=
  let d := (List.range 4).foldl (fun d x => d.pmu b 0x12 x 8 ((d.heldOf (4 * b + x)).length * n)) d
  d.pmuCyc b 0x13 ((List.range 4).filter (fun x => d.flag (fQOS_PORT_STS_FLOOR (4 * b + x)))) n

/-- R426: the slots that a home slice has left in n cycles: back-starved where a request waits in the crossbar's queue for the slice, and of
these the ones for want of a transaction slot; front-starved where none waits. -/
def Dev.sliceEvents (d : Dev) (sl n : Nat) : Dev :=
  let free := 4 * n - tget (fun _ => 0) d.home.taken sl
  match d.home.xbar.find? (fun q => lineSlice (q.dpa / 64) == sl) with
  | none => d.pmu (8 + sl) 0x22 0 8 free
  | some q =>
    let d := d.pmu (8 + sl) 0x23 0 8 free
    if (d.slotOf q).isNone then d.pmu (8 + sl) 0x24 0 8 free else d

/-- The slots of a tick are over: what the slices took up beyond them stands for the next tick. -/
def Dev.slotsOver (d : Dev) : Dev :=
  { d with home := { d.home with taken := (d.home.taken.map (fun e => (e.1, e.2 - 4 * d.coreCycles))).filter (fun e => e.2 != 0) } }

/-- A channel group: write drain (R118) and the occupancy of the read queues (R116). -/
def Dev.groupEvents (d : Dev) (g n : Nat) : Dev :=
  let d := d.pmuCyc (24 + g) 0x36 ((List.range 8).filter (fun x => d.bit (fMCH_STS_DRAIN (4 * g + x / 2)) (x % 2))) n
  (List.range 8).foldl (fun d x => d.pmu (24 + g) 0x39 x 8 (min 64 (d.subOf (subKey (4 * g + x / 2) (x % 2))).rq.length * n)) d

/-- The pair link: virtual channels with a message waiting and no credit. -/
def Dev.pairEvents (d : Dev) (n : Nat) : Dev :=
  d.pmuCyc 41 0x64 ((List.range 4).filter (fun v => !(d.txq v).isEmpty && d.get (fPAIR_VC_AVAIL v) == 0)) n

/-- The job engines: slices with a running job. -/
def Dev.jobEvents (d : Dev) (n : Nat) : Dev :=
  d.pmuCyc 42 0x74 ((List.range 8).filter (fun s => d.job.jobs.any (fun j => j.slice == s && j.place == 1))) n

/-- The device: the free-space level AMBER or RED (R220). -/
def Dev.levelEvents (d : Dev) (n : Nat) : Dev :=
  if d.get fCDC_LEVEL_LEVEL = 1 then d.pmu 43 0x78 0 8 n
  else if d.get fCDC_LEVEL_LEVEL = 2 then d.pmu 43 0x79 0 8 n else d

/-- The events of unit u in n cycles of its clock (Table 18.1). -/
def Dev.unitEvents (d : Dev) (u n : Nat) : Dev :=
  if u < 8 then d.laneEvents u n
  else if u < 24 then d.sliceEvents (u - 8) n
  else if u < 30 then d.groupEvents (u - 24) n
  else if u = 41 then d.pairEvents n
  else if u = 42 then d.jobEvents n
  else if u = 43 then d.levelEvents n
  else d

/-- A monitor unit that counts advances its cycle count and counts the events of the cycles (R420, R421, R424). -/
def Dev.pmuCycle (d : Dev) (u : Nat) : Dev :=
  if d.pmuOn u then (d.bump (fPMU_U_CYC_COUNT u) (d.unitCycles u)).unitEvents u (d.unitCycles u) else d

/-- R104: the cycles that a slice's retry queue is full. -/
def Dev.rqFull (d : Dev) (sl : Nat) : Dev :=
  if 64 ≤ (d.home.retry.filter (fun q => lineSlice (q.dpa / 64) == sl)).length then d.bump (fHOME_SLICE_RQFULL_CYCLES sl) d.coreCycles else d

/-- R271: a beat every 1 ms, in every state. -/
def Dev.beat (d : Dev) : Dev := if d.pin.aon && d.now % 1000000 == 0 then d.sbSend 1 0 else d

/-- The management timer counts down at each whole millisecond, in every state (PWR_TIMER); that it reaches zero is PWR_TIMER_EXPIRY. -/
def Dev.timerMs (d : Dev) : Dev :=
  if d.now % 1000000 = 0 ∧ 1 < d.get fPWR_TIMER_MS then d.set fPWR_TIMER_MS (d.get fPWR_TIMER_MS - 1) else d

/-- Device time passes by one tick. -/
def Dev.tick (d : Dev) : Dev :=
  let d := (List.range 44).foldl Dev.pmuCycle d
  let d := (List.range 16).foldl Dev.rqFull d
  { d.slotsOver with now := d.now + 40 }.timerMs.beat

/-- The state after one tick. -/
def State.idle (s : State) : State := { s with dev := s.dev.tick }

/-! ### The management queue (R333) -/

/-- The commands of Table 13.5 by their opcodes. -/
def cmdInstrs : List (Nat × (Pkt → Instr)) :=
  [(rowWinCreate.op, .winCreate), (rowWinModify.op, .winModify), (rowWinRemove.op, .winRemove),
   (rowQosClassmap.op, .qosClassmapSet), (rowQosClass.op, .qosClassSet), (rowQosPort.op, .qosPortSet),
   (rowKrCreate.op, .krCreate), (rowKrRemove.op, .krRemove), (rowKeyLoad.op, .keyLoad), (rowKeyRotate.op, .keyRotate),
   (rowSecHalt.op, .secHalt), (rowMirPair.op, .mirPair), (rowMirTarget.op, .mirTarget), (rowMirUntarget.op, .mirUntarget),
   (rowMirResume.op, .mirResume), (rowMirPromote.op, .mirPromote), (rowMirBitmap.op, .mirBitmapArea),
   (rowMirShadow.op, .mirShadowRead), (rowPairLinkSet.op, .pairLinkSet), (rowCapLayout.op, .capLayout),
   (rowCapThresholds.op, .capThresholds), (rowCapWindowPolicy.op, .capWindowPolicy), (rowCapTierLimits.op, .capTierLimits),
   (rowCapDcRegion.op, .capDcRegion), (rowSlotEnable.op, .slotEnable), (rowSlotDisable.op, .slotDisable)] ++
  [(rowSlotLimits.op, .slotLimits), (rowRankRetrain.op, .rankRetrain), (rowThmThresh.op, .thmThreshSet),
   (rowPwrLimits.op, .pwrLimits), (rowPwrSleep.op, .pwrSleep), (rowFltReact.op, .fltReactSet),
   (rowFltGlobal.op, .fltGlobalSet), (rowFltClear.op, .fltClear), (rowInjectUnlock.op, .fltInjectUnlock),
   (rowInject.op, .fltInject), (rowBasicExit.op, .basicExit), (rowFrameRetire.op, .frameRetire),
   (rowBankRetire.op, .bankRetire), (rowPprSoft.op, .pprSoft), (rowPprHard.op, .pprHard), (rowLogRead.op, .logRead),
   (rowFwTransfer.op, .fwTransfer), (rowFwActivate.op, .fwActivate), (rowFwInfo.op, .fwInfo), (rowRegWrite.op, .devRegWrite),
   (rowRegRead.op, .devRegRead), (rowCsrGrant.op, .mgtCsrGrant), (rowCmdGrant.op, .mgtCmdGrant),
   (rowLinkConfig.op, .linkConfig), (rowSliceEn.op, .jobSliceEn), (rowQueueClass.op, .jobQueueClass)]

/-- The command that a packet of the queue names. -/
def cmdInstr (q : QPkt) : Option Instr := (cmdInstrs.find? (fun e => e.1 == q.op)).map (fun e => e.2 q.pkt)

/-- The oldest packet of the queue, where no command is in progress in the foreground. -/
def Dev.nextPkt (d : Dev) : Option QPkt := if d.mgt.bg.any (fun e => e.2.fg) then none else d.mgt.cmdq.head?

/-- The packet q leaves the queue and is being taken up. -/
def Dev.taking (d : Dev) (q : QPkt) : Dev := { d with mgt := { d.mgt with cmdq := d.mgt.cmdq.tail, taking := some q.mute } }

/-- A packet has been taken up. -/
def State.taken (s : State) : State := { s with dev := { s.dev with mgt := { s.dev.mgt with taking := none } } }

/-- R333: management firmware takes up the oldest packet of its queue, and executes it. -/
def State.takePkt (s : State) : Host.Outcome State Fault Refusal :=
  match s.dev.nextPkt with
  | none => .next s
  | some q =>
    match cmdInstr q with
    | none => .next { s with dev := s.dev.taking q }.taken
    | some i =>
      match exec i { s with dev := s.dev.taking q } with
      | .next t => .next t.taken
      | r => r

end Sys2Proof.Machine
end

