-- ==== Sys2Proof/Safety.lean ====
section
/-! DEFINITION. The terms in which claims about the block are made: what a state is after a command, when nothing follows a command, what
a request must meet to be served, and the invariant of the block. -/

namespace Sys2Proof.Machine

/-! ### After a command -/

/-- The state after a command whose own effect makes the device d: what follows a command (R99, R373, R388, R392) is part of its step. -/
def State.after (s : State) (d : Dev) : State := { s with dev := d.settle }

/-- The state after a command whose own effect makes a of the device and makes the stores that a lists. -/
def State.afterAcc (s : State) (a : Acc) : State :=
  { s with dev := ((a.settleQuar 8).upd Dev.settle).dev, dram := s.dram.commit ((a.settleQuar 8).upd Dev.settle).log.reverse }

/-- Nothing waits to follow a command: no failed check, no BIConflict without its answer, the P-level at its target, no sleep asked for,
no record or boot-select block to be written to flash. -/
def Dev.calm (d : Dev) : Bool :=
  d.sec.haltPend.isNone && !d.flt.escFatal && !d.flt.escBasic && d.home.biConf.isEmpty && d.pwr.sleepReq.isNone &&
  d.flag fPWR_PSTS_BASIC_REQ == d.basic && d.get fPWR_PSTS_TARGET == d.pTarget && !d.flashOld

/-- No subtree was quarantined that its windows do not know of yet (R185). -/
def Dev.quarCalm (d : Dev) : Bool := d.sec.quar.all (fun q => !q.new)

/-! ### Requests of heads -/

/-- The device once a resolved request has left its port: out of L1, counted and sampled (R37, R420, R427). -/
def Dev.counted (d : Dev) (q : Req) : Dev :=
  ((d.updPort q.head (fun s => { s with inL1 := false })).pmuLnk q.head (if q.op.isWrite then 0x11 else 0x10) q.cls 1).smpCount q (q.hpa * 64)

/-- The port of head p takes a request at once: linked, negotiated, restored, enabled, awake, with its keys, and with nothing before it. -/
def Dev.portServes (d : Dev) (p : Nat) : Bool :=
  let s := d.portOf p
  s.up && s.cxl && !s.macStop && !s.needKeys && s.restored && s.memEn && d.portsOpen && s.rx.isEmpty && s.epoch.isEmpty && d.home.xbar.isEmpty

/-- The request i with opcode op arrives at a port that takes it at once, its MAC epoch verified on a Secure stream (R54), and a
committed decoder makes q of it. -/
structure Reaches (d : Dev) (i : ReqIn) (op : ROp) (q : Req) : Prop where
  port : d.portServes i.head.toNat = true
  mac : d.get (fPDV_PORT_STS_IDE_MEM i.head.toNat) = 1 → i.macOpen = false
  alone : i.rivals = 0
  dec : ∃ c hpa, (d.updPort i.head.toNat (fun s => { s with inL1 := false })).resolve i.head.toNat (i.hpa.toNat * 64) = some (c, q.alias_, q.cls, hpa) ∧
    q.dpa = c.dpa hpa / 64 * 64
  win : q.win = ((d.updPort i.head.toNat (fun s => { s with inL1 := false })).winOf q.dpa).getD 0
  req : q = { head := i.head.toNat, hpa := i.hpa.toNat, tag := i.tag.toNat, op := op, rivals := 0, alias_ := q.alias_, cls := q.cls,
              dpa := q.dpa, res := true, win := q.win }
  ide : (d.counted q).flag (fPDV_PORT_STS_IDE_REQUIRED q.head) = false ∨ (d.counted q).get (fPDV_PORT_STS_IDE_MEM q.head) = 1

/-- A request with data takes 64 B of tokens of its class, of a port whose buffer holds nothing before it: it conforms (R310); d' is the
device after it. -/
structure Conforms (d : Dev) (q : Req) (d' : Dev) : Prop where
  tokens : d.takeTokens q.head q.cls = (true, d')
  mode : d'.get (fQOS_PORT_CFG_MODE q.head) = 0
  first : (d'.portOf q.head).rx = []

/-- A request at its slice passes every check of the window table, in a window that is not SHARED, and finds its line free. -/
structure Served (d : Dev) (q : Req) : Prop where
  steady : d.win.chg.find? (d.chgHolds q.dpa) = none
  intact : d.toSlice q = d
  runs : d.halted = false ∧ d.fatal = false ∧ (d.portOf q.head).viral = false
  window : d.winOf q.dpa = some q.win
  member : d.winMember q.win q.head = true
  here : d.mirSt q.win ≠ mirTarget
  sound : d.entryUse q.win = (true, d)
  key : d.winNoKey q.win = false
  noGroup : tfind d.home.cyc (q.dpa / 64) = none
  alone : q.rivals = 0
  unshared : d.winShared q.win = false
  free : d.openOn (q.dpa / 64) = false ∧ d.waitsOn (q.dpa / 64) = false ∧ d.retryOn (q.dpa / 64) = false
  queue : d.home.xbar = []

/-- A page transaction of a page of tiered window w can be taken up: the window's key can be used, nothing of the page is open at its slice,
the pool's counters stand, and neither the window's entry nor the pairs of its range have failed. -/
def Acc.PageReady (a : Acc) (pg w : Nat) : Prop :=
  a.dev.winOf (pg * 4096) = some w ∧ a.dev.winTiered w = true ∧ a.dev.krUsable (a.dev.winKr w) = true ∧ a.dev.pageQuiet pg = true ∧
  a.dev.tier.rebuild = false ∧ a.dev.win.faulted.contains w = false ∧ a.dev.krCheck (a.dev.winKr w) = (true, a.dev)

/-! ### Command packets and register writes -/

/-- A packet of opcode row r passes every check that all commands share (R324 to R334), asks for the command's effect,
and need not wait in the queue. -/
structure Admits (d : Dev) (r : CmdRow) (c : Pkt) : Prop where
  heard : d.deaf (r.cls == .q) c = false
  length : trCode c.tr = 0 → c.mailboxLen.toNat = 16 + c.plen.toNat
  passes : d.preCheck r c = (none, d)
  mode : r.basic = true → d.basic = false
  act : c.flags = 0
  room : r.bg = true → trCode c.tr = 0 → d.mailboxBg c.head.toNat = false
  turn : d.queues c = false

/-- The device d once the command that made it has replied SUCCESS: in the reply itself, or as a background command that is complete. -/
def Dev.answered (d : Dev) (r : CmdRow) (c : Pkt) (flags : Nat) (body : List Byte) : Dev :=
  if r.bg then (d.startBg (d.cmdOf c r.op false [])).bgDone d.mgt.nextBg 0 noDetail body
  else d.sendReply (d.cmdOf c r.op true []) 0 flags noDetail body

/-- The device d once the command that made it has replied with a status after all (R331). -/
def Dev.failed (d : Dev) (r : CmdRow) (c : Pkt) (status : Nat) : Dev := d.sendReply (d.cmdOf c r.op true []) status 0 noDetail []

/-- The device d once the command that made it runs on, with what it keeps. -/
def Dev.running (d : Dev) (r : CmdRow) (c : Pkt) (arg : List Nat) : Dev := d.startBg (d.cmdOf c r.op (!r.bg) arg)

/-- A write of the register at k takes its effect: by firmware, or by a head whose port serves registers (R37) and that R30 and R418 let
write it; and the register's unit is powered (R424). -/
def Dev.allows (d : Dev) (by_ : Writer) (k : Nat) : Prop :=
  match by_ with
  | .firmware => d.unitOff k = false
  | .head h => d.cfgOnly h.toNat = false ∧ ∃ a, regAt k = some a ∧ d.mayWrite h.toNat a = (true, d) ∧ d.unitOff k = false

/-! ### What a command may touch beyond the device -/

/-- A command that may store to DRAM. -/
def mayStore : Instr → Bool
  | .memRd .. | .memRdData .. | .memInv .. | .memInvNT .. | .memClnEvct .. | .memWr .. | .memWrPtl .. | .heldRequestRelease ..
  | .waitListTakeUp .. | .birsp .. | .snoopTimeout .. | .retryQueueRetry .. | .victimWriteDone .. | .memEnable .. | .headRestored ..
  | .decoderUncommit .. | .headReset .. | .reclaimSweepStep | .linkUp .. | .replayRateRetrain .. | .ideKm .. | .compatWindow ..
  | .windowTableApply .. | .zeroFillDone .. | .trainingComplete | .commandSlotPick .. | .dramReadData .. | .initializationComplete
  | .retireCopyDone | .pprSoftReadDone .. | .pprSoftWriteback .. | .krRemove .. | .counterTreeInitDone .. | .rotationStep ..
  | .minorOverflowReencrypt | .treeRebuildStep .. | .subBlockDecodeDone .. | .pageReencode .. | .promote .. | .demote .. | .compact ..
  | .scannerVisit .. | .reserveReturn .. | .discardSweeperDrop .. | .orphanSweep | .poolCounterRebuild | .pairFrameReceive ..
  | .wakePatternDetect | .mirrorQueueEntry | .mirrorApply | .granuleCopy .. | .rtrd | .rtdata | .slotRebuildStep
  | .descriptorFetched .. | .jobDispatch .. | .jobEnd .. | .completionRecordWrite .. | .linkConfig .. | .managementRestartDone
  | .bootComplete | .basicWriteoutDone | .sleepEntryFlushDone | .wakeEvent .. | .sleepExitDone | .pwrTimerExpiry
  | .slotInitializationDone .. | .ringExport .. | .mainDomainRelease | .warmResetFlushDone | .warmResetRelease => true
  | _ => false

/-- A command that may burn fuses of the OTP: the thermal ledger (R405), the anti-rollback counter (R352). -/
def mayBurn : Instr → Bool
  | .mgmtResetRelease | .bootComplete | .managementRestartDone => true
  | _ => false

/-! ### The invariant -/

/-- The register file is in canonical form: registers that hold their reset value are not listed. -/
def Dev.csrWf (d : Dev) : Bool := tcanon resetWord d.csr

/-- The invariant of the block: DRAM in canonical form, the OTP counters within their fuses. -/
def State.Inv (s : State) : Prop := s.dram.wf = true ∧ s.otp.rollback ≤ 64 ∧ s.otp.ledger ≤ 64

end Sys2Proof.Machine
end

