-- ==== Sys2Proof/Certificates/Slice0/Obligations.lean ====
section
/-! DEFINITION. The statements about the block that the provers are given: that each command completes and what it leaves, the steps of
the block, its invariant and frames, rules of the spec, and the round trips of its codes. -/

open Sys2Proof Sys2Proof.Machine

/-- In a window that is not SHARED, a MemRd or MemRdData whose data is at hand is answered with that data at once (the newest data of the
line buffer, where the line stands there), and a MemInv, MemInvNT or MemClnEvct completes at once with the completion of Table 4.3; a
write that no rule drops and that waits behind no other write of its line is stored and completes with the completion of its MetaValue
(with the model's choices in log entries 17, 72, 74) (rests on R93, R17, R212). -/
def Obligations.HostRequestsComplete : Prop :=
  (∀ (s : State) (i : ReqIn) (m : Meta) (q : Req) (d : Dev) (sk : SlotKind) (x : PLine) (b : Acc),
    Reaches s.dev i (.rd m) q → Conforms (s.dev.counted q) q d →
    Served d { q with conf := true } → d.slotOf { q with conf := true } = some sk →
    ((s.acc.upd (fun _ => d.takeSlot { q with conf := true } sk)).serving { q with conf := true }).findData q.win (q.dpa / 64) q.cls { q with conf := true } true = (.have_ x, b) →
    exec (.memRd i m) s = .next (s.afterAcc (b.upd (fun d =>
      (d.endRead { line := q.dpa / 64, req := { q with conf := true }, wait := .snoops, slot := sk } x true).retired { q with conf := true }))))
  ∧ (∀ (s : State) (i : ReqIn) (q : Req) (d : Dev) (sk : SlotKind) (x : PLine) (b : Acc),
    Reaches s.dev i .rdData q → Conforms (s.dev.counted q) q d →
    Served d { q with conf := true } → d.slotOf { q with conf := true } = some sk →
    ((s.acc.upd (fun _ => d.takeSlot { q with conf := true } sk)).serving { q with conf := true }).findData q.win (q.dpa / 64) q.cls { q with conf := true } true = (.have_ x, b) →
    exec (.memRdData i) s = .next (s.afterAcc (b.upd (fun d =>
      (d.endRead { line := q.dpa / 64, req := { q with conf := true }, wait := .snoops, slot := sk } x true).retired { q with conf := true }))))
  ∧ (∀ (a : Acc) (w dl cls : Nat) (q : Req) (count : Bool) (b : LBuf), a.dev.winTiered w = false → tfind a.dev.home.lbuf dl = some b → b.part = none →
    a.findData w dl cls q count = (.have_ (b.data, b.poison), a.upd (fun d => (d.pmuHome (lineSlice dl) 0x2B cls).smpFlag q 0)))
  ∧ (∀ (s : State) (i : ReqIn) (m : Meta) (q : Req), Reaches s.dev i (.inv m) q → Served (s.dev.counted q) q →
    exec (.memInv i m) s = .next (s.afterAcc ((s.acc.serving q).upd (fun _ =>
      (((s.dev.counted q).closeTrans (q.dpa / 64)).finish q (if m = .a then .cmpE else .cmp) 0).retired q))))
  ∧ (∀ (s : State) (i : ReqIn) (q : Req), Reaches s.dev i .invNT q → Served (s.dev.counted q) q →
    exec (.memInvNT i) s = .next (s.afterAcc ((s.acc.serving q).upd (fun _ => (((s.dev.counted q).closeTrans (q.dpa / 64)).finish q .cmp 0).retired q))))
  ∧ (∀ (s : State) (i : ReqIn) (q : Req), Reaches s.dev i .clnEvct q → Served (s.dev.counted q) q →
    exec (.memClnEvct i) s = .next (s.afterAcc ((s.acc.serving q).upd (fun _ => (((s.dev.counted q).closeTrans (q.dpa / 64)).finish q .cmp 0).retired q))))
  ∧ (∀ (s : State) (i : ReqIn) (m : Meta) (data : LineData) (po : Bool) (q : Req) (d : Dev) (a b : Acc),
    Reaches s.dev i (.wr m data po) q → Conforms (s.dev.counted q) q d → Served d { q with conf := true } →
    ((s.acc.upd (fun _ => d)).serving { q with conf := true }).dropWrite { q with conf := true } = (false, a) →
    a.dev.winShared q.win = false → a.dev.waitBehind { q with conf := true } = none →
    (a.serving { q with conf := true }).tryWrite { q with conf := true } (wrRsp m) = (.ok, b) →
    exec (.memWr i m data po) s = .next (s.afterAcc (b.upd (fun d => d.applied { q with conf := true }))))
  ∧ (∀ (s : State) (i : ReqIn) (m : Meta) (data : LineData) (mask : BitVec 64) (po : Bool) (q : Req) (d : Dev) (a b : Acc),
    Reaches s.dev i (.wrPtl m data mask po) q → Conforms (s.dev.counted q) q d → Served d { q with conf := true } →
    ((s.acc.upd (fun _ => d)).serving { q with conf := true }).dropWrite { q with conf := true } = (false, a) →
    a.dev.winShared q.win = false → a.dev.waitBehind { q with conf := true } = none →
    (a.serving { q with conf := true }).tryWrite { q with conf := true } (wrRsp m) = (.ok, b) →
    exec (.memWrPtl i m data mask po) s = .next (s.afterAcc (b.upd (fun d => d.applied { q with conf := true }))))
  ∧ (∀ (a a1 a2 b : Acc) (q : Req) (rsp : Rsp), a.dropWrite q = (false, a1) → a1.dev.basic = false → a1.dev.winMirrored q.win = false →
    a1.dev.rebuildReads (q.dpa / 64) = false → a1.onOut q.win (q.dpa / 64) = (false, a2) →
    a2.storeLine q.win (q.dpa / 64) q.cls q q.op.wrIn = (.ok, b) →
    a.tryWrite q rsp = (.ok, b.upd (fun d => ((d.dropGot (q.dpa / 64)).finish q rsp 0).wroteFor q false none)))

/-- What the home slices take up later, and what they make of a snooped head's answer (with the model's choices in log entries 19, 71, 80)
(rests on R85, R91, R98 to R102, R312). -/
def Obligations.SliceEventsComplete : Prop :=
  (∀ (s : State) (sl : BitVec 4) (q : Req) (r : List Req),
    s.dev.home.xbar.find? (fun q => lineSlice (q.dpa / 64) == sl.toNat && s.dev.xbarReady q && !s.dev.xbarAsks q) = some q → r = s.dev.home.xbar.erase q →
    exec (.heldRequestRelease sl) s = .next (s.afterAcc ((s.acc.upd (fun d => { d with home := { d.home with xbar := r } })).slice q)))
  ∧ (∀ (s : State) (line : DpaLine) (q : Req) (r : List Req), s.dev.openOn line.toNat = false → s.dev.retryOn line.toNat = false →
    (∀ x ∈ s.dev.tier.waits ++ s.dev.mir.waits, x.dpa / 64 ≠ line.toNat) → takeFirst (fun q => q.dpa / 64 == line.toNat) s.dev.home.waits = some (q, r) → q.op.isWrite = false →
    exec (.waitListTakeUp line) s = .next (s.afterAcc ((s.acc.upd (fun d => Dev.pinStats { d with home := { d.home with waits := r } } (lineSlice line.toNat))).takeUpOr q
      (fun d => d.waitFirst q))))
  ∧ (∀ (s : State) (sl : BitVec 4) (set : BitVec 12) (q : Req) (r : List Req),
    takeFirst (fun q => lineSlice (q.dpa / 64) == sl.toNat && dirSet (q.dpa / 64) == set.toNat) s.dev.home.retry = some (q, r) →
    (s.dev.dirWay (q.dpa / 64)).isSome = true → s.dev.openOn (q.dpa / 64) = false → (s.dev.slotOf q).isSome = true →
    exec (.retryQueueRetry sl set) s = .next (s.afterAcc
      (((s.acc.upd (fun d => { d with home := { d.home with retry := r } }.rqStats sl.toNat)).takeUp q).pullXbar sl.toNat).2))
  ∧ (∀ (s : State) (sl : BitVec 4) (line : DpaLine) (v : DirEnt),
    s.dev.home.victims.find? (fun v => v.line == line.toNat && lineSlice v.line == sl.toNat) = some v →
    exec (.victimWriteDone sl line) s = .next (s.afterAcc ((s.acc.dirWrite (s.dev.lineWin line.toNat) line.toNat v.ent).upd (fun d =>
      { d with home := { d.home with victims := d.home.victims.filter (fun x => x.line != line.toNat) } }))))
  ∧ (∀ (s : State) (h : Head) (hpa : HpaLine) (r : BiRsp) (c : Decoder) (al cls x : Nat), (s.dev.portOf h.toNat).up = true →
    s.dev.resolve h.toNat (hpa.toNat * 64) = some (c, al, cls, x) →
    exec (.birsp h hpa r) s = .next (s.afterAcc
      (((s.acc.upd (fun d => d.biAnswer h.toNat (c.dpa x / 64) al r)).snoopsDone (c.dpa x / 64)).rebuildDone (c.dpa x / 64))))
  ∧ (∀ (s : State) (h : Head) (hpa : HpaLine) (c : Decoder) (al cls x : Nat) (d : Dev), (s.dev.portOf h.toNat).up = true →
    s.dev.resolve h.toNat (hpa.toNat * 64) = some (c, al, cls, x) → d = s.dev.pmuHome (lineSlice (c.dpa x / 64)) 0x29 8 →
    exec (.biConflict h hpa) s = .next (s.after
      { d with home := { d.home with biConf := d.home.biConf ++ [(h.toNat, hpa.toNat, c.dpa x / 64, d.owed h.toNat (c.dpa x / 64))] } }))
  ∧ (∀ (s : State) (h : Head) (line : DpaLine) (t : Trans), s.dev.transOf line.toNat = some t →
    t.snoops.any (fun x => x.head == h.toNat && !x.wait.isEmpty) = true →
    exec (.snoopTimeout h line) s = .next (s.afterAcc ((s.acc.upd (fun d => (d.setFlag fHOME_STS_BI_TMO true).raise
      { src := srcHome (lineSlice line.toNat) 1, sev := 3, code := 100, obj := h.toNat, addr := line.toNat * 64, akind := 1,
        head := some h.toNat })).headDown h.toNat false true)))
  ∧ (∀ (s : State) (h : Head), (s.dev.portOf h.toNat).up = true →
    exec (.viral h) s = .next (s.after (s.dev.updPort h.toNat (fun p => { p with viral := true }))))

/-- What a port does with configuration accesses, Mem_Enable, the restore of its settings and its resets (with the model's choices in log
entries 21, 99, 100) (rests on R31, R36, R37, R39, R42, R60, R62, R394, R395). -/
def Obligations.PortCommandsComplete : Prop :=
  (∀ (s : State) (p : Head) (w : Bool) (x : CfgTarget) (v : BitVec 32), (s.dev.portOf p.toNat).up = true → s.dev.booted = false →
    exec (.configurationRequest p w x v) s = .next (s.after ((s.dev.outOfL1 p.toNat).emit (.cfgCrs p.toNat))))
  ∧ (∀ (s : State) (p : Head) (off : BitVec 12) (v : BitVec 32) (a : RegAt), (s.dev.portOf p.toNat).up = true → s.dev.booted = true →
    regAt (0x8000000 + p.toNat * 0x1000 + off.toNat) = some a →
    exec (.configurationRequest p false (.dvsec off) v) s = .next (s.after
      ((s.dev.outOfL1 p.toNat).emit (.cfgValue p.toNat ((s.dev.outOfL1 p.toNat).rd a.key)))) ∧
    exec (.configurationRequest p true (.dvsec off) v) s = .next (s.after
      (((s.dev.outOfL1 p.toNat).regWrite a v.toNat 0xffffffff).emit (.cfgValue p.toNat 0))))
  ∧ (∀ (s : State) (p : Head) (x : Feature) (n : BitVec 5) (v : BitVec 32), (s.dev.portOf p.toNat).up = true → s.dev.booted = true →
    exec (.configurationRequest p false (.feature x) v) s = .next (s.after
      ((s.dev.outOfL1 p.toNat).emit (.cfgValue p.toNat (featureSupported x).toNat))) ∧
    exec (.configurationRequest p false .hdmCount v) s = .next (s.after
      ((s.dev.outOfL1 p.toNat).emit (.cfgValue p.toNat 32))) ∧
    exec (.configurationRequest p false (.hdm n) v) s = .next (s.after
      ((s.dev.outOfL1 p.toNat).emit (.hdmDecoder p.toNat n.toNat
        ((s.dev.outOfL1 p.toNat).hdmImage p.toNat n.toNat)))))
  ∧ (∀ (s : State) (p : Head) (on : Bool), (s.dev.portOf p.toNat).up = true →
    exec (.memEnable p on) s = .next (s.afterAcc ((s.acc.upd (fun d => d.updPort p.toNat (fun x => { x with memEn := on }))).releaseRx p.toNat)))
  ∧ (∀ (s : State) (p : Head), s.dev.fwUp = true → (s.dev.formed p.toNat).isSome = true →
    ∃ d : Dev, exec (.headRestored p) s = .next (s.afterAcc ((s.acc.upd (fun _ => d)).releaseRx p.toNat)) ∧
      (d.portOf p.toNat).restored = true ∧ d.flag (fPDV_PORT_STS_IDE_REQUIRED p.toNat) = (s.dev.flash.cfg.link.getD (8 + p.toNat) 0).testBit 4 ∧
      ∀ n < 32, d.get (fPDV_ALIAS_MAP_CLASSMAP p.toNat n) = wordField (tget resetWord s.dev.flash.cfg.regs (rPDV_ALIAS_MAP p.toNat 0)) 0 24)
  ∧ (∀ (s : State) (p : Head) (perst : Bool), (s.dev.formed p.toNat).isSome = true →
    (if perst then !(s.dev.portOf p.toNat).perst else (s.dev.portOf p.toNat).up) = true →
    exec (.headReset p perst) s = .next (s.afterAcc (s.acc.headDown p.toNat perst false)))
  ∧ (∀ (s : State) (p : Head), (s.dev.formed p.toNat).isSome = true →
    exec (.headPerstDeassert p) s = .next (s.after
      ((s.dev.updPort p.toNat (fun x => { x with perst := false, adv := x.cap, eqFails := 0 })).rouse 2)))
  ∧ (∀ (s : State) (p : Head) (v : BitVec 32), (s.dev.portOf p.toNat).up = true → s.dev.booted = true → 2 ≤ (s.dev.outOfL1 p.toNat).get fPWR_LIMITS_DEEPEST →
    exec (.configurationRequest p false .l1Exit v) s = .next (s.after ((s.dev.outOfL1 p.toNat).emit (.cfgValue p.toNat 6))))

/-- A decoder whose image passes every check commits, and one without held lines of a SHARED window is uncommitted; a reclaim sweep goes
on by one store line, or waits for the rebuild of its unknown entries (with the model's choices in log entries 20, 96) (rests on R37, R43
to R45, R92, R108, R111). -/
def Obligations.DecoderCommandsComplete : Prop :=
  (∀ (s : State) (p : Head) (n : BitVec 5) (g : DecoderImage), (s.dev.portOf p.toNat).up = true → s.dev.cfgOnly p.toNat = false →
    tfind (s.dev.decs p.toNat) n.toNat = none → s.dev.aliasOk p.toNat n.toNat (s.dev.decoderOf p.toNat n.toNat g) = true →
    (s.dev.setFlag (fPDV_ALIAS_CTL_ERR p.toNat n.toNat) false).commitBad p.toNat n.toNat (s.dev.decoderOf p.toNat n.toNat g) = false →
    0 < g.size →
    ∃ d : Dev, exec (.decoderCommit p n g) s = .next (s.after d) ∧
      tfind (d.portOf p.toNat).decoders n.toNat = some (s.dev.decoderOf p.toNat n.toNat g) ∧
      d.flag (fPDV_ALIAS_CTL_ERR p.toNat n.toNat) = false ∧ (d.portOf p.toNat).decErr.testBit n.toNat = false)
  ∧ (∀ (s : State) (p : Head) (n : BitVec 5) (g : DecoderImage), (s.dev.portOf p.toNat).up = true → s.dev.cfgOnly p.toNat = false →
    tfind (s.dev.decs p.toNat) n.toNat = none → s.dev.aliasOk p.toNat n.toNat (s.dev.decoderOf p.toNat n.toNat g) = false →
    ∃ d : Dev, exec (.decoderCommit p n g) s = .next (s.after d) ∧ d.flag (fPDV_ALIAS_CTL_ERR p.toNat n.toNat) = true ∧
      (d.portOf p.toNat).decErr.testBit n.toNat = true ∧ (d.portOf p.toNat).decoders = (s.dev.portOf p.toNat).decoders)
  ∧ (∀ (s : State) (p : Head) (n : BitVec 5) (c : Decoder), (s.dev.portOf p.toNat).up = true → s.dev.cfgOnly p.toNat = false → tfind (s.dev.decs p.toNat) n.toNat = some c →
    c.lock = false → (∀ w ∈ s.dev.decWins c, s.dev.winShared w = true → s.dev.get (fHOME_HELD_COUNT p.toNat w) = 0) →
    exec (.decoderUncommit p n) s = .next (s.afterAcc (s.acc.upd (fun d =>
      (d.updPort p.toNat (fun x => { x with decoders := tdel x.decoders n.toNat })).set (fPDV_ALIAS_MAP_ALIAS_N p.toNat n.toNat) 0))))
  ∧ (∀ (s : State) (sw : Sweep) (rest : List Sweep) (lines : List Nat) (a : Acc), s.dev.home.sweeps = sw :: rest →
    lines = (List.range 8).map (s.dev.winBase (sw.wins.headD 0) / 64 + sw.cur + ·) →
    a = lines.foldl (fun a l => let r := a.dirPeek (sw.wins.headD 0) l; if r.1.isNone then r.2.rebuildFor (sw.wins.headD 0) l else r.2) s.acc →
    (lines.any (fun l => a.dev.home.dirBad.contains l) = false → exec .reclaimSweepStep s = .next (s.afterAcc (a.upd (fun d => d.sweepMove sw rest)))) ∧
    (lines.any (fun l => a.dev.home.dirBad.contains l) = true → exec .reclaimSweepStep s = .next (s.afterAcc a)))

/-- Links train, fall back in rate, are keyed, and stop on a MAC failure (with the model's choices in log entries 54, 73, 76, 100) (rests
on R34 to R36, R53, R56, R59, R355, R384). -/
def Obligations.LinkCommandsComplete : Prop :=
  (∀ (s : State) (p : Head) (t : LinkTrain) (f : Nat), s.dev.formed p.toNat = some f → (s.dev.portOf p.toNat).perst = false →
    (s.dev.portOf p.toNat).up = false → s.dev.lnkOn p.toNat = true → 1 ≤ t.width → t.cxl = true → 2 ≤ min (s.dev.portOf p.toNat).adv t.rate.toNat →
    ∃ d : Dev, exec (.linkUp p t) s = .next (s.afterAcc ((s.acc.upd (fun _ => d)).releaseRx p.toNat)) ∧
      (d.portOf p.toNat).up = true ∧ (d.portOf p.toNat).cxl = true ∧
      d.get (fPDV_PORT_STS_WIDTH p.toNat) = min t.width (formedLanes f) % 32 ∧
      d.get (fPDV_PORT_STS_RATE p.toNat) = min (s.dev.portOf p.toNat).adv t.rate.toNat % 8 ∧
      d.get (fPDV_PORT_STS_FLIT p.toNat) = flitOf (min (s.dev.portOf p.toNat).adv t.rate.toNat) t.hostFlit t.hostLo)
  ∧ (∀ (s : State) (p : Head), (s.dev.formed p.toNat).isSome = true → (s.dev.portOf p.toNat).up = false → 5 ≤ (s.dev.portOf p.toNat).adv →
    exec (.equalizationFailure p) s = .next (s.after (if (s.dev.portOf p.toNat).eqFails = 0 then
        s.dev.updPort p.toNat (fun x => { x with eqFails := 1 })
      else (s.dev.updPort p.toNat (fun x => { x with eqFails := 0, adv := x.adv - 1 })).bumpSat (fPDV_LNK_ERR_RATE_DROPS p.toNat) 1)))
  ∧ (∀ (s : State) (p : Head) (n f : Nat) (a : Acc), (s.dev.portOf p.toNat).up = true →
    a = s.acc.upd (fun d => (((d.bumpSat (fPDV_LNK_ERR_REPLAYS p.toNat) n).pmuLnk p.toNat 0x14 8 n).correctable p.toNat 0 n).correctable p.toNat 1 f) →
    exec (.replayRateRetrain p ⟨n, f⟩) s = .next (s.afterAcc (if 256 < n then a.rateDrop p.toNat else a)))
  ∧ (∀ (s : State) (p : Head), (s.dev.portOf p.toNat).up = true → s.dev.get (fPDV_PORT_STS_IDE_MEM p.toNat) = 1 →
    ∃ d : Dev, exec (.macCheckFailure p) s = .next (s.after (d.raise { src := srcPort p.toNat 1, sev := 3, code := 56, obj := p.toNat, head := some p.toNat })) ∧
      d.get (fPDV_PORT_STS_IDE_MEM p.toNat) = 2 ∧ d.flag (fPDV_LNK_ERR_IDE_FAIL p.toNat) = true ∧ (d.portOf p.toNat).macStop = true ∧
      (d.portOf p.toNat).epoch = [] ∧ d.flag (fPDV_PORT_STS_MEM_READY p.toNat) = false)
  ∧ (∀ (s : State) (p : Head) (n : Nat) (k : IdeStream) (r : IdeKmReq), (s.dev.portOf p.toNat).up = true → s.dev.secured n = false →
    exec (.ideKm p n ⟨k, r⟩) s = .next (s.afterAcc ((s.acc.upd (fun d => d.emit (.ideKm p.toNat 1))).releaseRx p.toNat)))
  ∧ (∀ (s : State) (p : Head) (n : Nat) (k : IdeStream) (r : IdeKmReq) (x : IdeS), (s.dev.portOf p.toNat).up = true → s.dev.secured n = true → s.dev.halted = false →
    ((s.dev.portOf p.toNat).stream k).after r = some x →
    (k ≠ .mem → exec (.ideKm p n ⟨k, r⟩) s = .next (s.afterAcc ((s.acc.upd (fun d =>
      (d.updPort p.toNat (fun y => { y with ide := tins y.ide (ideIdx k) x })).emit (.ideKm p.toNat 0))).releaseRx p.toNat))) ∧
    (k = .mem → (s.dev.portOf p.toNat).macStop = false → ∃ d : Dev,
      exec (.ideKm p n ⟨k, r⟩) s = .next (s.afterAcc ((s.acc.upd (fun _ => d.emit (.ideKm p.toNat 0))).releaseRx p.toNat)) ∧
      d.get (fPDV_PORT_STS_IDE_MEM p.toNat) = (x.tx && x.rx).toNat ∧ ((d.portOf p.toNat).stream .mem) = x))

/-- The interval of the ports, the capability rise, COMPAT windows and the offers of Dynamic Capacity (with the model's choices in log
entries 22, 69, 77) (rests on R48 to R51, R58, R316, R321). -/
def Obligations.IntervalCommandsComplete : Prop :=
  (∀ (s : State) (b : Boundary), exec (.devloadInterval b) s = .next (s.after s.dev.interval) ∧ s.dev.interval.qos.pend = [])
  ∧ (∀ (d : Dev) (p : Nat), (d.portOf p).reads = 0 ∨ d.target p = 0 → d.portLoad p = (0, 1))
  ∧ (∀ (d : Dev) (p : Nat), (d.portOf p).reads ≠ 0 → d.target p ≠ 0 →
    d.portLoad p = ((d.portOf p).latSum, (d.portOf p).reads * d.target p))
  ∧ (∀ s : State, s.dev.qos.rise = true → exec .capabilityRise s = .next (s.after (s.dev.capability true)) ∧ (s.dev.capability true).qos.rise = false)
  ∧ (∀ (s : State) (p : Head), (s.dev.portOf p.toNat).up = true → s.dev.get (fQOS_PORT_CFG_MODE p.toNat) = 1 → s.dev.heldOf p.toNat = [] →
    exec (.compatWindow p) s = .next (s.afterAcc (s.acc.upd (fun d => d.updPort p.toNat (fun x => { x with compat := 0 })))))
  ∧ (∀ (s : State) (h : Head) (w : WinId) (e : Extent), s.dev.fwUp = true → s.dev.winValid w.toNat = true → s.dev.winTiered w.toNat = true →
    s.dev.winMember w.toNat h.toNat = true → s.dev.win.removing.contains w.toNat = false → s.dev.offerOk h.toNat w.toNat e = true →
    exec (.addCapacity h w [e]) s = .next (s.after ((s.dev.updPort h.toNat (fun x => { x with offers := x.offers ++ [(e.start, e.len, w.toNat)] })).emit
      (.dcEvent h.toNat 0 (if s.dev.winShared w.toNat then some w.toNat else none) [(e.start, e.len)]))))
  ∧ (∀ (s : State) (h : Head) (exts : List Extent) (r : List (Nat × Nat × Nat) × List (Nat × Nat × Nat)), (s.dev.portOf h.toNat).up = true → s.dev.cfgOnly h.toNat = false →
    cutExts s.dev.dcOf (s.dev.portOf h.toNat).offers exts = some r → s.dev.extRoom ((s.dev.portOf h.toNat).extents ++ r.2) = true →
    exec (.addDynamicCapacityResponse h exts) s = .next (s.after
      ((s.dev.updPort h.toNat (fun x => { x with offers := [], extents := x.extents ++ r.2 })).emit (.mailboxRc h.toNat 0))))
  ∧ (∀ (s : State) (h : Head) (e : Extent), exec (.offerTimeout h e) s = .next (s.after
      (s.dev.updPort h.toNat (fun x => { x with offers := x.offers.filter (fun y => !(y.1 == e.start && y.2.1 == e.len)) }))))

/-- Changes of the window table begin, are filled and applied; extents are released; the map is locked (with the model's choices in log
entries 15, 23, 69, 78, 79, 100) (rests on R51, R66 to R73, R83). -/
def Obligations.WindowCommandsComplete : Prop :=
  (∀ (s : State) (c : Pkt), Admits s.dev rowWinCreate c → s.dev.createBad (imageIn c 0) = none →
    exec (.winCreate c) s = .next (s.after
      ((s.dev.beginCreate (s.dev.freeEntry.getD 0) (imageIn c 0) (some s.dev.mgt.nextBg)).running rowWinCreate c [s.dev.freeEntry.getD 0])) ∧
    ∃ g ∈ (s.dev.beginCreate (s.dev.freeEntry.getD 0) (imageIn c 0) (some s.dev.mgt.nextBg)).win.chg,
      g.win = s.dev.freeEntry.getD 0 ∧ g.img = imageIn c 0 ∧ g.kind = 0)
  ∧ (∀ (s : State) (c : Pkt), Admits s.dev rowWinModify c → s.dev.modifyBad (c.at_ 0 1) (imageIn c 4) = none →
    exec (.winModify c) s = .next (s.after (({ s.dev with win := { s.dev.win with chg := s.dev.win.chg ++
      [{ win := c.at_ 0 1, img := imageIn c 4, filling := false, kind := 1, bg := some s.dev.mgt.nextBg }] } } : Dev).running rowWinModify c [c.at_ 0 1])))
  ∧ (∀ (s : State) (c : Pkt), Admits s.dev rowWinRemove c → s.dev.removeBad (c.at_ 0 1) = none → s.dev.winTiered (c.at_ 0 1) = false →
    s.dev.holders (c.at_ 0 1) = [] → s.dev.win.chg.any (fun g => g.win == c.at_ 0 1) = false →
    exec (.winRemove c) s = .next (s.after (({ s.dev with win := { s.dev.win with removing := s.dev.win.removing.filter (· != c.at_ 0 1), chg := s.dev.win.chg ++
      [{ win := c.at_ 0 1, img := List.replicate 6 0, filling := false, kind := 2, bg := some s.dev.mgt.nextBg }] } } : Dev).running rowWinRemove c [c.at_ 0 1])))
  ∧ (∀ (s : State) (w : WinId) (g : WinChg), s.dev.win.chg.find? (fun g => g.win == w.toNat && g.filling) = some g → s.dev.krUsable (imKr g.img) = true →
    exec (.zeroFillDone w) s = .next (s.afterAcc ((s.acc.fillCreate g).2.upd (fun d => d.updChg w.toNat (fun x => { x with filling := !(s.acc.fillCreate g).1 })))))
  ∧ (∀ (s : State) (w : WinId) (g : WinChg), s.dev.win.chg.find? (fun g => g.win == w.toNat && !g.filling) = some g → s.dev.inFlight w.toNat = false →
    s.dev.chgPowered g.img = true →
    exec (.windowTableApply w) s = .next (s.afterAcc (s.acc.applyChg g)))
  ∧ (∀ (s : State) (h : Head) (exts : List Extent) (left got : List (Nat × Nat × Nat)), (s.dev.portOf h.toNat).up = true → s.dev.cfgOnly h.toNat = false →
    exts ≠ [] →
    cutExts s.dev.dcOf (s.dev.portOf h.toNat).extents exts = some (left, got) → s.dev.extRoom left = true → s.dev.win.removing = [] →
    exec (.releaseDynamicCapacity h exts) s = .next (s.after
      ((s.dev.updPort h.toNat (fun x => { x with extents := left })).emit (.mailboxRc h.toNat 0))))
  ∧ (∀ (s : State) (by_ : Writer), s.dev.allows by_ rWIN_CTL → s.dev.flag fWIN_CTL_MAP_LOCK = false →
    exec (.mapLockWrite by_) s = .next (s.after
      (if s.dev.get fMCH_POP_STS_RESULT ≠ 3 ∧ s.dev.get fWIN_GEOM_DENSITY ≤ 1 ∧ s.dev.get fWIN_GEOM_RANKB ≤ 2 ∧ (List.range 6).all s.dev.maskOk = true then
        s.dev.setFlag fWIN_CTL_MAP_LOCK true
      else (s.dev.setFlag fWIN_STS_MAP_ERR true).raise { src := src 8 1, sev := 1, code := 83 })))

/-- The ramp, the trips and the turn-off of a slot, and what each leaves in its registers (with the model's choices in log entries 38, 84)
(rests on R409 to R414). -/
def Obligations.SlotEventsComplete : Prop :=
  (∀ (s : State) (present : BitVec 48), (∀ n < 48, s.dev.flag (fSLT_STS_PRESENT n) = present.getLsbD n) →
    exec (.presencePoll present) s = .next (s.after s.dev))
  ∧ (∀ (s : State) (present : BitVec 48),
    exec (.presencePoll present) s = .next (s.after ((List.range 48).foldl (fun d n => d.presence n (present.getLsbD n)) s.dev)))
  ∧ (∀ (d : Dev) (n : Nat), d.flag (fSLT_STS_PRESENT n) = false →
    d.presence n true = (((d.setFlag (fSLT_STS_PRESENT n) true).setBit fSLT_PRESENT_SLOTS n true).bumpSat (fSLT_EVT_PRESENCE n) 1).raise
      { src := src 38 n, sev := 1, code := 407, obj := n })
  ∧ (∀ (s : State) (n : SlotId), s.dev.sltState n.val = slRamp → (s.dev.slt n.val).fall = 0 →
    exec (.gateRiseCheck n true) s = .next (s.after (s.dev.updSlt n.val (fun x => { x with ramp := max x.ramp 2 }))) ∧
    exec (.gateRiseCheck n false) s = .next (s.after ((s.dev.sltDrop n.val slDamaged 5).raise { src := src 38 n.val, sev := 3, code := 5, obj := n.val })) ∧
    exec (.rampVoutReached n) s = .next (s.after (s.dev.updSlt n.val (fun x => { x with ramp := 3 }))) ∧
    exec (.rampTimeout n) s = .next (s.after (s.dev.sltTrip n.val 4)))
  ∧ (∀ (s : State) (n : SlotId), s.dev.sltState n.val = slRamp → (s.dev.slt n.val).ramp = 3 → (s.dev.slt n.val).fall = 0 →
    ∃ d : Dev, exec (.fullGateOn n) s = .next (s.after d) ∧ d.sltState n.val = slOn ∧ d.flag (fSLT_STS_PWREN n.val) = true ∧
      d.bit fSLT_ON_SLOTS n.val = true ∧ (d.slt n.val).ramp = 0 ∧ ∀ k, k ≠ rSLT_STS n.val → k ≠ rSLT_ON → d.rd k = s.dev.rd k)
  ∧ (∀ (s : State) (n : SlotId), s.dev.sltLive n.val = true → exec (.fastTrip n) s = .next (s.after (s.dev.sltTrip n.val 1)))
  ∧ (∀ (s : State) (n : SlotId), s.dev.sltState n.val = slOn → exec (.breakerTrip n) s = .next (s.after (s.dev.sltTrip n.val 2)))
  ∧ (∀ (s : State) (n : SlotId), s.dev.sltLive n.val = false →
    exec (.fetShort n) s = .next (s.after ((s.dev.sltDrop n.val slDamaged 6).raise { src := src 38 n.val, sev := 3, code := 6, obj := n.val })))
  ∧ (∀ (s : State) (n : SlotId), (s.dev.slt n.val).fall = 1 →
    exec (.gateFallStart n) s = .next (s.after (s.dev.updSlt n.val (fun x => { x with fall := 2 }))))
  ∧ (∀ (s : State) (n : SlotId), (s.dev.slt n.val).fall = 2 →
    ∃ d : Dev, exec (.slotOffComplete n) s = .next (s.after d) ∧ d.sltState n.val = slOff ∧ d.flag (fSLT_STS_PWREN n.val) = false ∧
      d.bit fSLT_ON_SLOTS n.val = false ∧ d.get (fSLT_STS_CAUSE n.val) = (s.dev.slt n.val).fallCause % 16 ∧
      ∀ k, k ≠ rSLT_STS n.val → k ≠ rSLT_ON → d.rd k = s.dev.rd k)
  ∧ (∀ (s : State) (n : SlotId) (x : Spd), s.dev.slotOut n.val = true → s.dev.sltState n.val = slOn → (s.dev.slt n.val).fall = 0 →
    s.dev.mch.trained = true → s.dev.matchesChan (n.val / 2) x = true →
    ∃ d : Dev, exec (.slotTrainingComplete n x) s = .next (s.after d) ∧ (d.slt n.val).spd = some x ∧ ∀ k, d.rd k = s.dev.rd k)
  ∧ (∀ (s : State) (n : SlotId), s.dev.slotOut n.val = true → s.dev.sltState n.val = slOn → (s.dev.slt n.val).spd.isSome = true →
    exec (.slotInitializationDone n) s = .next (s.afterAcc ((s.acc.slotContents n.val).upd (fun d => d.slotBack n.val))))

/-- The commands of a slot, and the update of its FET model (with the model's choices in log entries 38, 39) (rests on R409, R411, R414,
Table 17.6). -/
def Obligations.SlotCommandsComplete : Prop :=
  (∀ (s : State) (c : Pkt), Admits s.dev rowSlotEnable c → c.at_ 0 1 < 48 → s.dev.sltUse (c.at_ 0 1) = (true, s.dev) →
    s.dev.enableBad (c.at_ 0 1) true = none → s.dev.sltLive (c.at_ 0 1) = false →
    exec (.slotEnable c) s = .next (s.after (((s.dev.sltRamp (c.at_ 0 1)).cfgSlot (c.at_ 0 1) true).answered rowSlotEnable c 2 [])))
  ∧ (∀ (s : State) (c : Pkt), Admits s.dev rowSlotDisable c → c.at_ 0 1 < 48 → s.dev.sltState (c.at_ 0 1) = slOn →
    exec (.slotDisable c) s = .next (s.after
      (((((s.dev.cfgSlot (c.at_ 0 1) false).setOut (c.at_ 0 1) true).sltFall (c.at_ 0 1) 9).clearBret (c.at_ 0 1)).answered rowSlotDisable c 2 [])))
  ∧ (∀ (s : State) (c : Pkt) (r : Bool × Dev), Admits s.dev rowSlotLimits c → c.at_ 0 1 < 48 → limitsBad (c.at_ 4 4) (c.at_ 8 4) = none →
    r = ((s.dev.wrPair (rSLT_LIM0 (c.at_ 0 1)) (rSLT_LIM0_C (c.at_ 0 1)) (c.at_ 4 4)).wrPair (rSLT_LIM1 (c.at_ 0 1)) (rSLT_LIM1_C (c.at_ 0 1)) (c.at_ 8 4)).readBack
      [(rSLT_LIM0 (c.at_ 0 1), rSLT_LIM0_C (c.at_ 0 1)), (rSLT_LIM1 (c.at_ 0 1), rSLT_LIM1_C (c.at_ 0 1))] →
    exec (.slotLimits c) s = .next (s.after (if r.1 then (r.2.cfgRegs [rSLT_LIM0 (c.at_ 0 1), rSLT_LIM1 (c.at_ 0 1)]).answered rowSlotLimits c 0 []
      else r.2.failed rowSlotLimits c 5)))
  ∧ (∀ (s : State) (n : SlotId) (cur vout : BitVec 12) (th : Int), s.dev.sltUse n.val = (true, s.dev) → s.dev.sltLive n.val = false →
    ∃ d : Dev, exec (.fetModelUpdate n cur vout th) s = .next (s.after (d.thermistor n.val th)) ∧
      d.get (fSLT_MEAS_CURRENT n.val) = cur.toNat ∧ d.get (fSLT_MEAS_VOUT n.val) = vout.toNat ∧
      (d.slt n.val).model = (s.dev.slt n.val).model + (70000000 - (s.dev.slt n.val).model) / (100 * (s.dev.get (fSLT_LIM1_TAU_MS n.val))))

/-- The switched domains, the sequencer of the P-levels and its limits (with the model's choices in log entries 41, 100) (rests on R384,
R386, R388, R389, R424). -/
def Obligations.PowerCommandsComplete : Prop :=
  (∀ (s : State) (k : Fin 56), s.dev.domWanted k.val = true → s.dev.bit fPWR_DOM_STS_ON k.val = false →
    exec (.domainPowerUpDone k) s = .next (s.after (if k.val = 32 then (s.dev.setBit fPWR_DOM_STS_ON k.val true).pmuPower.tryTrain else
      (s.dev.setBit fPWR_DOM_STS_ON k.val true).pmuPower)))
  ∧ (∀ (s : State) (k : Fin 56), s.dev.domWanted k.val = false → s.dev.bit fPWR_DOM_STS_ON k.val = true → s.dev.domIdle k.val = true →
    exec (.domainPowerDownDone k) s = .next (s.after (s.dev.setBit fPWR_DOM_STS_ON k.val false).pmuPower))
  ∧ (∀ s : State, s.dev.pwr.vf = 1 → exec .vfSequencerStep s = .next (s.after ((s.dev.set fPWR_PSTS_CUR s.dev.pwr.vfTo).pmu 43 0x7A 0 8 1).vfNext))
  ∧ (∀ s : State, 2 ≤ s.dev.pwr.vf → exec .vfSequencerStep s = .next (s.after
      ({ s.dev with pwr := { s.dev.pwr with vdd := voltOf s.dev.pwr.vfTo } } : Dev).vfNext))
  ∧ (∀ (s : State) (c : Pkt), Admits s.dev rowPwrLimits c → c.at_ 0 1 ≤ c.at_ 1 1 → c.at_ 1 1 ≤ 3 → c.at_ 2 1 ≤ 3 →
    ∃ d : Dev, exec (.pwrLimits c) s = .next (s.after (d.answered rowPwrLimits c 0 [])) ∧ d.get fPWR_LIMITS_FASTEST = c.at_ 0 1 ∧
      d.get fPWR_LIMITS_SLOWEST = c.at_ 1 1 ∧ d.get fPWR_LIMITS_DEEPEST = c.at_ 2 1 ∧
      d.get fPWR_PSTS_FW_REQ = min (max (s.dev.get fPWR_PSTS_FW_REQ) (c.at_ 0 1)) (c.at_ 1 1))

/-- The sensors, the thresholds, and the three steps of throttling (with the model's choices in log entry 27) (rests on R398 to R400,
R403). -/
def Obligations.ThermalCommandsComplete : Prop :=
  (∀ s : State, s.dev.flag fTHM_STS_DEVLOAD = true → s.dev.flag fTHM_STS_THROT = true →
    exec .graceExpiry s = .next (s.after ((heads.foldl (fun (d : Dev) p => d.setFlag (fPDV_DEVLOAD_FLOOR_THERM p) false)
      (s.dev.setFlag fTHM_STS_DEVLOAD false)).setStage (max 1 (s.dev.get fTHM_STS_STAGE)))))
  ∧ (∀ s : State, s.dev.flag fTHM_STS_THROT = true → s.dev.get fTHM_STS_STAGE ≠ 0 →
    exec .thermalStepDown s = .next (s.after (s.dev.setStage (min 3 (s.dev.get fTHM_STS_STAGE + 1)))))
  ∧ (∀ s : State, s.dev.flag fTHM_STS_THROT = false → s.dev.get fTHM_STS_STAGE ≠ 0 → s.dev.pwr.hold2 = false ∨ s.dev.get fTHM_STS_STAGE ≠ 2 →
    exec .thermalStepUp s = .next (s.after (s.dev.setStage (s.dev.get fTHM_STS_STAGE - 1))))
  ∧ (∀ (d : Dev) (k : Nat), k < 4 → k ≠ d.get fTHM_STS_STAGE →
    ∃ d' : Dev, d.setStage k = d'.raise { src := src 37 3, sev := 1, code := 403, obj := k } ∧ d'.get fTHM_STS_STAGE = k ∧
      d'.get fPWR_PSTS_THERM_REQ = (if k = 0 then 0 else d.get (fTHM_STAGE_PLEVEL k)) ∧
      d'.get fQOS_THERM_CAP_PM = (if k = 0 then 1000 else max 100 (d.get (fTHM_STAGE_CAP_PM k))))
  ∧ (∀ (s : State) (l : List Int), exec (.sensorSample l) s = .next (s.after (s.dev.sample l)))
  ∧ (∀ (s : State) (c : Pkt), Admits s.dev rowThmThresh c → s.dev.flt.inj = [] → 50 ≤ c.at_ 0 1 → c.at_ 0 1 < c.at_ 1 1 → c.at_ 1 1 ≤ 110 →
    c.at_ 0 1 + c.at_ 3 1 + 2 ≤ c.at_ 1 1 → c.at_ 1 1 < c.at_ 2 1 → c.at_ 2 1 ≤ 118 → c.at_ 1 1 + c.at_ 3 1 + 2 ≤ c.at_ 2 1 →
    1 ≤ c.at_ 3 1 → c.at_ 3 1 ≤ 8 → 10 ≤ c.at_ 8 2 → c.at_ 8 2 ≤ 10000 →
    ∃ d : Dev, exec (.thmThreshSet c) s = .next (s.after (d.evalConds.answered rowThmThresh c 0 [])) ∧
      d.rd rTHM_THRESH = c.at_ 0 4 % 2 ^ 28 ∧ d.rd rTHM_THRESH_C = 2 ^ 32 - 1 - c.at_ 0 4 % 2 ^ 28 ∧ d.get fTHM_CTL_GRACE_US = c.at_ 8 2)

/-- Sleep is asked for, lapses, is entered, and ends with a wake (with the model's choices in log entries 28, 100) (rests on R392 to
R394). -/
def Obligations.SleepCommandsComplete : Prop :=
  (∀ (s : State) (c : Pkt), Admits s.dev rowPwrSleep c → 1 ≤ c.at_ 0 1 → c.at_ 0 1 ≤ 3 →
    exec (.pwrSleep c) s = .next (s.after ((s.dev.wantSleep (c.at_ 0 1) (some s.dev.mgt.nextBg)).running rowPwrSleep c [c.at_ 0 1])))
  ∧ (∀ (s : State) (st : Nat) (bg : Option Nat), s.dev.pwr.sleepReq = some (st, bg) →
    ∃ d : Dev, exec .sleepRequestLapse s = .next (s.after (d.bgDoneOpt bg stSleepBlocked noDetail [])) ∧ d.pwr.sleepReq = none ∧
      d.get fPWR_SLEEP_STS_BLOCK = s.dev.sleepBlock st % 8)
  ∧ (∀ (s : State) (st : Nat) (bg : Option Nat), s.dev.pwr.entering = some (st, bg) →
    exec .sleepEntryFlushDone s = .next (s.afterAcc s.acc.sleepCommit) ∧ s.acc.sleepCommit.dev.pwr.entering = none)
  ∧ (∀ (s : State) (k : BitVec 4) (st : Nat) (bg : Option Nat), s.dev.pwr.entering = some (st, bg) → s.dev.wakes k.toNat st = true →
    exec (.wakeEvent k) s = .next (s.afterAcc (heads.foldl Acc.releaseRx (s.acc.upd (fun d => (((({ d with pwr := { d.pwr with entering := none } } : Dev).setFlag
      fPWR_SLEEP_STS_ABORTED true).set fPWR_SLEEP_STS_LAST_WAKE k.toNat).bumpSat fPWR_ENTRIES_ABORTS 1).pairWake)))))
  ∧ (∀ (s : State) (k : BitVec 4), s.dev.pwr.entering = none → s.dev.get fPWR_SLEEP_STS_STATE ≠ 0 → s.dev.pwr.exiting = false →
    s.dev.wakes k.toNat (s.dev.get fPWR_SLEEP_STS_STATE) = true →
    exec (.wakeEvent k) s = .next (s.afterAcc (s.acc.upd (fun d => d.beginExit k.toNat))))
  ∧ (∀ s : State, s.dev.get fPWR_TIMER_MS ≠ 0 → s.dev.flag fPWR_WAKE_CTL_TIMER_MODE = true →
    ∃ d : Dev, exec .pwrTimerExpiry s = .next (s.afterAcc ((s.acc.upd (fun _ => d)).wake 7)) ∧ d.get fPWR_TIMER_MS = 0 ∧ d.pwr.timerWake = false)
  ∧ (∀ (s : State) (p : Head), (s.dev.portOf p.toNat).up = true →
    exec (.linkL1Entry p) s = .next (s.after (s.dev.updPort p.toNat (fun x => { x with inL1 := true }))))

/-- The population, training, refresh and the retraining of ranks (with the model's choices in log entries 24, 25, 29) (rests on R114,
R127 to R131, R143). -/
def Obligations.TrainingCommandsComplete : Prop :=
  (∀ (s : State) (spd : List (Option Spd)), s.dev.fwUp = true → s.dev.get fMCH_POP_STS_RESULT = 0 →
    exec (.populationSettle spd) s = .next (s.after (s.dev.settlePop spd)))
  ∧ (∀ (d : Dev) (spd : List (Option Spd)), (∀ n < 48, dimmOk ((List.range 48).map (d.dimmAt spd)) n = true) →
    d.settlePop spd = (d.set fMCH_POP_STS_RESULT 1).setPop ((List.range 48).map (d.dimmAt spd)) true)
  ∧ (∀ s : State, s.dev.mch.trained = false → s.dev.get fMCH_POP_STS_RESULT = 1 ∨ s.dev.get fMCH_POP_STS_RESULT = 2 →
    exec .trainingComplete s = .next (s.afterAcc s.acc.trained))
  ∧ (∀ s : State, s.dev.mch.trained = true → s.dev.mch.initDone = false → s.dev.mgt.bootKind = 0 →
    exec .initializationComplete s = .next (s.afterAcc ((s.acc.zero 0 (s.dev.fitted / 64)).upd (fun d =>
      { d with mch := { d.mch with initDone := true }, pin := { d.pin with initSince := true } }))))
  ∧ (∀ (s : State) (ch : Chan) (r : BitVec 3), s.dev.dramOn = true → s.dev.rankHere ch.val r.toNat = true →
    exec (.refreshInterval ch r) s = .next (s.after ((s.dev.refreshDue ch.val 0 r.toNat).refreshDue ch.val 1 r.toNat)) ∧
    exec (.mr4Read ch r .x1) s = .next (s.after (s.dev.mr4 ch.val r.toNat .x1)) ∧
    exec (.mr4Read ch r .x2) s = .next (s.after (s.dev.mr4 ch.val r.toNat .x2)) ∧
    exec (.mr4Read ch r .over) s = .next (s.after (s.dev.mr4 ch.val r.toNat .over)) ∧
    exec (.zqCalibration ch r) s = .next (s.after (s.dev.emit (.ddr 5 ch.val 0 [r.toNat]))) ∧
    exec (.dqsOscillatorTracking ch r) s = .next (s.after (s.dev.emit (.ddr 6 ch.val 0 [r.toNat]))))
  ∧ (∀ (d : Dev) (ch sub r : Nat), d.rankWaits (subKey ch sub) r = true → cnt (d.subOf (subKey ch sub)).post r < d.postpone ch →
    d.refreshDue ch sub r = d.updSub (subKey ch sub) (fun x => { x with post := setCnt x.post r (cnt x.post r + 1) }))
  ∧ (∀ (s : State) (ch : Chan) (r : BitVec 3) (t : Int), s.dev.dramOn = true → s.dev.rankHere ch.val r.toNat = true →
    (s.dev.rankOf (rankKey ch.val r.toNat)).trainTemp = none →
    exec (.temperatureDriftRetrain ch r t) s = .next (s.after (s.dev.updRank (rankKey ch.val r.toNat) (fun x => { x with trainTemp := some t }))))
  ∧ (∀ (s : State) (ch : Chan) (r : BitVec 3) (t t0 : Int), s.dev.dramOn = true → s.dev.rankHere ch.val r.toNat = true →
    (s.dev.rankOf (rankKey ch.val r.toNat)).trainTemp = some t0 → s.dev.get (fMCH_TRN_DRIFT_C ch.val) ≠ 0 →
    max (s.dev.get (fMCH_TRN_DRIFT_C ch.val)) 2 ≤ (t - t0).natAbs →
    exec (.temperatureDriftRetrain ch r t) s = .next (s.after (((s.dev.updRank (rankKey ch.val r.toNat) (fun x => { x with retrain := true, trainTemp := some t })).setBit
      (fMCH_STS_RETRAIN ch.val) r.toNat true).emit (.ddr 7 ch.val 0 [r.toNat]))))
  ∧ (∀ (s : State) (w : Writer) (ch : Chan), s.dev.allows w (rMCH_TRN ch.val) →
    exec (.retrainNow w ch) s = .next (s.after (s.dev.retrainAll ch.val)))
  ∧ (∀ (s : State) (ch : Chan) (r : BitVec 3), (s.dev.rankOf (rankKey ch.val r.toNat)).retrain = true →
    exec (.rankRetrainDone ch r) s = .next (s.after ((((s.dev.updRank (rankKey ch.val r.toNat) (fun x => { x with retrain := false })).setBit
      (fMCH_STS_RETRAIN ch.val) r.toNat false).bgEndOn 0xC410 (rankKey ch.val r.toNat) 0).nextRetrain ch.val)))
  ∧ (∀ (s : State) (c : Pkt), Admits s.dev rowRankRetrain c → c.at_ 0 1 < 24 → c.at_ 1 1 < 8 → s.dev.rankHere (c.at_ 0 1) (c.at_ 1 1) = true →
    exec (.rankRetrain c) s = .next (s.after ((((s.dev.updRank (rankKey (c.at_ 0 1) (c.at_ 1 1)) (fun x => { x with retrain := true, trainTemp := none })).setBit
      (fMCH_STS_RETRAIN (c.at_ 0 1)) (c.at_ 1 1) true).emit (.ddr 7 (c.at_ 0 1) 0 [c.at_ 1 1])).running rowRankRetrain c [rankKey (c.at_ 0 1) (c.at_ 1 1)])))

/-- A command slot makes up forced refreshes first and else issues the next command of the request that R117 picks: a precharge where
another row is open, an activate where none is, else its column command; requests grow urgent with age: 1 from one half of the port's
target, 2 from three quarters and 3 from the whole of it, and never at a port without one (with the model's choices in log entry 26)
(rests on R117, R119, R122, R123, R127). -/
def Obligations.SchedulerCommandsComplete : Prop :=
  (∀ (s : State) (ch : Chan) (sub : Bool) (legal : List Nat), s.dev.dramOn = true →
    exec (.commandSlotPick ch sub legal) s = .next (s.afterAcc (s.acc.slot ch.val sub.toNat legal)))
  ∧ (∀ (a : Acc) (ch sub r : Nat) (legal : List Nat), (∀ q ∈ (a.dev.subOf (subKey ch sub)).mq, q.stale = false) →
    (∀ i < 8, cnt (a.dev.subOf (subKey ch sub)).post i = 0) → r < 8 → cnt (a.dev.subOf (subKey ch sub)).forced r ≠ 0 →
    (∀ i < r, cnt (a.dev.subOf (subKey ch sub)).forced i = 0) →
    a.slot ch sub legal = a.upd (fun d => (d.updSub (subKey ch sub) (fun x => { x with forced := setCnt x.forced r (cnt x.forced r - 1) })).refreshOne ch sub r
      ((4 - cnt (a.dev.subOf (subKey ch sub)).forced r % 4) % 4)))
  ∧ (∀ (d : Dev) (ch sub : Nat) (vis c : List Cand), c.any (fun x => x.r.urg == 3) = true → c.any (fun x => x.r.urg == 3 && (d.subOf (subKey ch sub)).hit x) = false →
    d.slotPick ch sub vis c = (oldest (c.filter (fun x => x.r.urg == 3))).map (fun x => { c := x }))
  ∧ (∀ (d : SubS) (c : Cand), (tfind d.rows c.bankKey = none → d.command c = .activate) ∧
    ∀ r, tfind d.rows c.bankKey = some r → d.command c = if r.1 = c.x.row then .column else .precharge)
  ∧ (∀ (s : State) (ch : Chan) (sub : Bool) (id age : Nat), exec (.urgencyRise ch sub id age) s = .next (s.after
      (s.dev.updReq (subKey ch.val sub.toNat) id (fun r => match r.port with
        | some p => { r with urg := max r.urg (urgencyOf age (s.dev.target p)) }
        | none => r))))
  ∧ (∀ (s : State) (ch : Chan) (sub : Bool) (c : Cand), c ∈ s.dev.visible (subKey ch.val sub.toNat) →
    exec (.ageCapExpiry ch sub c.r.id) s = .next (s.after (s.dev.updReq (subKey ch.val sub.toNat) c.r.id (fun r => { r with urg := 3 }))))
  ∧ (∀ age t : Nat, (t = 0 → urgencyOf age t = 0) ∧ (t ≠ 0 → (urgencyOf age t = 0 ↔ 2 * age < t) ∧
    (urgencyOf age t = 1 ↔ t ≤ 2 * age ∧ 4 * age < 3 * t) ∧ (urgencyOf age t = 2 ↔ 3 * t ≤ 4 * age ∧ age < t) ∧ (urgencyOf age t = 3 ↔ t ≤ age)))

/-- A read of DRAM whose data comes back answers its request, or ends a step of the scrubber; a step begins with a line that a demand read
corrected, else with the line at the cursor (with the model's choices in log entries 7, 17, 83, 85) (rests on R18, R135, R138, R144). -/
def Obligations.DramReadsComplete : Prop :=
  (∀ (s : State) (ch : Chan) (sub : Bool) (id : Nat) (err : Codeword) (r : DReq) (rest : List DReq) (dl : Nat) (t : Trans) (b : LBuf),
    takeFirst (fun r => r.id == id) (s.dev.subOf (subKey ch.val sub.toNat)).issued = some (r, rest) → r.purp = .host dl →
    s.dev.transOf dl = some t → t.wait = .dram → tfind s.dev.home.lbuf dl = some b → b.part = none →
    exec (.dramReadData ch sub id err) s = .next (s.afterAcc (s.acc.upd (fun d =>
      (d.updSub (subKey ch.val sub.toNat) (fun x => { x with issued := rest })).endRead t (b.data, b.poison) true))))
  ∧ (∀ (s : State) (ch : Chan) (sub : Bool) (id : Nat) (err : Codeword) (r : DReq) (rest : List DReq) (v : Nat),
    takeFirst (fun r => r.id == id) (s.dev.subOf (subKey ch.val sub.toNat)).issued = some (r, rest) → r.purp = .scrub 1 none → r.served = none →
    s.dev.lineOut r.mpa = false → rsDecode (s.acc.line r.mpa ^^^ err) (s.dev.bankMark (s.dev.locOf (64 * r.mpa))) = .clean v →
    exec (.dramReadData ch sub id err) s = .next (s.afterAcc (s.acc.upd (fun d =>
      (d.updSub (subKey ch.val sub.toNat) (fun x => { x with issued := rest })).scrubEnd r.mpa))))
  ∧ (∀ s : State, s.dev.flag fMCH_SCRUB_CTL_EN = true → s.dev.dramOn = true → s.dev.pin.initSince = true → s.dev.mch.scrubBusy = false →
    exec .scrubStep s = .next (s.after (match s.dev.mch.scrubQ with
      | l :: t => ({ s.dev.scrubRate with mch := { s.dev.scrubRate.mch with scrubBusy := true, scrubQ := t } } : Dev).pushDram l none 6 (.scrub 1 none) 8 false none
      | [] => ({ s.dev.scrubRate with mch := { s.dev.scrubRate.mch with scrubBusy := true } } : Dev).pushDram
          (s.dev.redirect (s.dev.get fMCH_SCRUB_STS_CURSOR) / 64) none 6 (.scrub 1 none) 8 false none)))

/-- The retirement of frames and banks, and the repair of rows (with the model's choices in log entries 15, 30, 80) (rests on R150 to
R152). -/
def Obligations.RetirementCommandsComplete : Prop :=
  (∀ (s : State) (c : Pkt) (f : Nat), Admits s.dev rowFrameRetire c → c.at_ 0 8 < s.dev.fitted → c.at_ 0 8 / 4096 < s.dev.spareLo →
    tfind s.dev.mch.redirect (c.at_ 0 8 / 4096) = none → s.dev.spareFree = some f →
    exec (.frameRetire c) s = .next (s.after (({ s.dev with mch := { s.dev.mch with
        spares := s.dev.mch.spares ++ [f], retiring := some (c.at_ 0 8 / 4096, f, s.dev.mch.nextId, some s.dev.mgt.nextBg) } } : Dev).retStats.running rowFrameRetire c [c.at_ 0 8 / 4096])))
  ∧ (∀ (s : State) (f sp first orig : Nat) (bg : Option Nat) (a : Acc), s.dev.mch.retiring = some (f, sp, first, bg) → s.dev.frameBusy f first = false →
    a = (List.range 64).foldl (fun a i => (a.mended (f * 64 + i)).2.wrRaw (sp * 64 + i) (a.mended (f * 64 + i)).1) s.acc →
    orig = (a.dev.spareOf f).getD f →
    ∃ d e : Dev, exec .retireCopyDone s = .next (s.afterAcc (a.upd (fun _ => e))) ∧
      e = d.bgDoneOpt bg 0 noDetail [] ∧
      tfind d.mch.redirect orig = some sp ∧ d.mch.retiring = none ∧ d.flash.retire = a.dev.flash.retire ++ [(orig, sp)])
  ∧ (∀ (s : State) (c : Pkt), Admits s.dev rowBankRetire c → s.dev.bankBad c = none →
    exec (.bankRetire c) s = .next (s.after ((s.dev.bankRetire (bretOf c)).answered rowBankRetire c 0 [])))
  ∧ (∀ (d : Dev) (b : List Nat) (k : Nat), (d.brets (b.getD 0 0)).any (fun e => bretHolds e b) = false → d.bretFree (b.getD 0 0) = some k →
    d.bankRetire b = { d.putBret k b with flash := { d.flash with banks := d.flash.banks ++ [b] } })
  ∧ (∀ (s : State) (c : Pkt), Admits s.dev rowPprSoft c → s.dev.repairBad c = none →
    exec (.pprSoft c) s = .next (s.after ((s.dev.softStart (repairOf c) s.dev.mgt.nextBg).running rowPprSoft c [c.at_ 0 1])))
  ∧ (∀ (d : Dev) (r : List Nat) (i : Nat), ((d.softStart r i).subOf (subKey (r.getD 0 0) (r.getD 1 0))).blocked.contains (repairBank r) = true ∧
    tfind (d.softStart r i).mch.ppr (r.getD 0 0) = some (r ++ [i]))
  ∧ (∀ (s : State) (ch : Chan) (r : List Nat), tfind s.dev.mch.ppr ch.val = some r → tfind s.dev.mch.pprBuf ch.val = none →
    ∃ a : Acc, ∃ buf : List (Codeword × Codeword), exec (.pprSoftReadDone ch) s = .next (s.afterAcc (a.upd (fun d => d.emit (.ddr 8 ch.val (r.getD 1 0) (r.take 7))))) ∧
      tfind a.dev.mch.pprBuf ch.val = some buf ∧ a.log = [])
  ∧ (∀ (s : State) (ch : Chan) (r : List Nat) (buf : List (Codeword × Codeword)), tfind s.dev.mch.ppr ch.val = some r → tfind s.dev.mch.pprBuf ch.val = some buf →
    ∃ a : Acc, ∃ d e : Dev, exec (.pprSoftWriteback ch) s = .next (s.afterAcc (a.upd (fun _ => e))) ∧
      e = d.bgDone (r.getD 7 0) 0 noDetail [] ∧
      tfind d.mch.ppr ch.val = none ∧ tfind d.mch.pprBuf ch.val = none ∧ d.mch.pprUsed = a.dev.mch.pprUsed ++ [r.take 7 ++ [0]])
  ∧ (∀ (s : State) (c : Pkt), Admits s.dev rowPprHard c → s.dev.repairBad c = none →
    exec (.pprHard c) s = .next (s.after (({ s.dev with flash := { s.dev.flash with hardRepair := (s.dev.flash.hardRepair ++ [repairOf c]).eraseDups } } :
      Dev).answered rowPprHard c 0 [])))

/-- The commands of key ranges, the end of a tree's initialization, and the loss of a key slot (with the model's choices in log entry 42)
(rests on R155, R159, R181, R187, R188). -/
def Obligations.KeyCommandsComplete : Prop :=
  (∀ (s : State) (c : Pkt) (img : List Nat) (r : Bool × Dev), Admits s.dev rowKrCreate c → s.dev.krCreateBad c = none → img = (List.range 4).map (krImage c) →
    r = (s.dev.krDefine (c.at_ 0 1) img).readBack (krPairs (c.at_ 0 1)) →
    exec (.krCreate c) s = .next (s.after (if r.1 then
      ({ r.2 with flash := { r.2.flash with cfg := { r.2.flash.cfg with krs := tins r.2.flash.cfg.krs (c.at_ 0 1) (withCompl img) } } } : Dev).answered rowKrCreate c 0 []
      else r.2.failed rowKrCreate c 5)))
  ∧ (∀ (d : Dev) (n : Nat) (img : List Nat), n < 16 → ∃ d' : Dev, d.krDefine n img = d'.krChanged n ∧ d'.get (fSEC_KR_STS_STATE n) = 1 ∧
      tfind d'.sec.keys (2 * n) = none ∧ tfind d'.sec.keys (2 * n + 1) = none)
  ∧ (∀ (s : State) (c : Pkt), Admits s.dev rowKrRemove c → c.at_ 0 1 < 16 → s.dev.krState (c.at_ 0 1) ≠ 0 → s.dev.krState (c.at_ 0 1) ≠ 4 →
    s.dev.krUsed (c.at_ 0 1) = false →
    exec (.krRemove c) s = .next (s.afterAcc ((s.acc.krRemove (c.at_ 0 1)).upd (fun d => d.answered rowKrRemove c 0 []))))
  ∧ (∀ (s : State) (c : Pkt), Admits s.dev rowKeyLoad c → c.at_ 0 1 < 16 → c.at_ 1 1 = 1 → s.dev.krState (c.at_ 0 1) = 3 →
    exec (.keyLoad c) s = .next (s.after (((s.dev.putKey (c.at_ 0 1) 1 (loadKey c)).setFlag (fSEC_KR_STS_NEXT_LOADED (c.at_ 0 1)) true).answered rowKeyLoad c 0
      [0, 0, 0, 0])))
  ∧ (∀ (s : State) (c : Pkt), Admits s.dev rowKeyLoad c → c.at_ 0 1 < 16 → c.at_ 1 1 = 0 → s.dev.krState (c.at_ 0 1) = 1 →
    s.dev.flag (fSEC_KR_STS_KLOST (c.at_ 0 1)) = false → s.dev.krFresh (c.at_ 0 1) = false →
    exec (.keyLoad c) s = .next (s.after (((((s.dev.putKey (c.at_ 0 1) 0 (loadKey c)).set (fSEC_KR_KCV_KCV (c.at_ 0 1)) (kcvOf (loadKey c))).set
      (fSEC_KR_STS_STATE (c.at_ 0 1)) 3).storedWins (c.at_ 0 1)).answered rowKeyLoad c 0 (leOf 4 (kcvOf (loadKey c))))))
  ∧ (∀ (s : State) (n : KeyRange), s.dev.sec.init.contains n.toNat = true → s.dev.sec.away = false →
    exec (.counterTreeInitDone n) s = .next (s.afterAcc ((s.acc.initTree n.toNat).upd (fun d =>
      Dev.storedWins (Dev.keyLoadEnds (Dev.set { d with sec := { d.sec with init := d.sec.init.filter (· != n.toNat) } } (fSEC_KR_STS_STATE n.toNat) 3) n.toNat 0
        (leOf 4 (d.get (fSEC_KR_KCV_KCV n.toNat)))) n.toNat))))
  ∧ (∀ (s : State) (n : KeyRange) (nx : Bool), (tfind s.dev.sec.keys (2 * n.toNat + nx.toNat)).isSome = true → s.dev.krState n.toNat = 3 →
    ∃ d : Dev, exec (.keySlotLost n nx) s = .next (s.after (d.raise { src := src 24 2, sev := 4, obj := n.toNat })) ∧
      d.get (fSEC_KR_STS_STATE n.toNat) = 1 ∧ d.flag (fSEC_KR_STS_KLOST n.toNat) = true ∧ d.flag (fSEC_KR_STS_NEXT_LOADED n.toNat) = false ∧
      d.sec.keys = tdel (tdel s.dev.sec.keys (2 * n.toNat)) (2 * n.toNat + 1))
  ∧ (∀ (s : State) (c : Pkt), Admits s.dev rowSecHalt c → c.at_ 0 4 = 0x4C414854 →
    exec (.secHalt c) s = .next (s.after ((s.dev.haltNow 6 0 7 0 false).answered rowSecHalt c 0 [])))
  ∧ (∀ (s : State) (c : Pkt), Admits s.dev rowKeyRotate c → c.at_ 0 1 < 16 → s.dev.flag (fSEC_KR_STS_NEXT_LOADED (c.at_ 0 1)) = true →
    s.dev.krState (c.at_ 0 1) = 3 →
    ∃ d : Dev, exec (.keyRotate c) s = .next (s.after (d.answered rowKeyRotate c 0 [])) ∧ d.get (fSEC_KR_STS_STATE (c.at_ 0 1)) = 4 ∧
      d.get (fSEC_KR_ROTCUR_CURSOR (c.at_ 0 1)) = s.dev.krBase (c.at_ 0 1) % 2 ^ 46)

/-- What the engines of chapter 7 take up: an overflow that can proceed, the page at the cursor of a rotation, and the next node of a
quarantined subtree (with the model's choices in log entries 31, 42) (rests on R177, R181, R186). -/
def Obligations.CounterTreeCommandsComplete : Prop :=
  (∀ (s : State) (o : Ovf), s.dev.sec.ovf.find? s.dev.ovfReady = some o → s.dev.krCheck o.n = (true, s.dev) →
    exec .minorOverflowReencrypt s = .next (s.afterAcc (s.acc.ovfRun o)))
  ∧ (∀ (s : State) (n : KeyRange), s.dev.krState n.toNat = 4 → s.dev.halted = false → s.dev.pageQuiet (s.dev.get (fSEC_KR_ROTCUR_CURSOR n.toNat) / 4096) = true →
    s.dev.krCheck n.toNat = (true, s.dev) →
    exec (.rotationStep n) s = .next (s.afterAcc (s.acc.rotPage n.toNat)))
  ∧ (∀ (a : Acc) (n : Nat), a.dev.krFresh n = false → a.dev.winOf (a.dev.get (fSEC_KR_ROTCUR_CURSOR n) / 4096 * 4096) = none →
    a.dev.sec.nodes = [] → a.dev.sec.mlines = [] →
    a.dev.krBase n + a.dev.krSize n > a.dev.get (fSEC_KR_ROTCUR_CURSOR n) + 4096 →
    ∃ f : Dev → Dev, a.rotPage n = a.upd f ∧ (f a.dev).get (fSEC_KR_ROTCUR_CURSOR n) = (a.dev.get (fSEC_KR_ROTCUR_CURSOR n) / 4096 * 4096 + 4096) % 2 ^ 46)
  ∧ (∀ (s : State) (n : KeyRange) (q : Quar), s.dev.krUsable n.toNat = true → s.dev.sec.quar.find? (fun q => q.n == n.toNat) = some q → q.curLevel ≠ q.level →
    s.dev.krCheck n.toNat = (true, s.dev) →
    exec (.treeRebuildStep n) s = .next (s.afterAcc ((s.acc.rebuildNode q q.ctr).quarStep q (s.dev.quarNext q))))
  ∧ (∀ (d : Dev) (n : Nat), ∃ d' : Dev, d.rotEnd n = d' ∧ d'.get (fSEC_KR_STS_STATE n) = 3 ∧ d'.flag (fSEC_KR_STS_NEXT_LOADED n) = false ∧
      d'.flag (fSEC_KR_STS_EXH n) = false ∧ d'.flag (fSEC_KR_STS_GEN n) = !d.flag (fSEC_KR_STS_GEN n) ∧ tfind d'.sec.keys (2 * n + 1) = none)

/-- Decodes, re-encodes and the movers of pages of tiered windows (with the model's choices in log entries 12, 15, 43, 45, 80, 82) (rests
on R22, R202, R209, R211, R212, R221, R222, R224, R226). -/
def Obligations.TieringCommandsComplete : Prop :=
  (∀ (s : State) (x : BitVec 36), s.dev.tier.decoding.contains x.toNat = true →
    exec (.subBlockDecodeDone x .none) s = .next (s.afterAcc (s.acc.decodeDone x.toNat .none)) ∧
    (s.acc.decodeDone x.toNat .none).dev.tier.decoding.contains x.toNat = false)
  ∧ (∀ (s : State) (bank : BitVec 2) (e : HEnt) (w : Nat), s.dev.tier.reQ.find? (fun e => hlcBank (e.x / 4) == bank.toNat) = some e →
    s.dev.encodes = true → s.acc.PageReady (e.x / 4) w → s.dev.krExh (s.dev.winKr w) = false →
    exec (.pageReencode bank) s = .next (s.afterAcc (s.acc.reencode w (e.x / 4)).retryTier))
  ∧ (∀ (s : State) (pg : BitVec 34) (w : Nat), s.dev.tier.promoQ.contains pg.toNat = true → s.dev.flag fCDC_CTL_MIG_EN = true → s.dev.basic = false →
    s.dev.get fCDC_LEVEL_LEVEL = 0 → s.acc.PageReady pg.toNat w →
    exec (.promote pg) s = .next (s.afterAcc ((s.acc.upd (fun d =>
      { d with tier := { d.tier with promoQ := d.tier.promoQ.filter (· != pg.toNat) } })).promote w pg.toNat).retryTier))
  ∧ (∀ (s : State) (pg : BitVec 34) (w : Nat), s.dev.flag fCDC_CTL_MIG_EN = true → s.acc.PageReady pg.toNat w →
    (s.acc.pent w pg.toNat).2.demotable w pg.toNat (s.acc.pent w pg.toNat).1 = true →
    exec (.demote pg) s = .next (s.afterAcc ((s.acc.pent w pg.toNat).2.demote w pg.toNat (s.acc.pent w pg.toNat).1).retryTier))
  ∧ (∀ (s : State) (pg : BitVec 34) (w : Nat), s.dev.compacts = true → s.acc.PageReady pg.toNat w →
    exec (.compact pg) s = .next (s.afterAcc (s.acc.compact w pg.toNat).retryTier))
  ∧ (∀ (s : State) (pg : BitVec 34) (w : Nat), s.dev.flag fCDC_CTL_MIG_EN = true → s.dev.get fCDC_MIG_SCAN_S ≠ 0 → s.dev.basic = false →
    s.acc.PageReady pg.toNat w →
    exec (.scannerVisit pg) s = .next (s.afterAcc (s.acc.scan w pg.toNat).retryTier))
  ∧ (∀ (s : State) (pg : BitVec 34) (w : Nat), s.dev.get fCDC_LEVEL_LEVEL = 0 → s.acc.PageReady pg.toNat w →
    exec (.reserveReturn pg) s = .next (s.afterAcc (s.acc.reserveReturn w pg.toNat).retryTier))
  ∧ (∀ (s : State) (pg : BitVec 34) (w r : Nat), s.dev.flag fCDC_CTL_SWEEP_EN = true → s.dev.basic = false → s.acc.dropRank pg.toNat = some r →
    s.acc.isNext r = true → s.acc.PageReady pg.toNat w →
    exec (.discardSweeperDrop pg) s = .next (s.afterAcc (s.acc.sweepDrop w pg.toNat).retryTier))
  ∧ (∀ s : State, s.dev.flag fCDC_STS_ORPHAN_SWEEP = true → exec .orphanSweep s = .next (s.afterAcc s.acc.orphanSweep.retryTier))
  ∧ (∀ s : State, s.dev.tier.rebuild = true →
    exec .poolCounterRebuild s = .next (s.afterAcc s.acc.poolRebuild.retryTier) ∧ s.acc.poolRebuild.dev.tier.rebuild = false ∧
    ∀ e ∈ s.acc.poolRebuild.dev.tier.frames, e.2.1 ≠ 3)

/-- The capacity commands, and where each writes what it sets (with the model's choices in log entry 44) (rests on R48, R213, R214, R220).
-/
def Obligations.CapacityCommandsComplete : Prop :=
  (∀ (s : State) (c : Pkt), Admits s.dev rowCapLayout c → s.dev.layoutBad (layoutIn c) = none →
    exec (.capLayout c) s = .next (s.after (({ s.dev.setLayout (layoutIn c) with
      flash := { s.dev.flash with cfg := { s.dev.flash.cfg with layout := layoutIn c } } } : Dev).cdatFollow.answered rowCapLayout c 0 [])))
  ∧ (∀ (s : State) (c : Pkt), Admits s.dev rowCapThresholds c → c.at_ 2 2 < c.at_ 0 2 → c.at_ 0 2 ≤ 500 → 1 ≤ c.at_ 2 2 → 1 ≤ c.at_ 4 2 → c.at_ 4 2 ≤ 100 →
    ∃ d : Dev, exec (.capThresholds c) s = .next (s.after ((d.relevel.cfgRegs [rCDC_WM]).answered rowCapThresholds c 0 [])) ∧
      d.get fCDC_WM_AMBER_PM = c.at_ 0 2 ∧ d.get fCDC_WM_RED_PM = c.at_ 2 2 ∧ d.get fCDC_WM_HYST_PM = c.at_ 4 2)
  ∧ (∀ (s : State) (c : Pkt), Admits s.dev rowCapWindowPolicy c → s.dev.winValid (c.at_ 0 1) = true → s.dev.winTiered (c.at_ 0 1) = true →
    c.at_ 1 1 ≤ 1 → c.at_ 2 1 ≤ 1 → (c.at_ 2 1 = 1 → s.dev.winKind (c.at_ 0 1) = 2) →
    ∃ d : Dev, exec (.capWindowPolicy c) s = .next (s.after ((d.cfgRegs [rCDC_WPOL (c.at_ 0 1)]).answered rowCapWindowPolicy c 0 [])) ∧
      d.get (fCDC_WPOL_MODE (c.at_ 0 1)) = c.at_ 1 1 ∧ d.get (fCDC_WPOL_DROP_AT (c.at_ 0 1)) = c.at_ 2 1 ∧
      ∀ k, k ≠ rCDC_WPOL (c.at_ 0 1) → d.rd k = s.dev.rd k)
  ∧ (∀ (s : State) (c : Pkt), Admits s.dev rowCapTierLimits c → (∀ i < 5, c.at_ (2 * i) 1 ≤ c.at_ (2 * i + 1) 1) →
    ∃ d : Dev, exec (.capTierLimits c) s = .next (s.after (d.keepLimits.answered rowCapTierLimits c 0 [])) ∧
      d.mgt.tierLim = (List.range 10).map (fun i => c.at_ i 1) ∧ d.flash.cfg.tierLim = (List.range 10).map (fun i => c.at_ i 1) ∧ d.csr = s.dev.csr)
  ∧ (∀ (s : State) (c : Pkt), Admits s.dev rowCapDcRegion c → s.dev.dcBad (c.at_ 0 1) (c.at_ 1 1) (c.at_ 4 4) (c.at_ 8 4) = none →
    ∃ d : Dev, exec (.capDcRegion c) s = .next (s.after (d.answered rowCapDcRegion c 0 [])) ∧
      tfind d.win.dc (c.at_ 0 1) = (if c.at_ 8 4 = 0 then tfind (tdel s.dev.win.dc (c.at_ 0 1)) (c.at_ 0 1) else some (c.at_ 4 4, c.at_ 8 4, c.at_ 1 1)))

/-- The pair link trains, comes up, and goes down for the cause that each event gives (with the model's choices in log entries 47, 90, 95)
(rests on R228, R244, R245, R247, R250). -/
def Obligations.PairLinkEventsComplete : Prop :=
  (∀ s : State, s.dev.linkSt = 0 → exec .retryTimerExpiry s = .next (s.after ({ s.dev with pair := { s.dev.pair with retryOk := true } } : Dev).tryTrain))
  ∧ (∀ s : State, exec .pairPresentHigh s = .next (s.after ((({ s.dev with pin := { s.dev.pin with pairPresent := false } } : Dev).setFlag
      fPAIR_STS_PRESENT false).linkDown 13)))
  ∧ (∀ s : State, exec .pairPresentLow s = .next (s.after ((({ s.dev with pin := { s.dev.pin with pairPresent := true } } : Dev).setFlag
      fPAIR_STS_PRESENT true).tryTrain)))
  ∧ (∀ (s : State) (w : Writer), s.dev.allows w rPAIR_CTL →
    exec (.pairCtlEn w true) s = .next (s.after (s.dev.setFlag fPAIR_CTL_EN true).tryTrain.wakePartner) ∧
    exec (.pairCtlEn w false) s = .next (s.after ((s.dev.setFlag fPAIR_CTL_EN false).linkDown 6)))
  ∧ (∀ (d : Dev), d.canTrain = true → d.tryTrain.linkSt = 1 ∧ d.tryTrain.rd rPAIR_SEQ = wordPut 0 fPAIR_SEQ_ACKED.lo fPAIR_SEQ_ACKED.w 4095 ∧
      d.tryTrain.pair.outst = [] ∧ d.tryTrain.pair.session = false)
  ∧ (∀ (s : State) (tx rx : BitVec 16) (slow : Bool), s.dev.linkSt = 1 → s.dev.trainsSlow = slow → 4 ≤ popCount 16 tx.toNat → 4 ≤ popCount 16 rx.toNat →
    s.dev.mir.pairing = none →
    ∃ d : Dev, exec (.pairTrainingDone tx rx slow) s = .next (s.after d) ∧ d.linkSt = 2 ∧ d.get fPAIR_LANE_STS_TX_ACTIVE = tx.toNat ∧
      d.get fPAIR_LANE_STS_RX_ACTIVE = rx.toNat ∧ d.get fPAIR_STS_TX_W = popCount 16 tx.toNat % 32 ∧ d.flag fPAIR_STS_RATE = slow ∧ d.pair.trainFails = 0)
  ∧ (∀ s : State, s.dev.linkSt = 1 → exec .trainTimeout s = .next (s.after s.dev.trainFail))
  ∧ (∀ s : State, s.dev.linkSt = 2 → exec .setupTimeout s = .next (s.after (s.dev.linkDown 8)))
  ∧ (∀ s : State, s.dev.linkSt = 2 ∨ s.dev.linkSt = 3 →
    exec .lockLoss s = .next (s.after (if s.dev.pauseSent then s.dev.enterPaused else s.dev.linkDown 1)))
  ∧ (∀ (s : State) (vc : BitVec 2), s.dev.linkSt = 2 ∨ s.dev.linkSt = 3 → s.dev.txq vc.toNat ≠ [] →
    s.dev.get (fPAIR_VC_AVAIL vc.toNat) ≤ (if vc.toNat = 2 then 1 else 0) →
    exec (.creditTimeout vc) s = .next (s.after (s.dev.linkDown 2)))
  ∧ (∀ s : State, s.dev.linkSt = 4 → exec .pauseTimeout s = .next (s.after (s.dev.linkDown 10)))
  ∧ (∀ (s : State) (tx rx : BitVec 16), s.dev.linkSt = 4 →
    exec (.pairRetrainDone tx rx) s = .next (s.after (s.dev.pairRetrained tx.toNat rx.toNat)))
  ∧ (∀ (d : Dev) (tx rx : Nat), 4 ≤ popCount 16 (firstLanes tx d.pair.pauseW) → 4 ≤ popCount 16 (firstLanes rx d.pair.pauseW) →
    ∃ d' : Dev, d.pairRetrained tx rx = (if d.mir.shGot then d'.resumeAll else d').bgDoneOpt d.pair.pauseBg 0 noDetail [] ∧ d'.linkSt = 3 ∧ d'.pair.pause = 0 ∧
      d'.pair.replay = d.pair.outst.map (fun f => f.seq) ∧ ∀ v < 4, d'.get (fPAIR_VC_AVAIL v) = cnt d.pair.credits v % 2 ^ (fPAIR_VC_AVAIL v).w)
  ∧ (∀ (s : State) (lane : BitVec 4), s.dev.linkSt = 3 → s.dev.flag fPAIR_CTL_DROP_EN = true → s.dev.bit fPAIR_LANE_STS_RX_ACTIVE lane.toNat = true →
    s.dev.pair.rxDrop = [] → 5 ≤ s.dev.get fPAIR_STS_RX_W →
    exec (.laneFailure ⟨lane, none⟩) s = .next (s.after ((({ s.dev with pair := { s.dev.pair with rxDrop := [lane.toNat] } } : Dev).setTxq 2
      ([pmsg 0x23 (leOf 1 lane.toNat)] ++ s.dev.txq 2)).raise { src := src 31 0, sev := 3, code := 250, obj := lane.toNat })))
  ∧ (∀ (s : State) (lane : BitVec 4) (n : BitVec 32), s.dev.get fPAIR_LANE_SER_THR = 0 ∨ n.toNat ≤ s.dev.get fPAIR_LANE_SER_THR →
    exec (.laneFailure ⟨lane, some n⟩) s = .next (s.after s.dev))
  ∧ (∀ (s : State) (k : Nat) (t : List Nat), s.dev.linkSt = 2 ∨ s.dev.linkSt = 3 → s.dev.pair.rxDrop = k :: t →
    ∃ d : Dev, exec .restripeSlot s = .next (s.after d) ∧ d.pair.rxDrop = t ∧ d.bit fPAIR_LANE_STS_RX_ACTIVE k = false ∧
      d.get fPAIR_STS_RX_W = popCount 16 (d.get fPAIR_LANE_STS_RX_ACTIVE) % 32)
  ∧ (∀ s : State, s.dev.linkSt = 5 → exec .wakePatternDetect s = .next (s.afterAcc s.acc.wakeSeen))
  ∧ (∀ s : State, s.dev.linkSt = 5 → s.dev.pair.waking = true → exec .wakePatternEnd s = .next (s.after s.dev.enterTrain))

/-- Frames are sent, received and replayed, and keys are renewed (with the model's choices in log entries 33, 46, 88, 89, 90, 94) (rests
on R236, R239, R243, R244). -/
def Obligations.PairFramesComplete : Prop :=
  (∀ s : State, s.dev.linkSt = 2 ∨ s.dev.linkSt = 3 → exec .frameSlotSend s = .next (s.after s.dev.frameSlot))
  ∧ (∀ (d : Dev) (v : Nat), d.pair.txRestripe = [] → d.pair.txCnt < keyLimit → d.pair.replay = [] → d.pair.halt = none → d.nextVc = some v →
    d.frameSlot = (d.sendSome v).tryUp)
  ∧ (∀ (d : Dev), d.pair.txRestripe = [] → d.pair.txCnt < keyLimit → d.pair.replay = [] → d.pair.halt = none → d.nextVc = none →
    d.pair.sleepOk = false → d.frameSlot = d.sendNull.tryUp)
  ∧ (∀ s : State, s.dev.linkSt = 2 ∨ s.dev.linkSt = 3 → s.dev.pair.outst ≠ [] → s.dev.pauseSent = false →
    s.dev.pair.expiries + 1 < (if s.dev.get fPAIR_TMR1_REPLAY_MAX = 0 then 15 else s.dev.get fPAIR_TMR1_REPLAY_MAX) →
    ∃ d : Dev, exec .replayTimerExpiry s = .next (s.after d) ∧ d.pair.replay = s.dev.pair.outst.map (fun f => f.seq) ∧
      d.pair.expiries = s.dev.pair.expiries + 1 ∧ ∀ k, k ≠ rPAIR_ERRCNT0 → d.rd k = s.dev.rd k)
  ∧ (∀ s : State, s.dev.linkSt = 3 → s.dev.fwUp = true → s.dev.pair.rxNew = none →
    ∃ d : Dev, exec (.keyUpdate true) s = .next (s.after d) ∧ d.pair.rxNew.isSome = true ∧ d.pair.txNext = s.dev.pair.txNext)
  ∧ (∀ s : State, s.dev.linkSt = 3 → s.dev.fwUp = true → s.dev.pair.txNext = none → 2 ^ 31 ≤ s.dev.pair.txCnt →
    ∃ d : Dev, exec (.keyUpdate false) s = .next (s.after d) ∧ d.pair.txNext.isSome = true ∧ d.pair.rxNew = s.dev.pair.rxNew)
  ∧ (∀ (s : State) (f : FrameIn), s.dev.linkSt = 2 ∨ s.dev.linkSt = 3 → s.dev.frameGood f = true →
    exec (.pairFrameReceive f) s = .next (s.afterAcc (if (inHdr f).null then s.acc.upd (fun d => d.frameIn f) else
      (s.acc.upd (fun d => d.frameIn f)).wake 4)))
  ∧ (∀ (d : Dev) (f : FrameIn) (ph : RxPhase) (k : PKey) (c : Nat), f.fecOk = true → d.frameKey (inHdr f) = some (ph, k, c) → k.verifies c f.bytes = true →
    d.frameIn f = d.verified (inHdr f) (k.body c f.bytes) ph c)
  ∧ (∀ (s : State) (f : FrameIn), s.dev.linkSt = 2 ∨ s.dev.linkSt = 3 → f.fecOk = false →
    exec (.pairFrameReceive f) s = .next (s.afterAcc (s.acc.upd (fun d => d.bumpSat fPAIR_ERRCNT0_FEC_UNC 1))))

/-- What the messages of VC2 that concern the link itself do, and PAIR_LINK_SET (with the model's choices in log entries 46, 90, 94)
(rests on R233 to R235, R249 to R253). -/
def Obligations.PairMessagesComplete : Prop :=
  (∀ (s : State) (m : PMsg) (hs : PairHs) (peer : BitVec 256), s.dev.rxHead 2 = some m → m.mtype = 0x20 → (m.at_ 0 1).testBit 0 = true →
    (m.at_ 0 1).testBit 1 = true → (s.dev.rxTake 2).pair.spdmIn = none →
    exec (.spdm hs peer) s = .next (s.after (Dev.pairSpdmIn { s.dev.rxTake 2 with pair := { (s.dev.rxTake 2).pair with spdmIn := none } } hs peer.toNat)))
  ∧ (∀ (s : State) (m : PMsg) (hs : PairHs) (peer : BitVec 256), s.dev.rxHead 2 = some m → m.mtype = 0x20 → (m.at_ 0 1).testBit 0 = true →
    (m.at_ 0 1).testBit 1 = false → (s.dev.rxTake 2).pair.spdmIn = none →
    exec (.spdm hs peer) s = .next (s.after { s.dev.rxTake 2 with pair := { (s.dev.rxTake 2).pair with spdmIn := some (m.payload.drop 1) } }))
  ∧ (∀ (d : Dev) (peer : Nat) (r : Nat × Nat), d.fwUp = true → d.linkSt = 2 → d.mir.pairing = some r → r.2 = ofBytes (sha256 (toBytes 32 peer)) →
    d.pair.session = false →
    (d.pairSpdmIn (.done true) peer).pair.session = true ∧ (d.pairSpdmIn (.done true) peer).pair.txNext.isSome = true ∧
    (d.pairSpdmIn (.done true) peer).pair.rxNew.isSome = true ∧ (d.pairSpdmIn (.done true) peer).get fSEC_PAIR_STS_KEY_EPOCH = 0)
  ∧ (∀ (s : State) (m : PMsg), s.dev.rxHead 2 = some m → m.mtype = 0x21 → s.dev.linkSt = 3 → s.dev.pair.pause = 0 →
    exec .pauseReq s = .next (s.after ((s.dev.rxTake 2).pauseReqIn m)))
  ∧ (∀ (d : Dev) (m : PMsg), d.pair.pause = 0 → d.pair.pauseBg = none → (∀ x ∈ d.txq 2, x.mtype ≠ 0x21) → (d.pauseReqIn m).linkSt = d.linkSt ∧
    (d.pauseReqIn m).txq 2 = d.txq 2 ++ [pmsg 0x22 []] ∧ (d.pauseReqIn m).pair.pause = 2 ∧ (d.pauseReqIn m).pair.pauseW = m.at_ 0 1 ∧
    (d.pauseReqIn m).pair.pauseR = m.at_ 1 1)
  ∧ (∀ (s : State) (m : PMsg), s.dev.rxHead 2 = some m → m.mtype = 0x22 → s.dev.linkSt = 3 → s.dev.pair.pause = 1 →
    ∃ d : Dev, exec .pauseAck s = .next (s.after d) ∧ d.linkSt = 4 ∧ d.pair.pause = 3 ∧ (∀ v < 4, d.get (fPAIR_VC_AVAIL v) = 0) ∧
      ∀ v < 4, cnt d.pair.credits v = s.dev.get (fPAIR_VC_AVAIL v))
  ∧ (∀ (s : State) (m : PMsg), s.dev.rxHead 2 = some m → m.mtype = 0x23 → s.dev.linkSt = 3 →
    s.dev.bit fPAIR_LANE_STS_TX_ACTIVE (m.at_ 0 1) = true → s.dev.pair.txRestripe = [] → 5 ≤ s.dev.get fPAIR_STS_TX_W →
    ∃ d : Dev, exec .laneDrop s = .next (s.after d) ∧ d.pair.txRestripe = [m.at_ 0 1])
  ∧ (∀ (s : State) (m : PMsg), s.dev.rxHead 2 = some m → m.mtype = 0x24 → s.dev.linkSt = 3 → (List.range 256).any s.dev.mirLive = true →
    exec .sleepReq s = .next (s.after ((s.dev.rxTake 2).pairPush 2 (pmsg 0x25 (leOf 1 1)))))
  ∧ (∀ (s : State) (m : PMsg), s.dev.rxHead 2 = some m → m.mtype = 0x24 → s.dev.linkSt = 3 → (List.range 256).any s.dev.mirLive = false →
    (∀ v < 4, s.dev.txq v = []) → s.dev.pair.outst = [] →
    ∃ d : Dev, exec .sleepReq s = .next (s.after d) ∧ d.txq 2 = [pmsg 0x25 (leOf 1 0)] ∧ d.pair.sleepAcked = true)
  ∧ (∀ (s : State) (m : PMsg), s.dev.rxHead 2 = some m → m.mtype = 0x25 → s.dev.linkSt = 3 → s.dev.pair.sleepReq = true →
    exec .sleepAck s = .next (s.after (if m.at_ 0 1 = 0 then { s.dev.rxTake 2 with pair := { (s.dev.rxTake 2).pair with sleepOk := true } }
      else { s.dev.rxTake 2 with pair := { (s.dev.rxTake 2).pair with sleepReq := false } })))
  ∧ (∀ (s : State) (m : PMsg), s.dev.rxHead 2 = some m → m.mtype = 0x26 → exec .pairHalt s = .next (s.after ((s.dev.rxTake 2).linkDown 7)))
  ∧ (∀ (s : State) (c : Pkt), Admits s.dev rowPairLinkSet c → 4 ≤ c.at_ 0 1 → c.at_ 0 1 ≤ 16 → c.at_ 1 1 ≤ 1 → s.dev.linkSt = 3 → s.dev.pair.pause = 0 →
    ∃ d : Dev, exec (.pairLinkSet c) s = .next (s.after (d.running rowPairLinkSet c [c.at_ 0 1, c.at_ 1 1])) ∧
      d.txq 2 = s.dev.txq 2 ++ [pmsg 0x21 (leOf 1 (c.at_ 0 1) ++ leOf 1 (c.at_ 1 1))] ∧ d.pair.pause = 1 ∧ d.pair.pauseW = c.at_ 0 1 ∧
      d.pair.pauseR = c.at_ 1 1)

/-- The commands of mirroring (with the model's choices in log entries 34, 48, 95) (rests on R254, R255, R257, R264, R265, R272). -/
def Obligations.MirrorCommandsComplete : Prop :=
  (∀ (s : State) (c : Pkt), Admits s.dev rowMirPair c → c.at_ 0 1 ≤ 1 →
    exec (.mirPair c) s = .next (s.after ((s.dev.setPairing (c.at_ 0 1) (c.at_ 4 32)).answered rowMirPair c 0 [])))
  ∧ (∀ (s : State) (c : Pkt), Admits s.dev rowMirTarget c → s.dev.winValid (c.at_ 0 1) = true → s.dev.winKind (c.at_ 0 1) = 0 →
    s.dev.winShared (c.at_ 0 1) = false → s.dev.winMirrored (c.at_ 0 1) = false → s.dev.winCovered (c.at_ 0 1) = false →
    s.dev.mirSt (c.at_ 0 1) = 0 ∨ s.dev.mirSt (c.at_ 0 1) = mirPromoted →
    ∃ d : Dev, exec (.mirTarget c) s = .next (s.after ((d.setMir (c.at_ 0 1) mirTarget).answered rowMirTarget c 0 [])) ∧
      d.get (fPAIR_MIRW_STS_PEER (c.at_ 0 1)) = c.at_ 1 1 ∧ d.flag (fPAIR_MIRW_STS_PEER_SET (c.at_ 0 1)) = true ∧
      d.flag (fPAIR_MIRW_STS_VALID (c.at_ 0 1)) = false ∧ tfind d.flash.cfg.targets (c.at_ 0 1) = some (c.at_ 1 1))
  ∧ (∀ (s : State) (c : Pkt), Admits s.dev rowMirUntarget c → s.dev.mirSt (c.at_ 0 1) = mirTarget →
    ∃ d : Dev, exec (.mirUntarget c) s = .next (s.after (((d.forgetTarget (c.at_ 0 1)).setMir (c.at_ 0 1) 0).answered rowMirUntarget c 0 [])) ∧
      d.flag (fPAIR_MIRW_STS_PEER_SET (c.at_ 0 1)) = false ∧ d.flag (fPAIR_MIRW_STS_VALID (c.at_ 0 1)) = false)
  ∧ (∀ (s : State) (c : Pkt), Admits s.dev rowMirResume c → s.dev.mirSt (c.at_ 0 1) = mirSolo → s.dev.linkSt = 3 →
    exec (.mirResume c) s = .next (s.after ((s.dev.resumeWin (c.at_ 0 1)).answered rowMirResume c 0 [])))
  ∧ (∀ (s : State) (c : Pkt), Admits s.dev rowMirResume c → s.dev.mirSt (c.at_ 0 1) = mirSolo → s.dev.linkSt ≠ 3 →
    exec (.mirResume c) s = .next (s.after ((s.dev.set (fPAIR_MIRW_STS_CAUSE (c.at_ 0 1)) 1).wakePartner.answered rowMirResume c 0 [])))
  ∧ (∀ (s : State) (c : Pkt), Admits s.dev rowMirBitmap c → c.at_ 0 2 ≤ 256 → s.dev.windows.any s.dev.winMirrored = false →
    ∃ d : Dev, exec (.mirBitmapArea c) s = .next (s.after (d.bmFree.answered rowMirBitmap c 0 [])) ∧ d.get fPAIR_MIR_BMAREA_UNITS = c.at_ 0 2 ∧
      d.flash.cfg.bmUnits = c.at_ 0 2)
  ∧ (∀ (s : State) (c : Pkt) (r : List Nat), Admits s.dev rowMirShadow c → c.at_ 0 1 = 0 → tfind s.dev.mir.shWin (c.at_ 1 1) = some r →
    exec (.mirShadowRead c) s = .next (s.after (s.dev.answered rowMirShadow c 0 (r.flatMap (leOf 4)))))
  ∧ (∀ (s : State) (c : Pkt), Admits s.dev rowMirPromote c → s.dev.mirSt (c.at_ 0 1) = mirTarget → s.dev.linkSt ≠ 3 →
    s.dev.flag fPAIR_MIR_STS_SB_ALIVE = true → s.dev.mir.sbFlags.testBit 1 = false → s.dev.mir.claim = none →
    ∃ d : Dev, exec (.mirPromote c) s = .next (s.after ((d.sbSend 3 (s.dev.get (fPAIR_MIRW_STS_PEER (c.at_ 0 1)))).running rowMirPromote c [c.at_ 0 1])) ∧
      d.mir.claim = some (c.at_ 0 1, s.dev.get (fPAIR_MIRW_STS_PEER (c.at_ 0 1)), some s.dev.mgt.nextBg))
  ∧ (∀ (s : State) (c : Pkt), Admits s.dev rowMirPromote c → s.dev.mirSt (c.at_ 0 1) = mirTarget → s.dev.linkSt ≠ 3 →
    s.dev.flag fPAIR_MIR_STS_SB_ALIVE = false → c.at_ 1 1 % 2 = 1 → s.dev.mir.claim = none →
    exec (.mirPromote c) s = .next (s.after ((s.dev.promoteTarget (c.at_ 0 1)).answered rowMirPromote c 0 [])))

/-- The mirror messages that arrive: what each leaves, and the answer that it is given (with the model's choices in log entries 32, 48,
91) (rests on R257, R259, R260, R265, R268). -/
def Obligations.MirrorMessagesComplete : Prop :=
  (∀ (s : State) (m : PMsg), s.dev.linkSt = 3 → s.dev.rxHead 2 = some m → m.mtype = 0x28 →
    exec .srec s = .next (s.after ((s.dev.rxTake 2).srecIn m)))
  ∧ (∀ (d : Dev) (kind i gen g0 : Nat) (words old : List Nat), kind = 0 → tfind d.mir.shWin i = some (g0 :: old) →
    d.shadowPut kind i gen words = (if 1 ≤ (gen + 2 ^ 32 - g0) % 2 ^ 32 ∧ (gen + 2 ^ 32 - g0) % 2 ^ 32 ≤ 2 ^ 31 then
      { d with mir := { d.mir with shWin := tins d.mir.shWin i (gen :: words) } } else d))
  ∧ (∀ (s : State) (m : PMsg), s.dev.linkSt = 3 → s.dev.rxHead 2 = some m → m.mtype = 0x29 → (s.dev.rxTake 2).mir.shGot = false →
    exec .sack s = .next (s.after ({ s.dev.rxTake 2 with mir := { (s.dev.rxTake 2).mir with shGot := true } } : Dev).resumeAll))
  ∧ (∀ (s : State) (m : PMsg), s.dev.linkSt = 3 → s.dev.rxHead 2 = some m → m.mtype = 0x2A →
    ∃ d : Dev, exec .mstate s = .next (s.after (d.targetValid (m.at_ 0 1) (m.at_ 1 1) ((m.at_ 2 1).testBit 1))) ∧
      tfind d.mir.shMst (m.at_ 0 1) = some [m.at_ 1 1, m.at_ 2 1, m.at_ 3 2])
  ∧ (∀ (s : State) (m : PMsg), s.dev.linkSt = 3 → s.dev.rxHead 0 = some m → m.mtype = 1 →
    ∃ d : Dev, exec .mwr s = .next (s.after d) ∧ d.mir.apply = (s.dev.rxTake 0).mir.apply ++ [m])
  ∧ (∀ (s : State) (m : PMsg), s.dev.linkSt = 3 → s.dev.rxHead 0 = some m → m.mtype = 2 →
    ∃ d : Dev, exec .mwrp s = .next (s.after d) ∧ d.mir.apply = (s.dev.rxTake 0).mir.apply ++ [m])
  ∧ (∀ (s : State) (m : PMsg), s.dev.linkSt = 3 → s.dev.rxHead 0 = some m → m.mtype = 3 →
    ∃ d : Dev, exec .mpoi s = .next (s.after d) ∧ d.mir.apply = (s.dev.rxTake 0).mir.apply ++ [m])
  ∧ (∀ (s : State) (m : PMsg), s.dev.linkSt = 3 → s.dev.rxHead 1 = some m → m.mtype = 0x10 →
    exec .mack s = .next (s.after ((s.dev.rxTake 1).mackIn (m.at_ 0 4))))
  ∧ (∀ (s : State) (m x : PMsg), s.dev.linkSt = 3 → s.dev.rxHead 1 = some m → m.mtype = 0x11 →
    (s.dev.rxTake 1).mir.unacked.find? (fun y => y.num == m.at_ 0 4) = some x →
    exec .mfail s = .next (s.after (((s.dev.rxTake 1).enterSolo x.win 2).markDirty x.win x.granule)))
  ∧ (∀ (s : State) (m : PMsg), s.dev.linkSt = 3 → s.dev.rxHead 3 = some m → m.mtype = 0x30 →
    exec .rtrd s = .next (s.afterAcc ((s.acc.upd (fun _ => { s.dev.rxTake 3 with mir := { (s.dev.rxTake 3).mir with
      rtHeld := (s.dev.rxTake 3).mir.rtHeld ++ [⟨m.at_ 0 1, m.at_ 1 5, m.at_ 6 2, m.at_ 8 4⟩] } })).releaseRt)))
  ∧ (∀ (s : State) (m : PMsg), s.dev.linkSt = 3 → s.dev.rxHead 3 = some m → m.mtype = 0x31 →
    exec .rtdata s = .next (s.afterAcc ((s.acc.upd (fun d => d.rxTake 3)).rtdataIn m)))
  ∧ (∀ (s : State) (m : PMsg) (rest : List PMsg) (f : Nat) (d : Dev), s.dev.linkSt = 3 → s.dev.halted = false → s.dev.mir.apply = m :: rest →
    s.dev.mirFault (m.at_ 0 1) (m.at_ 2 5) = (f, d) → f ≠ 0 →
    exec .mirrorApply s = .next (s.afterAcc ((s.acc.upd (fun _ =>
      Dev.pairPush { d.pairPush 1 (pmsg 0x11 (leOf 4 d.mir.applied ++ leOf 1 f)) with
        mir := { (d.pairPush 1 (pmsg 0x11 (leOf 4 d.mir.applied ++ leOf 1 f))).mir with apply := rest, applied := (d.mir.applied + 1) % 2 ^ 32 } }
        1 (pmsg 0x10 (leOf 4 ((d.mir.applied + 1) % 2 ^ 32))))).releaseRt)))
  ∧ (∀ (s : State) (m : PMsg) (rest : List PMsg) (d : Dev) (b : Acc), s.dev.linkSt = 3 → s.dev.halted = false → s.dev.mir.apply = m :: rest →
    s.dev.mirFault (m.at_ 0 1) (m.at_ 2 5) = (0, d) → (s.acc.upd (fun _ => d)).applyMsg (m.at_ 0 1) m = (.ok, b) →
    exec .mirrorApply s = .next (s.afterAcc ((b.upd (fun e => Dev.pairPush { e with mir := { e.mir with apply := rest, applied := (e.mir.applied + 1) % 2 ^ 32 } }
      1 (pmsg 0x10 (leOf 4 ((e.mir.applied + 1) % 2 ^ 32))))).releaseRt)))
  ∧ (∀ (a : Acc) (t : Nat) (m : PMsg), m.mtype = 3 → a.dev.ovfLocked t (a.dev.winBase t / 64 + m.at_ 2 5) = false →
    (a.dev.krFresh (a.dev.winKr t) && a.dev.inQuar (a.dev.winKr t) 0 (a.dev.leafOf (a.dev.winKr t) (a.dev.winBase t / 64 + m.at_ 2 5))) = false →
    a.dev.lineOut (a.dev.backedMpa t ((a.dev.winBase t / 64 + m.at_ 2 5) * 64) / 64) = false →
    a.applyMsg t m = (.ok, a.upd (fun d => d.storeMarker (a.dev.winBase t / 64 + m.at_ 2 5)
      (a.dev.backedMpa t ((a.dev.winBase t / 64 + m.at_ 2 5) * 64) / 64) 8 (max 1 (m.at_ 1 1 % 8)) false none)))
  ∧ (∀ (a a1 b : Acc) (t : Nat) (m : PMsg) (q : Req), m.mtype = 1 → a.dev.winNoKey t = false →
    q = agentReq .apply 8 t (a.dev.winBase t / 64 + m.at_ 2 5) (.wr .i (lineOfBytes (m.payload.drop 8)) false) →
    a.dropWrite q = (false, a1) → a1.tryWrite q .cmp = (.ok, b) → a.applyMsg t m = (.ok, b.upd (fun d => d.retired q)))

/-- The primary's side: copies, waiting writes, fences and the rebuild of a slot (with the model's choices in log entry 48) (rests on
R261, R262, R266, R270). -/
def Obligations.MirrorCopiesComplete : Prop :=
  (∀ (s : State) (w : WinId), s.dev.linkSt = 3 → s.dev.mirSt w.toNat = mirCopy →
    exec (.granuleCopy w) s = .next (s.afterAcc (s.acc.copyStep w.toNat)))
  ∧ (∀ (a : Acc) (w g : Nat), a.dev.nextCopy w = some g → a.dev.lineOut (a.dev.backedMpa w (a.dev.winBase w + g * 256) / 64) = true →
    a.copyStep w = a.upd (fun d => if (d.markDirty w g).isDirty w g = true then (d.markDirty w g).copyPast w else d.markDirty w g))
  ∧ (∀ (s : State) (q : Req) (t : List Req), s.dev.mir.waits = q :: t → (s.dev.mirFull && s.dev.mirLive q.win) = false →
    exec .mirrorQueueEntry s = .next (s.afterAcc (Acc.retryWrite (s.acc.upd (fun d => { d with mir := { d.mir with waits := t } })) q)))
  ∧ (∀ (s : State) (h : Head) (w : WinId), s.dev.cfgOnly h.toNat = false → (s.dev.winValid w.toNat = false ∨ s.dev.winMirrored w.toNat = false) →
    exec (.pairMirFenceRead h w) s = .next (s.after ((s.dev.set (fPAIR_MIRW_FENCE_RESULT w.toNat) 3).emit (.csrValue h.toNat 3))))
  ∧ (∀ (s : State) (h : Head) (w : WinId), s.dev.cfgOnly h.toNat = false → s.dev.winValid w.toNat = true → s.dev.winMirrored w.toNat = true → s.dev.mirSt w.toNat ≠ mirInsync →
    exec (.pairMirFenceRead h w) s = .next (s.after ((s.dev.set (fPAIR_MIRW_FENCE_RESULT w.toNat) 1).emit (.csrValue h.toNat 1))))
  ∧ (∀ (s : State) (h : Head) (w : WinId), s.dev.cfgOnly h.toNat = false → s.dev.winValid w.toNat = true → s.dev.winMirrored w.toNat = true → s.dev.mirSt w.toNat = mirInsync →
    (∀ m ∈ s.dev.mir.unacked, m.win ≠ w.toNat) →
    exec (.pairMirFenceRead h w) s = .next (s.after ((s.dev.set (fPAIR_MIRW_FENCE_RESULT w.toNat) 0).emit (.csrValue h.toNat 0))))
  ∧ (∀ (s : State) (w : WinId) (f : Nat × Nat × Nat) (rest : List (Nat × Nat × Nat)),
    takeFirst (fun f => f.2.1 == w.toNat) s.dev.mir.fences = some (f, rest) →
    exec (.fenceTimeout w) s = .next (s.after ((({ s.dev with mir := { s.dev.mir with fences := rest } } : Dev).set
      (fPAIR_MIRW_FENCE_RESULT w.toNat) 2).emit (.csrValue f.1 2))))
  ∧ (∀ (s : State) (sl w g0 g : Nat) (t : List (Nat × Nat × Nat)), s.dev.pin.mainUp = true → s.dev.mir.rebuild = (sl, w, g0) :: t →
    s.dev.onSlot sl w g0 = some g → s.dev.linkSt = 3 → s.dev.rebuildReads (s.dev.winBase w / 64 + 4 * g) = false → s.dev.granFree w g = true →
    s.dev.partnerCurrent w g = true →
    exec .slotRebuildStep s = .next (s.afterAcc (s.acc.upd (fun d =>
      (List.range 4).foldl (fun d i => d.sendRt w (s.dev.winBase w / 64 + 4 * g + i) true) d))))

/-- The messages of the sideband, each with a right CRC (with the model's choices in log entry 48) (rests on R271, R272, R274). -/
def Obligations.SidebandCommandsComplete : Prop :=
  (∀ (s : State) (m : SidebandMsg) (n : Nat) (d : Dev), d = ({ s.dev with mir := { s.dev.mir with sbFlags := m.flags.toNat } } : Dev).setFlag fPAIR_MIR_STS_SB_ALIVE true →
    1 ≤ n → n ≤ 5 → m.crc.toNat = crc16 ([n, m.flags.toNat] ++ toBytes 4 m.arg.toNat) →
    (n = 1 → exec (.beat m) s = .next (s.after (d.setFlag fPAIR_MIR_STS_PEER_HALTED (m.flags.toNat.testBit 1)).roleCheck)) ∧
    (n = 2 → exec (.sidebandHalt m) s = .next (s.after (d.linkDown 7).roleCheck)) ∧
    (n = 3 → d.winCovered (m.arg.toNat % 256) = true → exec (.sbClaim m) s = .next (s.after (d.sbSend 5 (m.arg.toNat % 256)).roleCheck)) ∧
    (n = 3 → d.winCovered (m.arg.toNat % 256) = false →
      exec (.sbClaim m) s = .next (s.after ((d.setMir (m.arg.toNat % 256) mirYielded).sbSend 4 (m.arg.toNat % 256)).roleCheck)) ∧
    (n = 4 → ∀ (t : Nat) (bg : Option Nat), d.mir.claim = some (t, m.arg.toNat, bg) →
      exec (.sbYield m) s = .next (s.after ((({ d with mir := { d.mir with claim := none } } : Dev).promoteTarget t).bgDoneOpt bg 0 noDetail []).roleCheck)) ∧
    (n = 5 → ∀ (t : Nat) (bg : Option Nat), d.mir.claim = some (t, m.arg.toNat, bg) →
      exec (.sbRefuse m) s = .next (s.after (({ d with mir := { d.mir with claim := none } } : Dev).bgDoneOpt bg stPeerAlive noDetail []).roleCheck)))
  ∧ (∀ (s : State) (m : SidebandMsg), m.crc.toNat ≠ crc16 ([1, m.flags.toNat] ++ toBytes 4 m.arg.toNat) → exec (.beat m) s = .next (s.after s.dev))
  ∧ (∀ (s : State) (t p : Nat) (bg : Option Nat), s.dev.mir.claim = some (t, p, bg) →
    exec .claimTimeout s = .next (s.after (({ s.dev with mir := { s.dev.mir with claim := none } } : Dev).bgDoneOpt bg stPeerAlive noDetail [])))
  ∧ (∀ s : State, exec .sidebandDead s = .next (s.after (s.dev.setFlag fPAIR_MIR_STS_SB_ALIVE false)))

/-- Doorbells, queues, fetches, dispatch, ends and records of jobs, and what a fetch, a dispatch and a record do where nothing stands in
their way (with the model's choices in log entries 35, 36, 96) (rests on R279 to R284, R286, R297, R301, R302, R305). -/
def Obligations.JobCommandsComplete : Prop :=
  (∀ (s : State) (h : Head) (q : BitVec 4) (n : BitVec 32), (s.dev.portOf h.toNat).up = true → (s.dev.portOf h.toNat).cxl = true →
    cntDiff n.toNat (s.dev.get (fJDB_HEAD_COUNT h.toNat q.toNat)) ≤ s.dev.dqSize h.toNat q.toNat →
    ∃ d : Dev, exec (.jdbTailWrite h q n) s = .next (s.after d) ∧ d.get (fJDB_TAIL_COUNT h.toNat q.toNat) = n.toNat ∧
      ∀ k, k ≠ rJDB_TAIL h.toNat q.toNat → d.rd k = s.dev.rd k)
  ∧ (∀ (s : State) (h : Head) (q : BitVec 4) (n : BitVec 32), (s.dev.portOf h.toNat).up = true → (s.dev.portOf h.toNat).cxl = true →
    s.dev.dqSize h.toNat q.toNat < cntDiff n.toNat (s.dev.get (fJDB_HEAD_COUNT h.toNat q.toNat)) →
    exec (.jdbTailWrite h q n) s = .next (s.after (s.dev.badDoorbell h.toNat q.toNat)))
  ∧ (∀ (s : State) (h : Head) (q : BitVec 4) (n : BitVec 32), (s.dev.portOf h.toNat).up = true → (s.dev.portOf h.toNat).cxl = true →
    cntDiff (s.dev.get (fJDB_CQTAIL_COUNT h.toNat q.toNat)) n.toNat ≤ s.dev.cqSize h.toNat q.toNat →
    ∃ d : Dev, exec (.jdbCqheadWrite h q n) s = .next (s.after d) ∧ d.get (fJDB_CQHEAD_COUNT h.toNat q.toNat) = n.toNat ∧
      ∀ k, k ≠ rJDB_CQHEAD h.toNat q.toNat → d.rd k = s.dev.rd k)
  ∧ (∀ (s : State) (h : Head) (q : BitVec 4) (ctl : BitVec 32), (s.dev.portOf h.toNat).up = true → (s.dev.portOf h.toNat).cxl = true → ctl.getLsbD 0 = true →
    s.dev.get (fJDB_STS_STATE h.toNat q.toNat) = 0 →
    exec (.queueEnable h q ctl) s = .next (s.after (s.dev.queueEnable h.toNat q.toNat ctl.toNat)))
  ∧ (∀ (d : Dev) (h q ctl : Nat), h < 32 → q < 16 → (((d.set (fJDB_CTL_QLOG h q) (ctl / 4 % 32)).set (fJDB_CTL_CLOG h q) (ctl / 128 % 32)).set (fJDB_CTL_VEC h q)
      (ctl / 4096 % 64)).queueOk h q = true →
    (d.queueEnable h q ctl).get (fJDB_STS_STATE h q) = 1 ∧ (d.queueEnable h q ctl).get (fJDB_STS_CAUSE h q) = 0 ∧
    (d.queueEnable h q ctl).flag (fJDB_CTL_EN h q) = true ∧ (d.queueEnable h q ctl).get (fJDB_TAIL_COUNT h q) = 0 ∧
    (d.queueEnable h q ctl).get (fJDB_HEAD_COUNT h q) = 0 ∧ (d.queueEnable h q ctl).get (fJDB_CQHEAD_COUNT h q) = 0 ∧
    (d.queueEnable h q ctl).get (fJDB_CQTAIL_COUNT h q) = 0 ∧ (d.queueEnable h q ctl).get (fJDB_CTL_QLOG h q) = ctl / 4 % 32 ∧
    (d.queueEnable h q ctl).get (fJDB_CTL_CLOG h q) = ctl / 128 % 32 ∧ (d.queueEnable h q ctl).get (fJDB_CTL_VEC h q) = ctl / 4096 % 64)
  ∧ (∀ (s : State) (h : Head) (q : BitVec 4), (s.dev.portOf h.toNat).up = true → (s.dev.portOf h.toNat).cxl = true → s.dev.get (fJDB_STS_STATE h.toNat q.toNat) = 1 →
    s.dev.get (fJDB_STS_CAUSE h.toNat q.toNat) = 0 → s.dev.jobsOf h.toNat q.toNat ≠ [] →
    ∃ d : Dev, exec (.queueDisable h q) s = .next (s.after d) ∧ d.get (fJDB_STS_STATE h.toNat q.toNat) = 3 ∧
      d.flag (fJDB_CTL_EN h.toNat q.toNat) = false ∧ d.job.jobs = s.dev.job.jobs)
  ∧ (∀ (s : State) (h : Head) (q : BitVec 4), (s.dev.portOf h.toNat).up = true → (s.dev.portOf h.toNat).cxl = true → s.dev.get (fJDB_STS_STATE h.toNat q.toNat) = 2 →
    s.dev.resumable h.toNat q.toNat = true →
    ∃ d : Dev, exec (.queueResume h q) s = .next (s.after d) ∧ d.get (fJDB_STS_STATE h.toNat q.toNat) = 1 ∧ d.get (fJDB_STS_CAUSE h.toNat q.toNat) = 0)
  ∧ (∀ (s : State) (h : Head) (q : BitVec 4), s.dev.mayFetch h.toNat q.toNat = true →
    exec (.descriptorFetch h q) s = .next (s.after { s.dev with job := { s.dev.job with fetching := s.dev.job.fetching ++ [h.toNat * 16 + q.toNat] } }))
  ∧ (∀ (s : State) (h : Head) (q : BitVec 4), s.dev.jobsRun = true → s.dev.job.fetching.contains (h.toNat * 16 + q.toNat) = true →
    exec (.descriptorFetched h q) s = .next (s.afterAcc (s.acc.fetched h.toNat q.toNat)))
  ∧ (∀ (s : State) (sl : BitVec 3), s.dev.jobsRun = true → s.dev.sliceFree sl.toNat = true →
    exec (.jobDispatch sl) s = .next (s.afterAcc (s.acc.dispatch sl.toNat)))
  ∧ (∀ (s : State) (sl : BitVec 3) (t : BitVec 32) (j : JobE), s.dev.jobsRun = true →
    s.dev.job.jobs.find? (fun j => j.slice == sl.toNat && j.place == 1) = some j → j.ready = true → j.todo = [] →
    exec (.jobEnd sl t) s = .next (s.afterAcc (s.acc.upd (fun d => Dev.joinJobs d ((d.endJob { j with time := t.toNat }).startStaged sl.toNat)))))
  ∧ (∀ (s : State) (h : Head) (q : BitVec 4), s.dev.halted = false → s.dev.fatal = false →
    exec (.completionRecordWrite h q) s = .next (s.afterAcc (s.acc.writeRecord h.toNat q.toNat)))
  ∧ (∀ (s : State) (c : Pkt), Admits s.dev rowSliceEn c → (c.at_ 0 1 &&& s.dev.present) = c.at_ 0 1 →
    exec (.jobSliceEn c) s = .next (s.after (((s.dev.setSlices (c.at_ 0 1)).cfgRegs [rJOB_CTL]).answered rowSliceEn c 0 [])))
  ∧ (∀ (s : State) (c : Pkt), Admits s.dev rowQueueClass c → c.at_ 0 1 < 32 → c.at_ 1 1 < 16 → c.at_ 2 1 < 8 →
    ∃ d : Dev, exec (.jobQueueClass c) s = .next (s.after (d.answered rowQueueClass c 0 [])) ∧
      d.get (fJDB_STS_CLASS (c.at_ 0 1) (c.at_ 1 1)) = c.at_ 2 1 ∧
      tfind d.flash.cfg.regs (rJDB_STS (c.at_ 0 1) (c.at_ 1 1)) = some (c.at_ 2 1 * 32))
  ∧ (∀ (a b : Acc) (h q : Nat) (xs : List PLine), a.dev.get (fJDB_STS_STATE h q) = 1 → tfind a.dev.job.halting (h * 16 + q) = none →
    a.dev.jobRange h { lo := a.dev.dqAddr h q (a.dev.get (fJDB_HEAD_COUNT h q)), len := 128, wr := false } = none →
    a.dev.rangeMoves { lo := a.dev.dqAddr h q (a.dev.get (fJDB_HEAD_COUNT h q)), len := 128, wr := false } = false →
    a.readLines (.fetch h q) (a.dev.queueClass (h * 16 + q)) (rangeLines (a.dev.dqAddr h q (a.dev.get (fJDB_HEAD_COUNT h q))) 128) = (some xs, b) →
    firstPoison (rangeLines (a.dev.dqAddr h q (a.dev.get (fJDB_HEAD_COUNT h q))) 128) xs = none →
    a.fetched h q = b.upd (fun d => Dev.joinJobs d ((d.fetchGone h q).storeJob h q (xs.flatMap (fun x => bytesOfLine x.1)))))
  ∧ (∀ (d : Dev) (j : JobE) (s : Nat), j.isRecon = false → d.jobRanges j.head j.allRanges = none → d.dispatchJob j s = d.placeJob j s)
  ∧ (∀ (d : Dev) (j : JobE) (s st lo slot : Nat), j.isRecon = false → d.jobRanges j.head j.allRanges = some (st, lo, slot) →
    d.dispatchJob j s = (d.jobMiss j.head lo).endJob { j with status := st, result := lo, opidx := slot })
  ∧ (∀ (d : Dev) (j : JobE) (dpa : Nat), tfind d.job.halting (j.head * 16 + j.queue) = none →
    ∃ d' : Dev, d.jobPoison j dpa = d'.raise { src := src 33 2, sev := 2, code := 302, obj := j.head * 16 + j.queue, addr := dpa, akind := 1, head := some j.head } ∧
      tfind d'.job.halting (j.head * 16 + j.queue) = some (1, dpa, d.dqSlot j.head j.queue j.seq))

/-- The commands of service classes (with the model's choices in log entry 50) (rests on R307, R308, R316, R318). -/
def Obligations.QosCommandsComplete : Prop :=
  (∀ (s : State) (c : Pkt) (f : Nat), Admits s.dev rowQosClassmap c → c.at_ 0 1 < 32 → s.dev.formed (c.at_ 0 1) = some f →
    ∃ d : Dev, exec (.qosClassmapSet c) s = .next (s.after (d.answered rowQosClassmap c 0 [])) ∧
      (∀ n < 32, d.get (fPDV_ALIAS_MAP_CLASSMAP (c.at_ 0 1) n) = c.at_ 4 3) ∧
      tfind d.flash.cfg.regs (rPDV_ALIAS_MAP (c.at_ 0 1) 0) = some (c.at_ 4 3))
  ∧ (∀ (s : State) (c : Pkt), Admits s.dev rowQosClass c → s.dev.classBad c = none →
    ∃ d : Dev, exec (.qosClassSet c) s = .next (s.after (d.answered rowQosClass c 0 [])) ∧ d.qos.pend = s.dev.qos.pend ++ [classImage c] ∧ d.csr = s.dev.csr)
  ∧ (∀ (s : State) (c : Pkt), Admits s.dev rowQosPort c → s.dev.portBad c = none → c.at_ 1 1 = 0 →
    ∃ d : Dev, exec (.qosPortSet c) s = .next (s.after (d.answered rowQosPort c 0 [])) ∧ d.get (fQOS_PORT_CFG_MODE (c.at_ 0 1)) = 0 ∧
      d.get (fQOS_PORT_BUDGET_BYTES (c.at_ 0 1)) = c.at_ 4 4 ∧ d.get (fMCH_PTGT_TGT_NS (c.at_ 0 1)) = c.at_ 8 2)

/-- What the firmware image, log and link-configuration commands leave and answer (with the model's choices in log entries 50, 67) (rests
on R350, R351, R359, R360). -/
def Obligations.FirmwareCommandsComplete : Prop :=
  (∀ (s : State) (c : Pkt), Admits s.dev rowFwTransfer c → c.at_ 0 4 = 0 → (c.payload.drop 4).length ≤ 2 ^ 23 →
    ∃ d : Dev, exec (.fwTransfer c) s = .next (s.after (d.answered rowFwTransfer c 0 [])) ∧ (d.img s.dev.idleSlot).bytes = c.payload.drop 4 ∧
      (d.img s.dev.idleSlot).verified = false)
  ∧ (∀ (s : State) (c : Pkt), Admits s.dev rowFwTransfer c → c.at_ 0 4 ≠ 0 → c.at_ 0 4 = (s.dev.img s.dev.idleSlot).bytes.length →
    c.at_ 0 4 + (c.payload.drop 4).length ≤ 2 ^ 23 →
    ∃ d : Dev, exec (.fwTransfer c) s = .next (s.after (d.answered rowFwTransfer c 0 [])) ∧
      (d.img s.dev.idleSlot).bytes = (s.dev.img s.dev.idleSlot).bytes ++ c.payload.drop 4)
  ∧ (∀ (s : State) (c : Pkt), Admits s.dev rowFwActivate c → c.at_ 0 1 ≤ 1 → c.at_ 0 1 = s.dev.get fMGT_STS_SLOT →
    exec (.fwActivate c) s = .next (s.after ((s.dev.answered rowFwActivate c 0 []).fwVerify s.dev.mgt.nextBg s.otp.rollback)))
  ∧ (∀ (s : State) (c : Pkt), Admits s.dev rowFwActivate c → c.at_ 0 1 ≤ 1 → c.at_ 0 1 ≠ s.dev.get fMGT_STS_SLOT → (s.dev.img (c.at_ 0 1)).complete = true →
    exec (.fwActivate c) s = .next (s.after ((s.dev.running rowFwActivate c [c.at_ 0 1]).fwVerify s.dev.mgt.nextBg s.otp.rollback)))
  ∧ (∀ (s : State) (c : Pkt), Admits s.dev rowFwInfo c →
    exec (.fwInfo c) s = .next (s.after (s.dev.answered rowFwInfo c 0 ((s.dev.fwInfo s.otp.rollback).map (BitVec.ofNat 8)))))
  ∧ (∀ (s : State) (c : Pkt), Admits s.dev rowLogRead c → 1 ≤ c.at_ 4 2 → c.at_ 4 2 ≤ 64 → trCode c.tr = 0 → s.dev.logFrom (c.at_ 0 4) (c.at_ 4 2) = [] →
    exec (.logRead c) s = .next (s.after (s.dev.answered rowLogRead c 0 (leOf 4 (c.at_ 0 4)))))
  ∧ (∀ (s : State) (c : Pkt), Admits s.dev rowLinkConfig c → s.dev.linkBad c = none →
    exec (.linkConfig c) s = .next (s.afterAcc (heads.foldl Acc.releaseRx (s.acc.upd (fun d => (d.linkSet c).answered rowLinkConfig c 0 [])))))

/-- Grants, registers by command, background replies, packets whose opcode no command answers, and packets that join the queue (with the
model's choices in log entries 60, 98, 120, 122) (rests on R30, R332, R333, R334, R338, R456). -/
def Obligations.AdministrationCommandsComplete : Prop :=
  (∀ (s : State) (c : Pkt) (r : Bool × Dev), Admits s.dev rowCsrGrant c →
    r = (s.dev.wrPair rTOP_CSR_WRGRANT rTOP_CSR_WRGRANT_C (c.at_ 0 4)).readBack [(rTOP_CSR_WRGRANT, rTOP_CSR_WRGRANT_C)] →
    exec (.mgtCsrGrant c) s = .next (s.after (if r.1 then (r.2.cfgRegs [rTOP_CSR_WRGRANT]).answered rowCsrGrant c 0 [] else r.2.failed rowCsrGrant c 5)) ∧
    (r.1 = true → r.2.rd rTOP_CSR_WRGRANT = c.at_ 0 4 ∧ r.2.rd rTOP_CSR_WRGRANT_C = 0xffffffff - c.at_ 0 4))
  ∧ (∀ (s : State) (c : Pkt) (r : Bool × Dev), Admits s.dev rowCmdGrant c →
    r = (s.dev.wrPair rMGT_CMD_GRANT rMGT_CMD_GRANT_C (c.at_ 0 4)).readBack [(rMGT_CMD_GRANT, rMGT_CMD_GRANT_C)] →
    exec (.mgtCmdGrant c) s = .next (s.after (if r.1 then (r.2.cfgRegs [rMGT_CMD_GRANT]).answered rowCmdGrant c 0 [] else r.2.failed rowCmdGrant c 5)) ∧
    (r.1 = true → r.2.rd rMGT_CMD_GRANT = c.at_ 0 4 ∧ r.2.rd rMGT_CMD_GRANT_C = 0xffffffff - c.at_ 0 4))
  ∧ (∀ (s : State) (c : Pkt) (a : RegAt), Admits s.dev rowRegWrite c → c.plen.toNat = 12 → accessOk (c.at_ 0 4) 4 = some a → regAt (c.at_ 0 4) = some a →
    a.r.width = 32 → (c.at_ 8 4 &&& a.cmdBits) = c.at_ 8 4 → s.dev.unitOff a.key = false →
    exec (.devRegWrite c) s = .next (s.after (((s.dev.regAct .firmware a (c.at_ 4 4) (c.at_ 8 4)).cfgSettings a).answered rowRegWrite c 0 [])))
  ∧ (∀ (s : State) (c : Pkt), Admits s.dev rowRegRead c → c.at_ 0 4 % 4 = 0 → c.at_ 4 2 = 1 → c.at_ 0 4 + 4 ≤ 2 ^ 26 →
    exec (.devRegRead c) s = .next (s.after (s.dev.answered rowRegRead c 0 (leOf 4 (s.dev.halfRead (c.at_ 0 4) + 65536 * s.dev.halfRead (c.at_ 0 4 + 2))))))
  ∧ (∀ (s : State) (i : Nat) (b : BgCmd), tfind s.dev.mgt.bg i = some b → b.done = true →
    exec (.backgroundCommandComplete i) s = .next (s.after (({ s.dev with mgt := { s.dev.mgt with bg := tdel s.dev.mgt.bg i } } : Dev).sendReply b
      b.status 0 b.detail b.body)))
  ∧ (∀ (s : State) (c : Pkt) (op opc mb : BitVec 16), op.toNat + opc.toNat ≠ 0xffff → trCode c.tr ≠ 0 → s.dev.deaf false c = false →
    exec (.unknownOpcode c op opc mb) s = .next (s.after (s.dev.sendReply (s.dev.cmdOf c op.toNat true []) stOpcodeMismatch (c.flags.toNat % 2) 2 [])))
  ∧ (∀ (s : State) (c : Pkt) (op opc mb : BitVec 16), op.toNat + opc.toNat = 0xffff → trCode c.tr ≠ 0 → s.dev.deaf false c = false → cmdRow op.toNat = none →
    exec (.unknownOpcode c op opc mb) s = .next (s.after (s.dev.sendReply (s.dev.cmdOf c op.toNat true []) stUnknownOpcode (c.flags.toNat % 2) 0 [])))
  ∧ (∀ (a : Acc) (r : CmdRow) (c : Pkt) (check : Acc → Option (Nat × Nat)) (eff : Nat → Acc → CmdEnd × Acc), a.dev.deaf (r.cls == .q) c = false →
    (trCode c.tr = 0 → c.mailboxLen.toNat = 16 + c.plen.toNat) → a.dev.queues c = true →
    a.command r c check eff = a.upd (fun d => { d with mgt := { d.mgt with cmdq := d.mgt.cmdq ++ [{ op := r.op, pkt := c }] } }))

/-- The commands of the fault hub (with the model's choices in log entries 50, 120) (rests on R369 to R371, R377, R382, R383). -/
def Obligations.FaultCommandsComplete : Prop :=
  (∀ (s : State) (c : Pkt) (k : Nat) (r : Bool × Dev), Admits s.dev rowFltReact c → srcMaxSev (c.at_ 0 2) ≠ 0 →
    reactOk (srcMaxSev (c.at_ 0 2)) (c.at_ 2 1) = true → k = c.at_ 0 2 / 16 →
    r = (s.dev.wrPair (rFLT_REACT k) (rFLT_REACT_C k) (wordPut (s.dev.rd (rFLT_REACT k)) (2 * (c.at_ 0 2 % 16)) 2 (c.at_ 2 1))).readBack
      [(rFLT_REACT k, rFLT_REACT_C k)] →
    exec (.fltReactSet c) s = .next (s.after (if r.1 then (r.2.cfgRegs [rFLT_REACT k]).answered rowFltReact c 0 [] else r.2.failed rowFltReact c 5)))
  ∧ (∀ (s : State) (c : Pkt) (r : Bool × Dev), Admits s.dev rowFltGlobal c → 10 ≤ c.at_ 0 3 → c.at_ 0 3 ≤ 100000 → 1 ≤ c.at_ 3 1 → c.at_ 3 1 ≤ 5 →
    r = (s.dev.wrPair rFLT_GLOBAL rFLT_GLOBAL_C (c.at_ 0 3 + c.at_ 3 1 * 2 ^ 17)).readBack [(rFLT_GLOBAL, rFLT_GLOBAL_C)] →
    exec (.fltGlobalSet c) s = .next (s.after (if r.1 then
      (Dev.cfgRegs { r.2 with flt := { r.2.flt with globalBad := false } } [rFLT_GLOBAL]).answered rowFltGlobal c 0 [] else r.2.failed rowFltGlobal c 5)))
  ∧ (∀ (s : State) (c : Pkt) (k : Nat), Admits s.dev rowFltClear c → s.dev.recAt (c.at_ 0 8) = some k →
    exec (.fltClear c) s = .next (s.after ((((s.dev.logHeld k).wr (rFLT_REC_CTL k) 0).drop fFLT_STS_HELD 1).answered rowFltClear c 0 [])))
  ∧ (∀ (s : State) (c : Pkt), Admits s.dev rowBasicExit c → (∀ k < 64, s.dev.recValid k = true → 3 ≤ s.dev.recSev k → s.dev.flag (fFLT_REC_CTL_ESCALATED k) = false) →
    exec (.basicExit c) s = .next (s.after (({ s.dev.setFlag fFLT_STS_BASIC false with flt := { s.dev.flt with basicStep := 0 } } : Dev).answered rowBasicExit c 0 [])))
  ∧ (∀ (s : State) (c : Pkt), Admits s.dev rowInjectUnlock c → 1 ≤ c.at_ 0 4 → c.at_ 0 4 ≤ 600 →
    exec (.fltInjectUnlock c) s = .next (s.after ((s.dev.setFlag fMGT_STS_INJ_UNLOCK true).answered rowInjectUnlock c 0 [])))
  ∧ (∀ s : State, s.dev.flag fMGT_STS_INJ_UNLOCK = true → exec .injectionUnlockExpiry s = .next (s.after
      { s.dev.setFlag fMGT_STS_INJ_UNLOCK false with flt := { s.dev.flt with inj := [] } }))
  ∧ (∀ (s : State) (c : Pkt), Admits s.dev rowInject c → s.dev.injBad c = none → c.at_ 0 1 ≠ 1 →
    ∃ d : Dev, exec (.fltInject c) s = .next (s.after (d.answered rowInject c 0 [])) ∧ (⟨c.at_ 0 1, c.at_ 4 8, c.at_ 1 1⟩ : Inj) ∈ d.flt.inj)
  ∧ (∀ (s : State) (c : Pkt), Admits s.dev rowInject c → s.dev.injBad c = none → c.at_ 0 1 = 1 →
    exec (.fltInject c) s = .next (s.after ((s.dev.pushDram (c.at_ 4 8 / 64) none 6 (.scrub 1 (some (s.dev.mgt.nextBg, c.at_ 1 1))) 8 false none).running
      rowInject c [1])))

/-- What follows a fault record, and what the checkers of channels and clocks find (with the model's choices in log entries 37, 49) (rests
on R370, R371, R375, R378, R379). -/
def Obligations.FaultEventsComplete : Prop :=
  (∀ (s : State) (w : Writer) (k : BitVec 6), s.dev.allows w (rFLT_REC_CTL k.toNat) → s.dev.recValid k.toNat = true → s.dev.recSev k.toNat ≠ 1 →
    exec (.fltAck w k) s = .next (s.after (s.dev.setFlag (fFLT_REC_CTL_ACK k.toNat) true)))
  ∧ (∀ (s : State) (k : BitVec 6), s.dev.fwUp = true → s.dev.recValid k.toNat = true → s.dev.flt.toLog.contains k.toNat = true → s.dev.recSrc k.toNat ≠ src 8 0 →
    exec (.faultRecordTakeUp k) s = .next (s.after (({ s.dev with flt := { s.dev.flt with toLog := s.dev.flt.toLog.filter (· != k.toNat) } }.logFault
      (s.dev.rd (rFLT_REC k.toNat))).ackRec k.toNat)))
  ∧ (∀ (s : State) (k : BitVec 6), s.dev.recValid k.toNat = true → s.dev.recAcked k.toNat = false → s.dev.recReact k.toNat = 2 → 3 ≤ s.dev.recSev k.toNat →
    s.dev.flag (fFLT_REC_CTL_ESCALATED k.toNat) = false →
    exec (.escalationTimerExpiry k) s = .next (s.after (s.dev.escalateRec k.toNat)))
  ∧ (∀ s : State, s.dev.basic = true → s.dev.flt.basicStep = 1 →
    exec .basicWriteoutDone s = .next (s.afterAcc (s.acc.flushHlc.upd (fun d => { d with flt := { d.flt with basicStep := 2 } }))))
  ∧ (∀ (s : State) (ch : Chan) (sub : Bool) (failed : BitVec 8), s.dev.dramOn = true → (∀ r ∈ s.dev.probeRanks ch.val, failed.getLsbD r = false) →
    exec (.channelProbe ch sub failed) s = .next (s.after ((s.dev.emits ((s.dev.probeRanks ch.val).map (fun r => .ddr 4 ch.val sub.toNat [r]))).emits [])))
  ∧ (∀ (s : State) (ch : Chan) (n : Nat), s.dev.dramOn = true → 1 ≤ n → n ≤ 2 →
    exec (.caParityError ch n) s = .next (s.after (s.dev.raise { src := srcMch ch.val 5, sev := 1, code := 3, obj := ch.val, aux0 := n })))
  ∧ (∀ (s : State) (k : Fin 20), k.val < 9 ∨ 14 < k.val →
    exec (.clockMonitorFailure k) s = .next (s.after (s.dev.raise { src := src 36 k.val, sev := 4, code := 378, obj := k.val })))

/-- The errors of the management processor's memories, its watchdog and its restarts (with the model's choices in log entry 52) (rests on
R342 to R344, R351). -/
def Obligations.ManagementEventsComplete : Prop :=
  (∀ s : State, s.dev.pin.mgmtUp = true → ∃ l, exec .tcmCorrectableError s = .next (s.after (Dev.bumpSat { s.dev with flt := { s.dev.flt with inj := l } } fMGT_TCM_STS_CE 1)) ∧
    ((∀ x ∈ s.dev.flt.inj, x.checker ≠ 2) → l = s.dev.flt.inj))
  ∧ (∀ (s : State) (page : BitVec 7) (d : Dev), s.dev.pin.mgmtUp = true → s.dev.mgt.fwRun = true → s.dev.pageGood page.toNat = true →
    s.dev.fetchSoon page.toNat = false → d = (s.dev.tcmInj 0 2 (fun e => e / 512 == page.toNat)).2.pageRewrite page.toNat →
    exec (.instructionFetchError page true false) s = .next (s.after ((Dev.bumpSat
      { d with mgt := { d.mgt with fetchAt := tins s.dev.mgt.fetchAt page.toNat s.dev.now } } fMGT_TCM_STS_IREPAIR 1).raise
      { src := src 39 0, sev := 1, code := 342, obj := page.toNat, inj := (s.dev.tcmInj 0 2 (fun e => e / 512 == page.toNat)).1 })))
  ∧ (∀ (s : State) (page : BitVec 7) (ok : Bool), s.dev.pin.mgmtUp = true → s.dev.mgt.fwRun = true →
    ok = false ∨ s.dev.pageGood page.toNat = false ∨ s.dev.fetchSoon page.toNat = true →
    exec (.instructionFetchError page ok false) s = .next (s.after (s.dev.tcmFail 0 (fun e => e / 512 == page.toNat))))
  ∧ (∀ (s : State) (page : BitVec 7) (ok : Bool), s.dev.pin.mgmtUp = true → exec (.instructionFetchError page ok true) s = .next (s.after (s.dev.tcmFail 1 (fun _ => false))))
  ∧ (∀ s : State, s.dev.pin.mgmtUp = true → exec .dataTcmError s = .next (s.after (s.dev.tcmFail 1 (fun _ => true))))
  ∧ (∀ d : Dev, d.mgtRestart.flag fMGT_STS_READY = false ∧ d.mgtRestart.get fMGT_STS_MODE = 1 ∧ d.mgtRestart.mgt.sessions = [] ∧ d.mgtRestart.mgt.restart = true ∧
      d.mgtRestart.get fMGT_STS_RESTARTS = min (d.get fMGT_STS_RESTARTS + 1) (2 ^ fMGT_STS_RESTARTS.w - 1))
  ∧ (∀ s : State, s.dev.mgt.fwRun = true ∨ s.dev.mgt.restart = true → exec .watchdogExpiry s = .next (s.after s.dev.watchdog))
  ∧ (∀ s : State, s.dev.unconfirmed = true → exec .bootConfirmTimeout s = .next (s.after s.dev.fellBack.mgtRestart))
  ∧ (∀ s : State, s.dev.fwUp = true → s.dev.mgt.activatePending = true → exec .activationRestart s = .next (s.after s.dev.mgtRestart))

/-- The boot chain, SPDM and the decisions of firmware (with the model's choices in log entries 51, 52, 53, 67, 68, 92, 93) (rests on
R336, R344, R348, R354, R362). -/
def Obligations.BootCommandsComplete : Prop :=
  (∀ s : State, s.dev.mgmtReady = true → exec .mgmtResetRelease s = .next { s.after (s.dev.romBoot s.otp).1 with otp := (s.dev.romBoot s.otp).2 })
  ∧ (∀ s : State, s.dev.pin.mgmtUp = true → s.dev.mgt.romDone = true → s.dev.mgt.fwRun = false → s.dev.pin.mainUp = true →
    exec .firmwareEntry s = .next (s.after s.dev.fwEntry))
  ∧ (∀ s : State, s.dev.bootable = true → s.dev.bootDone.get fMGT_STS_MODE ≠ 2 →
    ∃ t : State, exec .bootComplete s = .next t ∧ ∃ d : Dev, t.dev = ((d.confirm s.otp).1.ready 3).settle ∧ t.otp = (d.confirm s.otp).2)
  ∧ (∀ s : State, s.dev.mgt.restart = true → s.dev.mgt.booted = true → ∃ t : State, exec .managementRestartDone s = .next t ∧
    ((s.dev.restartDone s.otp).get fMGT_STS_MODE = 2 → t = { s with dev := (s.dev.restartDone s.otp).settle }) ∧
    ((s.dev.restartDone s.otp).get fMGT_STS_MODE ≠ 2 → ∃ d : Dev, t.dev = ((d.confirm s.otp).1.ready 4).settle ∧ t.otp = (d.confirm s.otp).2))
  ∧ (∀ (d : Dev) (o : Otp), (d.confirm o).2.rollback = (if (imgAt (d.img (d.get fMGT_STS_SLOT)).bytes 9 1).testBit 0 = true then
      max o.rollback (min (imgAt (d.img (d.get fMGT_STS_SLOT)).bytes 12 4) 64) else o.rollback))
  ∧ (∀ (s : State) (r : SpdmReq), s.dev.fwUp = true → exec (.spdmRequest r) s = .next (s.after (s.dev.spdmAnswer s.otp r)))
  ∧ (∀ (d : Dev) (f : Otp) (via : SpdmVia) (m o : Bool), 8 ≤ d.mgt.sessions.length →
    d.spdmAnswer f (.keyExchange via m o) = d.emit (.spdm (viaDoe via) 0x7F [10]))
  ∧ (∀ (s : State) (n : Nat), ∃ d : Dev, exec (.spdmHeartbeatTimeout n) s = .next (s.after d) ∧ ∀ x, x ∈ d.mgt.sessions ↔ x ∈ s.dev.mgt.sessions ∧ x.id ≠ n)
  ∧ (∀ (s : State) (l : BitVec 2), s.dev.fwUp = true →
    exec (.firmwareDecision (.pLevel l)) s = .next (s.after (s.dev.set fPWR_PSTS_FW_REQ
      (min (max l.toNat (s.dev.get fPWR_LIMITS_FASTEST)) (s.dev.get fPWR_LIMITS_SLOWEST)))))
  ∧ (∀ (s : State) (x : FwDecision), s.dev.fwUp = true → exec (.firmwareDecision x) s = .next (s.after (s.dev.fwDecide x)))

/-- The pins of reset and power, and the end of a sleep exit (with the model's choices in log entries 52, 55, 56) (rests on R396, R438 to
R445). -/
def Obligations.ResetCommandsComplete : Prop :=
  (∀ s : State, s.dev.pin.aon = true → exec .coldReset s = .next { s with dev := s.dev.coldReset s.otp })
  ∧ (∀ s : State, s.dev.pin.aon = true → s.dev.pin.sysRst = true →
    exec .sysRstRelease s = .next (s.after { s.dev with pin := { s.dev.pin with sysRst := false } }))
  ∧ (∀ s : State, s.dev.pin.aon = true → s.dev.pin.sysRst = false → s.dev.pin.mainEn = false → s.dev.pin.mainFault = false →
    s.dev.get fPWR_SLEEP_STS_STATE ≠ 3 →
    exec .pwrMainEnRise s = .next (s.after { s.dev with pin := { s.dev.pin with mainEn := true } }))
  ∧ (∀ s : State, s.dev.pin.mainEn = true → s.dev.pin.mainOk = false →
    exec .mainPwrgdRise s = .next (s.after { s.dev with pin := { s.dev.pin with mainOk := true } }))
  ∧ (∀ s : State, s.dev.pin.mainOk = true → s.dev.pin.mainUp = false → s.dev.pwr.exiting = false →
    exec .mainDomainRelease s = .next (s.afterAcc (s.acc.upd (fun d => Dev.pmuPower { d with pin := { d.pin with mainUp := true } }))))
  ∧ (∀ s : State, s.dev.pin.mainEn = true → s.dev.pin.mainOk = true → exec .mainPwrgdFall s = .next { s with dev := s.dev.mainFault s.otp })
  ∧ (∀ s : State, s.dev.pin.aon = false → exec .aonPowerOn s = .next { s with dev := s.dev.noAon.set fTHM_LEDGER_COUNT s.otp.ledger })
  ∧ (∀ s : State, exec .aonPowerLoss s = .next { s with dev := { s.dev.noAon with pin := { s.dev.noAon.pin with aon := false } } })
  ∧ (∀ s : State, s.dev.pin.aon = true → s.dev.pin.sysRst = false → s.dev.pin.mainFault = false → s.dev.pin.warm = 0 →
    exec .warmReset s = .next (s.after (s.dev.warmReset s.otp)))
  ∧ (∀ s : State, s.dev.pin.warm = 1 → exec .warmResetFlushDone s = .next (s.afterAcc (s.acc.warmFlush.upd Dev.warmDomains)))
  ∧ (∀ s : State, s.dev.pin.warm = 2 → exec .warmResetRelease s = .next (s.afterAcc (s.dev.home.latched.foldl (fun a e => a.headLoss e.1 e.2)
      (s.acc.upd (fun d => { d with pin := { d.pin with warm := 0 }, home := { d.home with latched := [] } })))))
  ∧ (∀ s : State, s.dev.pwr.exiting = true → s.dev.pwr.exitFrom = 1 → s.dev.pin.warm ≠ 3 →
    exec .sleepExitDone s = .next (s.afterAcc (heads.foldl Acc.releaseRx (s.acc.upd (fun d =>
      Dev.set { d with pwr := { d.pwr with exiting := false, exitFrom := 0 } } fPWR_SLEEP_STS_STATE 0)))))

/-- A COLD reset takes every register outside the AON domain to its reset value but for the status of resets, of the thermal ledger and of
the pair's presence, and empties the block; flash stays (rests on R10, R404, R442, R445). -/
def Obligations.ColdResetLeaves : Prop :=
  ∀ (d : Dev) (o : Otp), (∀ k, (domAt k).1 ≠ .aon → k ≠ rTOP_RST_STS → k ≠ rTHM_LEDGER → k ≠ rPAIR_STS → (d.coldReset o).rd k = resetWord k) ∧
    (∀ k, (domAt k).1 = .aon → k ≠ rTOP_RST_STS → k ≠ rTHM_LEDGER → k ≠ rPAIR_STS → (d.coldReset o).rd k = d.rd k) ∧
    (d.coldReset o).flash = d.flash ∧ (d.coldReset o).home.trans = [] ∧ (d.coldReset o).sec.keys = [] ∧ (d.coldReset o).job.jobs = [] ∧
    (d.coldReset o).get fTOP_RST_STS_CAUSE = (if d.pin.thermtrip then 5 else 1) ∧ (d.coldReset o).get fTOP_RST_STS_WARMS = 0

/-- Claims, counters and their shadows, and notice rings (with the model's choices in log entries 57, 58, 96) (rests on R418, R422, R423,
R434, R436). -/
def Obligations.TelemetryCommandsComplete : Prop :=
  (∀ (s : State) (h : Head) (u : Fin 44), s.dev.allows (.head h) (rPMU_U_CLAIM u.val) → s.dev.get (fPMU_U_CLAIM_HOLDER u.val) = 63 →
    exec (.pmuClaimWrite (.head h) u (h.zeroExtend 6)) s = .next (s.after (s.dev.set (fPMU_U_CLAIM_HOLDER u.val) h.toNat)))
  ∧ (∀ (s : State) (h : Head) (u : Fin 44) (v : BitVec 6), s.dev.allows (.head h) (rPMU_U_CLAIM u.val) → s.dev.get (fPMU_U_CLAIM_HOLDER u.val) ≠ 63 →
    s.dev.get (fPMU_U_CLAIM_HOLDER u.val) ≠ h.toNat → exec (.pmuClaimWrite (.head h) u v) s = .next (s.after s.dev))
  ∧ (∀ (s : State) (n : BitVec 3) (v : BitVec 6), s.dev.allows .firmware (rRING_CLAIM n.toNat) →
    exec (.ringClaimWrite .firmware n v) s = .next (s.after (s.dev.set (fRING_CLAIM_HOLDER n.toNat) v.toNat)))
  ∧ (∀ (s : State) (u : Fin 44) (k : BitVec 3), s.dev.pmuUsed u.val k.toNat = true → k.toNat % 2 = 1 → s.dev.flag (fPMU_U_EVSEL_OVF_IRQ u.val k.toNat) = false →
    ∃ d : Dev, exec (.counterOverflow u k) s = .next (s.after d) ∧ d.get (fPMU_U_CNT_COUNT u.val k.toNat) = 0 ∧
      d.bit (fPMU_U_CTL_OVF u.val) k.toNat = true ∧ ∀ r, r ≠ rPMU_U_CTL u.val → r ≠ rPMU_U_CNT u.val k.toNat → d.rd r = s.dev.rd r)
  ∧ (∀ (s : State) (w : Writer) (u : Fin 44), s.dev.allows w (rPMU_U_CTL u.val) →
    exec (.pmuUnitSnap w u) s = .next (s.after (s.dev.pmuSnap u.val)))
  ∧ (∀ (d : Dev) (u : Nat), (d.pmuSnap u).get (fPMU_U_SCYC_COUNT u) = d.get (fPMU_U_CYC_COUNT u) ∧
    ∀ k < 8, (d.pmuSnap u).get (fPMU_U_SCNT_COUNT u k) = d.get (fPMU_U_CNT_COUNT u k) ∧ (d.pmuSnap u).get (fPMU_U_CNT_COUNT u k) = d.get (fPMU_U_CNT_COUNT u k))
  ∧ (∀ (s : State) (w : Writer), s.dev.allows w rPMU_GCTL → exec (.pmuGlobalSnap w) s = .next (s.after s.dev.pmuSnapAll))
  ∧ (∀ (s : State) (w : Writer) (n : BitVec 3), s.dev.unheard w = false → s.dev.get (fRING_CLAIM_HOLDER n.toNat) = holderOf w → s.dev.flag (fRING_CTL_XEN n.toNat) = false →
    s.dev.ringOcc n.toNat ≠ 0 →
    exec (.ringPop w n) s = .next (s.after (((s.dev.bump (fRING_PTR_RD n.toNat) 1).ringFreed n.toNat).emit (.csrValue (holderOf w) (s.dev.ringWord n.toNat)))))
  ∧ (∀ (s : State) (w : Writer) (n : BitVec 3), s.dev.unheard w = false → (s.dev.get (fRING_CLAIM_HOLDER n.toNat) ≠ holderOf w ∨ s.dev.ringOcc n.toNat = 0) →
    exec (.ringPop w n) s = .next (s.after (s.dev.emit (.csrValue (holderOf w) 0x1D1E000000000000))))
  ∧ (∀ (s : State) (w : Writer) (n : BitVec 3) (rd : BitVec 14), s.dev.allows w (rRING_PTR n.toNat) → s.dev.flag (fRING_CTL_XEN n.toNat) = false →
    s.dev.get (fRING_CLAIM_HOLDER n.toNat) = holderOf w →
    exec (.ringRdWrite w n rd) s = .next (s.after (if s.dev.rdOk n.toNat rd.toNat then (s.dev.set (fRING_PTR_RD n.toNat) rd.toNat).ringFreed n.toNat
      else s.dev.setFlag (fRING_STS_RDERR n.toNat) true)))
  ∧ (∀ (s : State) (w : Writer) (n : BitVec 3) (ctl : BitVec 32), s.dev.allows w (rRING_CTL n.toNat) → ctl.getLsbD 0 = false →
    ∃ d : Dev, exec (.ringExportEnable w n ctl) s = .next (s.after d) ∧ d.flag (fRING_CTL_XEN n.toNat) = false ∧
      d.get (fRING_CTL_CUT n.toNat) = ctl.toNat / 2 % 128 ∧ d.get (fRING_CTL_LEVEL n.toNat) = ctl.toNat / 256 % 16384 ∧
      d.get (fRING_CTL_VEC n.toNat) = ctl.toNat / 2 ^ 22 % 64 ∧ ∀ k, k ≠ rRING_CTL n.toNat → d.rd k = s.dev.rd k)
  ∧ (∀ (s : State) (n : BitVec 3), s.dev.flag (fRING_CTL_XEN n.toNat) = true →
    exec (.ringExport n) s = .next (s.afterAcc (s.acc.exportPacket n.toNat)))

/-- Register accesses by heads and the patrol of complement pairs (with the model's choices in log entries 59, 61, 96) (rests on R6, R8,
R9, R28 to R30, R378). -/
def Obligations.RegisterCommandsComplete : Prop :=
  (∀ (s : State) (h : Head) (off : BitVec 26) (size : Nat) (v : BitVec 64) (a : RegAt), s.dev.cfgOnly h.toNat = false → accessOk off.toNat size = some a →
    s.dev.mayWrite h.toNat a = (true, s.dev) → s.dev.unitOff a.key = false →
    exec (.registerWrite h off size v) s = .next (s.after (s.dev.regAct (.head h) a (v.toNat % 2 ^ (8 * size) <<< (8 * (off.toNat - a.key)))
      ((2 ^ (8 * size) - 1) <<< (8 * (off.toNat - a.key))))))
  ∧ (∀ (s : State) (h : Head) (off : BitVec 26) (size : Nat) (v : BitVec 64), s.dev.cfgOnly h.toNat = false → accessOk off.toNat size = none →
    exec (.registerWrite h off size v) s = .next (s.after (s.dev.accessFault h.toNat off.toNat)))
  ∧ (∀ (s : State) (h : Head) (off : BitVec 26) (size : Nat), s.dev.cfgOnly h.toNat = false → readIllegal h.toNat off.toNat size = true →
    exec (.illegalCsrRead h off size) s = .next (s.after ((s.dev.accessFault h.toNat off.toNat).emit (.csrValue h.toNat 0))))
  ∧ (∀ s : State, (∀ p ∈ pairMap, ∀ i < p.n, s.dev.pairUse (p.reg + i * p.s) (p.regC + i * p.s) = (true, s.dev)) →
    exec .complementPatrol s = .next (s.after s.dev))
  ∧ (∀ s : State, exec .complementPatrol s = .next (s.after s.dev.patrol))

/-- Every command answers a next state: no command of the table is refused and none faults. -/
def Obligations.EveryCommandAnswers : Prop := ∀ (c : Instr) (s : State), ∃ t, exec c s = .next t

/-- A step with command c at the front of the queue is exec of c on the state with the queue's rest. -/
def Obligations.StepRunsFront : Prop :=
  ∀ (s : State) (c : Instr) (rest : List Instr), s.pending = c :: rest → step s = exec c { s with pending := rest }

/-- A step on an empty queue passes 40 ns of device time (the model's choice, log entry 8): it leaves DRAM, the OTP and the queue alone,
and of the registers only cycle counts, counters of monitor events and their overflow bits change (R104, R420 to R422), and the management
timer at a whole millisecond; then management firmware takes up the oldest packet of its queue, if one waits and no command is in progress
in the foreground (R333; log entry 60). -/
def Obligations.IdleStepPassesTime : Prop :=
  (∀ s : State, s.pending = [] → s.idle.dev.nextPkt = none → step s = .next s.idle) ∧
  (∀ (s t : State) (q : QPkt) (i : Instr), s.pending = [] → s.idle.dev.nextPkt = some q → cmdInstr q = some i →
    exec i { s.idle with dev := s.idle.dev.taking q } = .next t → step s = .next t.taken) ∧
  ∀ s : State, ∃ d : Dev, s.idle = { s with dev := d } ∧ d.now = s.dev.now + 40 ∧ d.mgt.cmdq = s.dev.mgt.cmdq ∧
    (∀ k, (∀ u < 44, k ≠ rPMU_U_CYC u ∧ k ≠ rPMU_U_CTL u ∧ ∀ c < 8, k ≠ rPMU_U_CNT u c) → (∀ sl < 16, k ≠ rHOME_SLICE_RQFULL sl) → k ≠ rPWR_TIMER → d.rd k = s.dev.rd k) ∧
    d.get fPWR_TIMER_MS = (if (s.dev.now + 40) % 1000000 = 0 ∧ 1 < s.dev.get fPWR_TIMER_MS then s.dev.get fPWR_TIMER_MS - 1 else s.dev.get fPWR_TIMER_MS) ∧
    (∀ u < 44, s.dev.pmuOn u = true → d.get (fPMU_U_CYC_COUNT u) = (s.dev.get (fPMU_U_CYC_COUNT u) + s.dev.unitCycles u) % 2 ^ 64)

/-- The state of reset has the invariant, waits for nothing, and holds every register at its reset value (with the model's choices in log
entries 1, 2, 3, 4, 5). -/
def Obligations.ResetHasInvariant : Prop :=
  State.reset.Inv ∧ State.reset.dev.csrWf = true ∧ State.reset.dev.calm = true ∧ State.reset.pending = [] ∧ (∀ k, State.reset.dev.rd k = resetWord k) ∧
  (∀ a, State.reset.dram.byte a = 0)

/-- Every step keeps DRAM in its canonical form and the OTP counters within their fuses. -/
def Obligations.StepKeepsInvariant : Prop := ∀ s t : State, s.Inv → step s = .next t → t.Inv

/-- The OTP counters never fall (rests on R352, R405). -/
def Obligations.FusesOnlyBurn : Prop :=
  ∀ s t : State, s.Inv → step s = .next t → s.otp.rollback ≤ t.otp.rollback ∧ s.otp.ledger ≤ t.otp.ledger

/-- The frame of commands beyond the device: the queue's rest stays for every command; DRAM for every command that stores nothing; and the
OTP for every command but the three of the boot chain (with the model's choices in log entry 55). -/
def Obligations.CommandFrame : Prop :=
  ∀ (c : Instr) (s t : State), exec c s = .next t →
    t.pending = s.pending ∧ (mayStore c = false → t.dram = s.dram ∧ ∀ a, t.dram.byte a = s.dram.byte a) ∧ (mayBurn c = false → t.otp = s.otp)

/-- What follows a command leaves a calm device alone; with neither a failed check nor an escalation nor a sleep request it leaves the
target P-level at the slowest request (R388) (with the model's choices in log entry 63). -/
def Obligations.SettleOfCalm : Prop :=
  (∀ d : Dev, d.calm = true → d.settle = d) ∧
  (∀ (s : State) (d : Dev), d.calm = true → s.after d = { s with dev := d }) ∧
  (∀ d : Dev, d.sec.haltPend = none → d.flt.escFatal = false → d.flt.escBasic = false → d.pwr.sleepReq = none →
    d.settle.get fPWR_PSTS_TARGET = max (max (d.get fPWR_PSTS_FW_REQ) (d.get fPWR_PSTS_THERM_REQ)) (if d.basic then 2 else 0) ∧
    d.settle.flag fPWR_PSTS_BASIC_REQ = d.basic)

/-- The frame of registers: of a calm block, commands that concern ports, pins and DRAM maintenance change no register (a head's PERST#
deassertion none outside sleep, from which it wakes the controller, R394); those of a slot its own, those of a doorbell its own page,
those of a ring, a claim or a fence their own. -/
def Obligations.RegisterFrame : Prop :=
  ∀ (s t : State) (c : Instr), s.dev.calm = true → exec c s = .next t →
    ((∃ p, c = .linkL1Entry p ∨ c = .viral p ∨ (c = .headPerstDeassert p ∧ s.dev.get fPWR_SLEEP_STS_STATE = 0)) ∨ (∃ h e, c = .offerTimeout h e) ∨ (∃ h l, c = .addDynamicCapacityResponse h l) ∨
      (∃ ch r, c = .zqCalibration ch r ∨ c = .dqsOscillatorTracking ch r) ∨ c = .sysRstRelease ∨ c = .pwrMainEnRise ∨ c = .mainPwrgdRise ∨
      (∃ n, c = .spdmHeartbeatTimeout n) → ∀ k, t.dev.rd k = s.dev.rd k) ∧
    (∀ n : SlotId, c = .gateRiseCheck n true ∨ c = .rampVoutReached n ∨ c = .fullGateOn n ∨ c = .gateFallStart n ∨ c = .slotOffComplete n →
      ∀ k, k ≠ rSLT_STS n.val → k ≠ rSLT_ON → t.dev.rd k = s.dev.rd k) ∧
    (∀ (h : Head) (q : BitVec 4), (∃ v, c = .jdbTailWrite h q v ∨ c = .jdbCqheadWrite h q v) ∨ c = .queueResume h q ∨ c = .queueDisable h q →
      ∀ k, ¬ (0x2000000 + h.toNat * 0x100000 + q.toNat * 0x1000 ≤ k ∧ k < 0x2000000 + h.toNat * 0x100000 + q.toNat * 0x1000 + 0x1000) → t.dev.rd k = s.dev.rd k) ∧
    (∀ w : WinId, c = .fenceTimeout w ∨ (∃ h, c = .pairMirFenceRead h w) → ∀ k, k ≠ rPAIR_MIRW_FENCE w.toNat → t.dev.rd k = s.dev.rd k) ∧
    (∀ (u : Fin 44) (v : BitVec 6), c = .pmuClaimWrite .firmware u v → ∀ k, k ≠ rPMU_U_CLAIM u.val → t.dev.rd k = s.dev.rd k) ∧
    (∀ (n : BitVec 3) (v : BitVec 6), c = .ringClaimWrite .firmware n v → ∀ k, k ≠ rRING_CLAIM n.toNat → t.dev.rd k = s.dev.rd k)

/-- At the end of initialization every byte of fitted DRAM reads 0, check symbols included, and every other byte is as it was (rests on
R143). -/
def Obligations.InitializationZeroes : Prop :=
  ∀ s t : State, s.dev.mch.trained = true → s.dev.mch.initDone = false → s.dev.mgt.bootKind = 0 → s.dev.quarCalm = true →
    exec .initializationComplete s = .next t →
    (∀ k, keyIn 0 (s.dev.fitted / 64) k = true → t.dram.byte k = 0) ∧ (∀ k, keyIn 0 (s.dev.fitted / 64) k = false → t.dram.byte k = s.dram.byte k)

/-- R84: The home slice of a DPA is the 4-bit XOR fold of its page number, so that the 64 lines of a page belong to one slice. -/
def Obligations.HomeSliceFold : Prop :=
  (∀ dpa < 2 ^ 46, lineSlice (dpa / 64) = (List.range 9).foldl (fun s i => s ^^^ (dpa >>> 12 >>> (4 * i) &&& 0xF)) 0) ∧
  (∀ pg i, i < 64 → lineSlice (pg * 64 + i) = pageSlice pg) ∧ (∀ dl, lineSlice dl < 16)

/-- R241, R242: What a fresh acknowledgement and a fresh credit total return. -/
def Obligations.FreshAckAndCredit : Prop :=
  (∀ (d : Dev) (ack n : Nat), n = (ack + 4096 - d.get fPAIR_SEQ_ACKED) % 4096 →
    (d.pair.outst.length < n → d.applyAck ack = none) ∧ (n = 0 → d.applyAck ack = some d) ∧
    (0 < n → n ≤ d.pair.outst.length → d.pair.sleepAcked = false → ack < 4096 → ∃ d', d.applyAck ack = some d' ∧ d'.pair.outst = d.pair.outst.drop n ∧
      d'.get fPAIR_SEQ_ACKED = ack)) ∧
  (∀ (d : Dev) (v tot n : Nat), v < 4 → n = (tot + 4096 - cnt d.pair.ret v) % 4096 →
    (d.get (fPAIR_VC_LIMIT v) - d.get (fPAIR_VC_AVAIL v) < n → d.applyCredit v tot = none) ∧
    (n ≤ d.get (fPAIR_VC_LIMIT v) - d.get (fPAIR_VC_AVAIL v) → ∃ d', d.applyCredit v tot = some d' ∧
      d'.get (fPAIR_VC_AVAIL v) = (d.get (fPAIR_VC_AVAIL v) + n) % 2 ^ (fPAIR_VC_AVAIL v).w ∧ cnt d'.pair.ret v = tot)) ∧
  (∀ (d : Dev) (h : FrameHdr) (body : List Byte) (c : Nat), d.pair.rxAny = false → d.applyAck h.ack = none → d.verified h body .cur c = d.linkDown 4) ∧
  (∀ (d e : Dev) (h : FrameHdr) (body : List Byte) (c : Nat), d.pair.rxAny = false → d.applyAck h.ack = some e → e.framing = true →
    e.applyCredit h.crvc h.crtot = none → d.verified h body .cur c = e.linkDown 4)

/-- R29: The doorbell page of queue q of head h, and what is done to another head's page or to an unused part of one's own region. -/
def Obligations.DoorbellPages : Prop :=
  (∀ (h q : Nat) (r : Nat), h < 32 → q < 16 → r ∈ [rJDB_TAIL h q, rJDB_HEAD h q, rJDB_CQHEAD h q, rJDB_CQTAIL h q, rJDB_CTL h q, rJDB_DQBASE h q, rJDB_CQBASE h q,
      rJDB_STS h q, rJDB_HALTINFO h q] →
    0x2000000 + h * 0x100000 + q * 0x1000 ≤ r ∧ r < 0x2000000 + h * 0x100000 + q * 0x1000 + 0x1000) ∧
  (∀ (s : State) (h : Head) (off : BitVec 26) (size : Nat) (v : BitVec 64), s.dev.cfgOnly h.toNat = false → 0x2000000 ≤ off.toNat →
    ((off.toNat - 0x2000000) / 0x100000 ≠ h.toNat ∨ regAt off.toNat = none) →
    exec (.illegalCsrRead h off size) s = .next (s.after ((s.dev.accessFault h.toNat off.toNat).emit (.csrValue h.toNat 0))) ∧
    exec (.registerWrite h off size v) s = .next (s.after (s.dev.accessFault h.toNat off.toNat)))

/-- A packet with CHECK_ONLY runs every check and is told what the command would have been told, with CHECKED set; it has no effect, and a
background command replies in the foreground. One that finds another command in progress waits for its turn as any other packet (R333)
(rests on R329). -/
def Obligations.CheckOnlyChangesNothing : Prop :=
  ∀ (d : Dev) (r : CmdRow) (c : Pkt) (check : Dev → Option (Nat × Nat)) (eff eff' : Nat → Dev → CmdEnd × Dev), c.flags = 1 →
    d.deaf (r.cls == .q) c = false → (trCode c.tr = 0 → c.mailboxLen.toNat = 16 + c.plen.toNat) → d.queues c = false →
    (∀ x d', d.preCheck r c = (some x, d') → d.command r c check eff = d'.sendReply (d'.cmdOf c r.op true []) x.1 1 x.2 [] ∧
      d.command r { c with flags := 0 } check eff = d'.sendReply (d'.cmdOf c r.op true []) x.1 0 x.2 []) ∧
    (d.preCheck r c = (none, d) → (r.basic = true → d.basic = false) → ∀ x, check d = some x →
      d.command r c check eff = d.sendReply (d.cmdOf c r.op true []) x.1 1 x.2 [] ∧
      d.command r { c with flags := 0 } check eff = d.sendReply (d.cmdOf c r.op true []) x.1 0 x.2 []) ∧
    (d.preCheck r c = (none, d) → (r.basic = true → d.basic = false) → check d = none →
      d.command r c check eff = d.sendReply (d.cmdOf c r.op true []) 0 1 noDetail []) ∧
    d.command r c check eff = d.command r c check eff'

/-- R343: An uncorrectable data TCM error and the expiry of the watchdog each record a fault of severity U and restart the management
processor; from an image that is not confirmed the watchdog falls back first (R351). -/
def Obligations.ManagementRestartCauses : Prop :=
  (∀ s : State, s.dev.pin.mgmtUp = true → s.dev.get fMGT_STS_MODE ≠ 2 → ∃ (code : Nat) (i : Bool) (l : List Inj), exec .dataTcmError s = .next (s.after
    ((Dev.bumpSat { s.dev with flt := { s.dev.flt with inj := l } } fMGT_TCM_STS_UE 1).raise { src := src 39 1, sev := 3, code := code, inj := i }).mgtRestart)) ∧
  (∀ s : State, s.dev.mgt.fwRun = true ∨ s.dev.mgt.restart = true → ∃ code, ∃ d : Dev, d = s.dev.raise { src := src 39 2, sev := 3, code := code } ∧
    exec .watchdogExpiry s = .next (s.after (if d.unconfirmed then d.fellBack.mgtRestart else d.mgtRestart))) ∧
  (∀ d : Dev, d.mgtRestart.flag fMGT_STS_READY = false ∧ d.mgtRestart.get fMGT_STS_MODE = 1 ∧ d.mgtRestart.mgt.restart = true)

/-- What the line codec packs, it unpacks: every line that a pattern of Table 8.1 fits, padded with zeros to its 56 bytes (rests on R195
to R198). -/
def Obligations.LineCodecRoundTrip : Prop :=
  ∀ (d : Dev) (v hdr : Nat) (p : List Nat), v < 2 ^ 512 → d.packLine v = some (hdr, p) →
    p.length ≤ 56 ∧ d.unpackLine hdr (p ++ List.replicate (56 - p.length) 0) = some v

/-- The messages of a frame body are read as they were put into it, for every list of messages of the lengths of Tables 9.5 and 10.2 that
fits the body (rests on R233, R234). -/
def Obligations.FrameBodyRoundTrip : Prop :=
  ∀ (v : Nat) (l : List PMsg), (∀ m ∈ l, m.mtype < 64 ∧ mlenOk v m.mtype (m.bytes.length - 2) = true) → (l.flatMap PMsg.bytes).length ≤ 240 →
    parseBody v 240 (bodyOf l) = some (l.map (fun m => pmsg m.mtype (m.bytes.drop 2)))

/-- The map from locations of DRAM to MPA that retirement and repair use inverts the map of the channel formulas, for every geometry and
masks that the map lock accepts (rests on R80 to R82). -/
def Obligations.LocationRoundTrip : Prop :=
  ∀ (d : Dev) (x : Loc), d.get fWIN_GEOM_RANKB ≤ 2 → d.get fWIN_GEOM_DIMMB ≤ 1 → d.get fWIN_GEOM_ROWB ≤ 17 →
    d.get fWIN_GEOM_AWIDTH = 19 + d.get fWIN_GEOM_RANKB + d.get fWIN_GEOM_DIMMB + d.get fWIN_GEOM_ROWB → (∀ k < 6, d.maskOk k = true) →
    x.chan < 24 → x.sub < 2 → x.rank < 2 ^ d.get fWIN_GEOM_RANKB → x.dimm < 2 ^ d.get fWIN_GEOM_DIMMB → x.bg < 8 → x.bank < 4 →
    x.row < 2 ^ d.get fWIN_GEOM_ROWB → x.col < 128 → d.locOf (d.mpaOf x) = x

/-- R41, R109: No decoder of a head whose link runs in 68B flit mode, or whose HOME_DEAD bit is set, commits over a SHARED window: the
commit fails with Error Not Committed and the head's decoders stay as they were. -/
def Obligations.SharedCommitRefused : Prop :=
  ∀ (s : State) (p : Head) (n : BitVec 5) (g : DecoderImage) (w : Nat), (s.dev.portOf p.toNat).up = true → (s.dev.portOf p.toNat).cxl = true →
    tfind (s.dev.decs p.toNat) n.toNat = none → w ∈ s.dev.decWins (s.dev.decoderOf p.toNat n.toNat g) → s.dev.winShared w = true →
    (s.dev.get (fPDV_PORT_STS_FLIT p.toNat) = 0 ∨ s.dev.bit fHOME_DEAD_HEAD p.toNat = true) →
    ∃ d : Dev, exec (.decoderCommit p n g) s = .next (s.after d) ∧ (d.portOf p.toNat).decoders = (s.dev.portOf p.toNat).decoders ∧
      (d.portOf p.toNat).decErr.testBit n.toNat = true

/-- R64: A head's write to a word of the window table, or to its complement partner, behaves as an access that violates R6, whatever the
grants hold; a head reads every such word. -/
def Obligations.WindowTableWrites : Prop :=
  ∀ (s : State) (h : Head) (n k size : Nat) (off : BitVec 26) (v : BitVec 64), s.dev.cfgOnly h.toNat = false → n < 256 → k < 6 →
    (off.toNat = 0x501000 + n * 0x40 + k * 4 ∨ off.toNat = 0x501020 + n * 0x40 + k * 4) →
    exec (.registerWrite h off size v) s = .next (s.after (s.dev.accessFault h.toNat off.toNat)) ∧ readIllegal h.toNat off.toNat 4 = false ∧
    exec (.illegalCsrRead h off 4) s = .next (s.after s.dev)

/-- R194: A frame that fails its GCM check is discarded and counted; the eighth failure within 1 ms takes the pair link down and records a
fault of severity U. -/
def Obligations.GcmFailures : Prop :=
  ∀ (d : Dev) (f : FrameIn) (ph : RxPhase) (k : PKey) (c : Nat) (t : List Nat), f.fecOk = true → d.frameKey (inHdr f) = some (ph, k, c) →
    k.verifies c f.bytes = false →
    t = d.pair.gcmTimes.filter (fun x => d.now < x + 1000000) ++ [d.now] →
    (t.length < 8 → d.frameIn f = { d.bumpSat fSEC_PAIR_STS_GCMFAIL 1 with pair := { d.pair with gcmTimes := t } }) ∧
    (8 ≤ t.length → ∃ code, d.frameIn f = (Dev.raise { d.bumpSat fSEC_PAIR_STS_GCMFAIL 1 with pair := { d.pair with gcmTimes := [] } }
      { src := src 31 14, sev := 3, code := code }).linkDown 5)
end

