-- ==== Sys2Proof/Laws/Table.lean ====
section
/-! SUPPORT. Lemmas of sparse tables: what a key reads as after an insertion, a deletion or a drop, and that these keep the canonical form. -/

namespace Sys2Proof.Machine

variable {α : Type}

theorem tfind_tins_self (t : Tbl α) (k : Nat) (x : α) : tfind (tins t k x) k = some x := by
  induction t with
  | nil => simp [tins, tfind]
  | cons e t ih =>
    simp only [tins]
    split
    · simp [tfind]
    · split
      · simp [tfind]
      · rename_i h1 h2
        simp [tfind, h2, ih]

theorem tfind_tins_of_ne (t : Tbl α) {k j : Nat} (x : α) (h : j ≠ k) : tfind (tins t k x) j = tfind t j := by
  induction t with
  | nil => simp [tins, tfind, h]
  | cons e t ih =>
    simp only [tins]
    split
    · simp [tfind, h]
    · split
      · rename_i h2
        subst h2
        simp [tfind, h]
      · simp [tfind, ih]

theorem tget_tins_self (d : Nat → α) (t : Tbl α) (k : Nat) (x : α) : tget d (tins t k x) k = x := by
  induction t with
  | nil => simp [tins, tget]
  | cons e t ih =>
    simp only [tins]
    split
    · simp [tget]
    · split
      · simp [tget]
      · rename_i h1 h2
        simp [tget, h2, ih]

theorem tget_tins_of_ne (d : Nat → α) (t : Tbl α) {k j : Nat} (x : α) (h : j ≠ k) : tget d (tins t k x) j = tget d t j := by
  induction t with
  | nil => simp [tins, tget, h]
  | cons e t ih =>
    simp only [tins]
    split
    · simp [tget, h]
    · split
      · rename_i h2
        subst h2
        simp [tget, h]
      · simp [tget, ih]

theorem tget_tdel_self (d : Nat → α) (t : Tbl α) (k : Nat) : tget d (tdel t k) k = d k := by
  induction t with
  | nil => rfl
  | cons e t ih =>
    by_cases h : e.1 = k
    · simpa [tdel, h] using ih
    · have : tdel (e :: t) k = e :: tdel t k := by simp [tdel, h]
      rw [this, tget, if_neg (fun c => h c.symm), ih]

theorem tget_tdel_of_ne (d : Nat → α) (t : Tbl α) {k j : Nat} (h : j ≠ k) : tget d (tdel t k) j = tget d t j := by
  induction t with
  | nil => rfl
  | cons e t ih =>
    by_cases he : e.1 = k
    · have : tdel (e :: t) k = tdel t k := by simp [tdel, he]
      rw [this, ih, tget, if_neg (by omega)]
    · have : tdel (e :: t) k = e :: tdel t k := by simp [tdel, he]
      rw [this, tget, tget, ih]

theorem tget_tset_self [DecidableEq α] (d : Nat → α) (t : Tbl α) (k : Nat) (v : α) : tget d (tset d t k v) k = v := by
  unfold tset
  split
  · rename_i h
    rw [tget_tdel_self, h]
  · exact tget_tins_self d t k v

theorem tget_tset_of_ne [DecidableEq α] (d : Nat → α) (t : Tbl α) {k j : Nat} (v : α) (h : j ≠ k) :
    tget d (tset d t k v) j = tget d t j := by
  unfold tset
  split
  · exact tget_tdel_of_ne d t h
  · exact tget_tins_of_ne d t v h

/-! ### The canonical form -/

theorem tsorted_cons (e : Nat × α) (t : Tbl α) : tsorted (e :: t) = true ↔ (∀ f ∈ t, e.1 < f.1) ∧ tsorted t = true := by
  simp [tsorted]

theorem tsorted_filter (p : Nat × α → Bool) (t : Tbl α) (h : tsorted t = true) : tsorted (t.filter p) = true := by
  induction t with
  | nil => rfl
  | cons e t ih =>
    rw [tsorted_cons] at h
    by_cases hp : p e
    · simp only [List.filter_cons, hp, if_true]
      rw [tsorted_cons]
      exact ⟨fun f hf => h.1 f (List.mem_filter.mp hf).1, ih h.2⟩
    · simpa [List.filter_cons, hp] using ih h.2

theorem mem_tins {t : Tbl α} {k : Nat} {v : α} {f : Nat × α} (h : f ∈ tins t k v) : f = (k, v) ∨ f ∈ t := by
  induction t with
  | nil => exact Or.inl (by simpa [tins] using h)
  | cons e t ih =>
    simp only [tins] at h
    split at h
    · simpa using h
    · split at h
      · rcases List.mem_cons.mp h with h | h
        · exact Or.inl h
        · exact Or.inr (List.mem_cons_of_mem _ h)
      · rcases List.mem_cons.mp h with h | h
        · exact Or.inr (by simp [h])
        · rcases ih h with h | h
          · exact Or.inl h
          · exact Or.inr (List.mem_cons_of_mem _ h)

theorem tsorted_tins (t : Tbl α) (k : Nat) (v : α) (h : tsorted t = true) : tsorted (tins t k v) = true := by
  induction t with
  | nil => rfl
  | cons e t ih =>
    have h' := (tsorted_cons e t).mp h
    simp only [tins]
    split
    · rename_i hk
      rw [tsorted_cons]
      refine ⟨fun f hf => ?_, h⟩
      rcases List.mem_cons.mp hf with rfl | hf
      · exact hk
      · exact Nat.lt_trans hk (h'.1 f hf)
    · split
      · rename_i hk
        rw [tsorted_cons]
        exact ⟨fun f hf => hk ▸ h'.1 f hf, h'.2⟩
      · rw [tsorted_cons]
        refine ⟨fun f hf => ?_, ih h'.2⟩
        rcases mem_tins hf with rfl | hf
        · show e.1 < k
          omega
        · exact h'.1 f hf

theorem tcanon_iff [DecidableEq α] (d : Nat → α) (t : Tbl α) : tcanon d t = true ↔ tsorted t = true ∧ ∀ e ∈ t, e.2 ≠ d e.1 := by
  simp [tcanon]

theorem tcanon_filter [DecidableEq α] (d : Nat → α) (p : Nat × α → Bool) (t : Tbl α) (h : tcanon d t = true) : tcanon d (t.filter p) = true := by
  rw [tcanon_iff] at h ⊢
  exact ⟨tsorted_filter p t h.1, fun e he => h.2 e (List.mem_filter.mp he).1⟩

theorem tcanon_tset [DecidableEq α] (d : Nat → α) (t : Tbl α) (k : Nat) (v : α) (h : tcanon d t = true) : tcanon d (tset d t k v) = true := by
  unfold tset
  split
  · exact tcanon_filter d _ t h
  · rename_i hv
    rw [tcanon_iff] at h ⊢
    refine ⟨tsorted_tins t k v h.1, fun e he => ?_⟩
    rcases mem_tins he with rfl | he
    · exact hv
    · exact h.2 e he

theorem tcanon_tdrop [DecidableEq α] (d : Nat → α) (p : Nat → Bool) (t : Tbl α) (h : tcanon d t = true) : tcanon d (tdrop p t) = true :=
  tcanon_filter d _ t h

end Sys2Proof.Machine
end

