-- ==== Sys2Proof/Laws/Fields.lean ====
section
/-! SUPPORT. Registers and their fields: what a register or a field reads as after a write. -/

namespace Sys2Proof.Machine

theorem wordField_lt (w lo n : Nat) : wordField w lo n < 2 ^ n := Nat.mod_lt _ (Nat.two_pow_pos n)

/-- A word is its part above a field, the field, and its part below. -/
theorem word_parts (w lo n : Nat) : w = (w / 2 ^ (lo + n)) * 2 ^ (lo + n) + wordField w lo n * 2 ^ lo + w % 2 ^ lo := by
  have h1 := Nat.div_add_mod w (2 ^ lo)
  have h2 := Nat.div_add_mod (w / 2 ^ lo) (2 ^ n)
  have h3 : w / 2 ^ lo / 2 ^ n = w / 2 ^ (lo + n) := by rw [Nat.div_div_eq_div_mul, ← pow_add]
  rw [h3] at h2
  calc w = 2 ^ lo * (w / 2 ^ lo) + w % 2 ^ lo := h1.symm
    _ = 2 ^ lo * (2 ^ n * (w / 2 ^ (lo + n)) + w / 2 ^ lo % 2 ^ n) + w % 2 ^ lo := by rw [h2]
    _ = _ := by unfold wordField; rw [pow_add]; ring

theorem wordPut_parts (w lo n v : Nat) : wordPut w lo n v = (w / 2 ^ (lo + n)) * 2 ^ (lo + n) + v % 2 ^ n * 2 ^ lo + w % 2 ^ lo := by
  have h := word_parts w lo n
  unfold wordPut
  have : w - wordField w lo n * 2 ^ lo = (w / 2 ^ (lo + n)) * 2 ^ (lo + n) + w % 2 ^ lo := by
    conv_lhs => rw [h]
    have : wordField ((w / 2 ^ (lo + n)) * 2 ^ (lo + n) + wordField w lo n * 2 ^ lo + w % 2 ^ lo) lo n = wordField w lo n := by rw [← h]
    rw [this]
    omega
  rw [this]
  omega

theorem wordField_wordPut_self (w lo n v : Nat) : wordField (wordPut w lo n v) lo n = v % 2 ^ n := by
  rw [wordPut_parts]
  unfold wordField
  have h1 : (w / 2 ^ (lo + n)) * 2 ^ (lo + n) + v % 2 ^ n * 2 ^ lo + w % 2 ^ lo =
      ((w / 2 ^ (lo + n)) * 2 ^ n + v % 2 ^ n) * 2 ^ lo + w % 2 ^ lo := by rw [pow_add]; ring
  rw [h1, Nat.add_comm, Nat.add_mul_div_right _ _ (Nat.two_pow_pos lo), Nat.div_eq_of_lt (Nat.mod_lt _ (Nat.two_pow_pos lo)), Nat.zero_add,
    Nat.add_comm, Nat.add_mul_mod_self_right, Nat.mod_mod]

theorem wordPut_mod (w lo n v m : Nat) (h : m ≤ lo) : wordPut w lo n v % 2 ^ m = w % 2 ^ m := by
  rw [wordPut_parts]
  have h1 : 2 ^ m ∣ (w / 2 ^ (lo + n)) * 2 ^ (lo + n) := Dvd.dvd.mul_left (pow_dvd_pow 2 (by omega)) _
  have h2 : 2 ^ m ∣ v % 2 ^ n * 2 ^ lo := Dvd.dvd.mul_left (pow_dvd_pow 2 h) _
  obtain ⟨x, hx⟩ := h1
  obtain ⟨y, hy⟩ := h2
  rw [hx, hy, Nat.add_assoc, Nat.mul_add_mod, Nat.mul_add_mod, Nat.mod_mod_of_dvd _ (pow_dvd_pow 2 h)]

theorem wordPut_div (w lo n v m : Nat) (h : lo + n ≤ m) : wordPut w lo n v / 2 ^ m = w / 2 ^ m := by
  have h0 : ∀ x : Nat, x / 2 ^ m = x / 2 ^ (lo + n) / 2 ^ (m - (lo + n)) := by
    intro x
    rw [Nat.div_div_eq_div_mul, ← pow_add]
    congr 2
    omega
  rw [h0, h0 w]
  congr 1
  rw [wordPut_parts]
  have h1 : v % 2 ^ n * 2 ^ lo + w % 2 ^ lo < 2 ^ (lo + n) := by
    have a := Nat.mod_lt v (Nat.two_pow_pos n)
    have b := Nat.mod_lt w (Nat.two_pow_pos lo)
    calc v % 2 ^ n * 2 ^ lo + w % 2 ^ lo < v % 2 ^ n * 2 ^ lo + 2 ^ lo := by omega
      _ = (v % 2 ^ n + 1) * 2 ^ lo := by ring
      _ ≤ 2 ^ n * 2 ^ lo := Nat.mul_le_mul_right _ a
      _ = 2 ^ (lo + n) := by rw [pow_add, Nat.mul_comm]
  rw [Nat.add_assoc, Nat.add_comm, Nat.add_mul_div_right _ _ (Nat.two_pow_pos _), Nat.div_eq_of_lt h1, Nat.zero_add]

/-- A field apart from the one that is written keeps its value. -/
theorem wordField_wordPut_of_disjoint (w lo n v lo' n' : Nat) (h : lo' + n' ≤ lo ∨ lo + n ≤ lo') :
    wordField (wordPut w lo n v) lo' n' = wordField w lo' n' := by
  unfold wordField
  rcases h with h | h
  · have e : ∀ x : Nat, x / 2 ^ lo' % 2 ^ n' = x % 2 ^ (lo' + n') / 2 ^ lo' := by
      intro x
      rw [pow_add, Nat.mod_mul_right_div_self]
    rw [e, e, wordPut_mod _ _ _ _ _ h]
  · rw [wordPut_div _ _ _ _ _ h]

/-! ### Registers -/

theorem Dev.rd_wr_self (d : Dev) (k v : Nat) : (d.wr k v).rd k = v := tget_tset_self _ d.csr k v

theorem Dev.rd_wr_of_ne (d : Dev) {k j : Nat} (v : Nat) (h : j ≠ k) : (d.wr k v).rd j = d.rd j := tget_tset_of_ne _ d.csr v h

theorem Dev.get_set_self (d : Dev) (f : Fld) (v : Nat) : (d.set f v).get f = v % 2 ^ f.w := by
  unfold Dev.get Dev.set
  rw [Dev.rd_wr_self, wordField_wordPut_self]

theorem Dev.rd_set_of_ne (d : Dev) (f : Fld) (v : Nat) {k : Nat} (h : k ≠ f.reg) : (d.set f v).rd k = d.rd k := d.rd_wr_of_ne _ h

theorem Dev.get_set_of_ne (d : Dev) {f g : Fld} (v : Nat) (h : g.reg ≠ f.reg) : (d.set f v).get g = d.get g := by
  unfold Dev.get
  rw [Dev.rd_set_of_ne d f v h]

/-- A field that is apart from the one that is written, in whichever register, keeps its value. -/
theorem Dev.get_set_of_disjoint (d : Dev) {f g : Fld} (v : Nat) (h : g.lo + g.w ≤ f.lo ∨ f.lo + f.w ≤ g.lo) :
    (d.set f v).get g = d.get g := by
  by_cases hr : g.reg = f.reg
  · unfold Dev.get Dev.set
    rw [hr, Dev.rd_wr_self, wordField_wordPut_of_disjoint _ _ _ _ _ _ h]
  · exact d.get_set_of_ne v hr

theorem Dev.flag_setFlag_self (d : Dev) (f : Fld) (b : Bool) (h : f.w = 1) : (d.setFlag f b).flag f = b := by
  unfold Dev.flag Dev.setFlag
  rw [Dev.get_set_self, h]
  cases b <;> rfl

theorem Dev.flag_set_of_ne (d : Dev) {f g : Fld} (v : Nat) (h : g.reg ≠ f.reg) : (d.set f v).flag g = d.flag g := by
  unfold Dev.flag
  rw [d.get_set_of_ne v h]

theorem Dev.flag_set_of_disjoint (d : Dev) {f g : Fld} (v : Nat) (h : g.lo + g.w ≤ f.lo ∨ f.lo + f.w ≤ g.lo) :
    (d.set f v).flag g = d.flag g := by
  unfold Dev.flag
  rw [d.get_set_of_disjoint v h]

theorem Dev.pairMatch_wrPair (d : Dev) (k kc v : Nat) (h : k ≠ kc) (hv : v ≤ 0xffffffff) : (d.wrPair k kc v).pairMatch k kc = true := by
  unfold Dev.pairMatch Dev.wrPair
  rw [Dev.rd_wr_of_ne _ _ h, Dev.rd_wr_self, Dev.rd_wr_self]
  simp
  omega

/-- A register file in canonical form stays so. -/
theorem Dev.csr_wr (d : Dev) (k v : Nat) (h : tcanon resetWord d.csr = true) : tcanon resetWord (d.wr k v).csr = true := tcanon_tset _ _ _ _ h

end Sys2Proof.Machine
end

