-- ==== Sys2Proof/Laws/Memory.lean ====
section
/-! SUPPORT. DRAM: what a byte reads as after a store, and that every store keeps the canonical form. -/

namespace Sys2Proof.Machine

theorem Mem.byte_put_self (m : Mem) (a : Nat) (b : Byte) : (m.put a b).byte a = b := tget_tset_self _ m a b

theorem Mem.byte_put_of_ne (m : Mem) {a x : Nat} (b : Byte) (h : x ≠ a) : (m.put a b).byte x = m.byte x := tget_tset_of_ne _ m b h

theorem Mem.wf_put (m : Mem) (a : Nat) (b : Byte) (h : m.wf = true) : (m.put a b).wf = true := tcanon_tset _ m a b h

theorem Mem.wf_puts (m : Mem) (l : List (Nat × Nat)) (h : m.wf = true) : (m.puts l).wf = true := by
  induction l generalizing m with
  | nil => exact h
  | cons e t ih => exact ih _ (m.wf_put _ _ h)

theorem Mem.byte_puts (m : Mem) (l : List (Nat × Nat)) (x : Nat) (h : ∀ e ∈ l, x ≠ e.1) : (m.puts l).byte x = m.byte x := by
  induction l generalizing m with
  | nil => rfl
  | cons e t ih =>
    have h1 : (m.puts (e :: t)).byte x = (m.put e.1 (BitVec.ofNat 8 e.2)).byte x := ih _ (fun f hf => h f (List.mem_cons_of_mem _ hf))
    rw [h1, m.byte_put_of_ne _ (h e (by simp))]

theorem Mem.wf_putLine (m : Mem) (l : Nat) (c : Codeword) (h : m.wf = true) : (m.putLine l c).wf = true := m.wf_puts _ h

/-- A line's store leaves every byte outside the line's 80 symbols. -/
theorem Mem.byte_putLine (m : Mem) (l : Nat) (c : Codeword) (x : Nat) (h : x ∉ lineKeys l) : (m.putLine l c).byte x = m.byte x := by
  refine m.byte_puts _ x (fun e he hx => h ?_)
  have := (List.of_mem_zip he).1
  rwa [← hx] at this

theorem Mem.wf_apply (m : Mem) (o : MemOp) (h : m.wf = true) : (m.apply o).wf = true := by
  cases o with
  | line l c => exact m.wf_putLine l c h
  | zero lo hi => exact tcanon_tdrop _ _ m h

theorem Mem.wf_commit (m : Mem) (l : List MemOp) (h : m.wf = true) : (m.commit l).wf = true := by
  induction l generalizing m with
  | nil => exact h
  | cons o t ih => exact ih _ (m.wf_apply o h)

/-- Reset's DRAM lists nothing. -/
theorem reset_dram : State.reset.dram = [] := rfl

end Sys2Proof.Machine
end

