-- ==== Sys2Proof/Laws/State.lean ====
section
/-! SUPPORT. Each field of the state after each basic operation: an operation on registers touches the register file alone, a message the
outbox alone, an operation on a port the ports alone. -/

namespace Sys2Proof.Machine

/-! ### wr -/

@[simp] theorem Dev.wr_now (d : Dev) (k v : Nat) : (d.wr k v).now = d.now := rfl
@[simp] theorem Dev.wr_freeN (d : Dev) (k v : Nat) : (d.wr k v).freeN = d.freeN := rfl
@[simp] theorem Dev.wr_out (d : Dev) (k v : Nat) : (d.wr k v).out = d.out := rfl
@[simp] theorem Dev.wr_ab (d : Dev) (k v : Nat) : (d.wr k v).ab = d.ab := rfl
@[simp] theorem Dev.wr_flt (d : Dev) (k v : Nat) : (d.wr k v).flt = d.flt := rfl
@[simp] theorem Dev.wr_rings (d : Dev) (k v : Nat) : (d.wr k v).rings = d.rings := rfl
@[simp] theorem Dev.wr_smp (d : Dev) (k v : Nat) : (d.wr k v).smp = d.smp := rfl
@[simp] theorem Dev.wr_mgt (d : Dev) (k v : Nat) : (d.wr k v).mgt = d.mgt := rfl
@[simp] theorem Dev.wr_flash (d : Dev) (k v : Nat) : (d.wr k v).flash = d.flash := rfl
@[simp] theorem Dev.wr_crockLog (d : Dev) (k v : Nat) : (d.wr k v).crockLog = d.crockLog := rfl
@[simp] theorem Dev.wr_port (d : Dev) (k v : Nat) : (d.wr k v).port = d.port := rfl
@[simp] theorem Dev.wr_win (d : Dev) (k v : Nat) : (d.wr k v).win = d.win := rfl
@[simp] theorem Dev.wr_home (d : Dev) (k v : Nat) : (d.wr k v).home = d.home := rfl
@[simp] theorem Dev.wr_mch (d : Dev) (k v : Nat) : (d.wr k v).mch = d.mch := rfl
@[simp] theorem Dev.wr_sec (d : Dev) (k v : Nat) : (d.wr k v).sec = d.sec := rfl
@[simp] theorem Dev.wr_tier (d : Dev) (k v : Nat) : (d.wr k v).tier = d.tier := rfl
@[simp] theorem Dev.wr_mir (d : Dev) (k v : Nat) : (d.wr k v).mir = d.mir := rfl
@[simp] theorem Dev.wr_qos (d : Dev) (k v : Nat) : (d.wr k v).qos = d.qos := rfl
@[simp] theorem Dev.wr_pair (d : Dev) (k v : Nat) : (d.wr k v).pair = d.pair := rfl
@[simp] theorem Dev.wr_job (d : Dev) (k v : Nat) : (d.wr k v).job = d.job := rfl
@[simp] theorem Dev.wr_slot (d : Dev) (k v : Nat) : (d.wr k v).slot = d.slot := rfl
@[simp] theorem Dev.wr_pwr (d : Dev) (k v : Nat) : (d.wr k v).pwr = d.pwr := rfl
@[simp] theorem Dev.wr_pin (d : Dev) (k v : Nat) : (d.wr k v).pin = d.pin := rfl

/-! ### set -/

@[simp] theorem Dev.set_now (d : Dev) (f : Fld) (v : Nat) : (d.set f v).now = d.now := rfl
@[simp] theorem Dev.set_freeN (d : Dev) (f : Fld) (v : Nat) : (d.set f v).freeN = d.freeN := rfl
@[simp] theorem Dev.set_out (d : Dev) (f : Fld) (v : Nat) : (d.set f v).out = d.out := rfl
@[simp] theorem Dev.set_ab (d : Dev) (f : Fld) (v : Nat) : (d.set f v).ab = d.ab := rfl
@[simp] theorem Dev.set_flt (d : Dev) (f : Fld) (v : Nat) : (d.set f v).flt = d.flt := rfl
@[simp] theorem Dev.set_rings (d : Dev) (f : Fld) (v : Nat) : (d.set f v).rings = d.rings := rfl
@[simp] theorem Dev.set_smp (d : Dev) (f : Fld) (v : Nat) : (d.set f v).smp = d.smp := rfl
@[simp] theorem Dev.set_mgt (d : Dev) (f : Fld) (v : Nat) : (d.set f v).mgt = d.mgt := rfl
@[simp] theorem Dev.set_flash (d : Dev) (f : Fld) (v : Nat) : (d.set f v).flash = d.flash := rfl
@[simp] theorem Dev.set_crockLog (d : Dev) (f : Fld) (v : Nat) : (d.set f v).crockLog = d.crockLog := rfl
@[simp] theorem Dev.set_port (d : Dev) (f : Fld) (v : Nat) : (d.set f v).port = d.port := rfl
@[simp] theorem Dev.set_win (d : Dev) (f : Fld) (v : Nat) : (d.set f v).win = d.win := rfl
@[simp] theorem Dev.set_home (d : Dev) (f : Fld) (v : Nat) : (d.set f v).home = d.home := rfl
@[simp] theorem Dev.set_mch (d : Dev) (f : Fld) (v : Nat) : (d.set f v).mch = d.mch := rfl
@[simp] theorem Dev.set_sec (d : Dev) (f : Fld) (v : Nat) : (d.set f v).sec = d.sec := rfl
@[simp] theorem Dev.set_tier (d : Dev) (f : Fld) (v : Nat) : (d.set f v).tier = d.tier := rfl
@[simp] theorem Dev.set_mir (d : Dev) (f : Fld) (v : Nat) : (d.set f v).mir = d.mir := rfl
@[simp] theorem Dev.set_qos (d : Dev) (f : Fld) (v : Nat) : (d.set f v).qos = d.qos := rfl
@[simp] theorem Dev.set_pair (d : Dev) (f : Fld) (v : Nat) : (d.set f v).pair = d.pair := rfl
@[simp] theorem Dev.set_job (d : Dev) (f : Fld) (v : Nat) : (d.set f v).job = d.job := rfl
@[simp] theorem Dev.set_slot (d : Dev) (f : Fld) (v : Nat) : (d.set f v).slot = d.slot := rfl
@[simp] theorem Dev.set_pwr (d : Dev) (f : Fld) (v : Nat) : (d.set f v).pwr = d.pwr := rfl
@[simp] theorem Dev.set_pin (d : Dev) (f : Fld) (v : Nat) : (d.set f v).pin = d.pin := rfl

/-! ### setFlag -/

@[simp] theorem Dev.setFlag_now (d : Dev) (f : Fld) (b : Bool) : (d.setFlag f b).now = d.now := rfl
@[simp] theorem Dev.setFlag_freeN (d : Dev) (f : Fld) (b : Bool) : (d.setFlag f b).freeN = d.freeN := rfl
@[simp] theorem Dev.setFlag_out (d : Dev) (f : Fld) (b : Bool) : (d.setFlag f b).out = d.out := rfl
@[simp] theorem Dev.setFlag_ab (d : Dev) (f : Fld) (b : Bool) : (d.setFlag f b).ab = d.ab := rfl
@[simp] theorem Dev.setFlag_flt (d : Dev) (f : Fld) (b : Bool) : (d.setFlag f b).flt = d.flt := rfl
@[simp] theorem Dev.setFlag_rings (d : Dev) (f : Fld) (b : Bool) : (d.setFlag f b).rings = d.rings := rfl
@[simp] theorem Dev.setFlag_smp (d : Dev) (f : Fld) (b : Bool) : (d.setFlag f b).smp = d.smp := rfl
@[simp] theorem Dev.setFlag_mgt (d : Dev) (f : Fld) (b : Bool) : (d.setFlag f b).mgt = d.mgt := rfl
@[simp] theorem Dev.setFlag_flash (d : Dev) (f : Fld) (b : Bool) : (d.setFlag f b).flash = d.flash := rfl
@[simp] theorem Dev.setFlag_crockLog (d : Dev) (f : Fld) (b : Bool) : (d.setFlag f b).crockLog = d.crockLog := rfl
@[simp] theorem Dev.setFlag_port (d : Dev) (f : Fld) (b : Bool) : (d.setFlag f b).port = d.port := rfl
@[simp] theorem Dev.setFlag_win (d : Dev) (f : Fld) (b : Bool) : (d.setFlag f b).win = d.win := rfl
@[simp] theorem Dev.setFlag_home (d : Dev) (f : Fld) (b : Bool) : (d.setFlag f b).home = d.home := rfl
@[simp] theorem Dev.setFlag_mch (d : Dev) (f : Fld) (b : Bool) : (d.setFlag f b).mch = d.mch := rfl
@[simp] theorem Dev.setFlag_sec (d : Dev) (f : Fld) (b : Bool) : (d.setFlag f b).sec = d.sec := rfl
@[simp] theorem Dev.setFlag_tier (d : Dev) (f : Fld) (b : Bool) : (d.setFlag f b).tier = d.tier := rfl
@[simp] theorem Dev.setFlag_mir (d : Dev) (f : Fld) (b : Bool) : (d.setFlag f b).mir = d.mir := rfl
@[simp] theorem Dev.setFlag_qos (d : Dev) (f : Fld) (b : Bool) : (d.setFlag f b).qos = d.qos := rfl
@[simp] theorem Dev.setFlag_pair (d : Dev) (f : Fld) (b : Bool) : (d.setFlag f b).pair = d.pair := rfl
@[simp] theorem Dev.setFlag_job (d : Dev) (f : Fld) (b : Bool) : (d.setFlag f b).job = d.job := rfl
@[simp] theorem Dev.setFlag_slot (d : Dev) (f : Fld) (b : Bool) : (d.setFlag f b).slot = d.slot := rfl
@[simp] theorem Dev.setFlag_pwr (d : Dev) (f : Fld) (b : Bool) : (d.setFlag f b).pwr = d.pwr := rfl
@[simp] theorem Dev.setFlag_pin (d : Dev) (f : Fld) (b : Bool) : (d.setFlag f b).pin = d.pin := rfl

/-! ### bump -/

@[simp] theorem Dev.bump_now (d : Dev) (f : Fld) (n : Nat) : (d.bump f n).now = d.now := rfl
@[simp] theorem Dev.bump_freeN (d : Dev) (f : Fld) (n : Nat) : (d.bump f n).freeN = d.freeN := rfl
@[simp] theorem Dev.bump_out (d : Dev) (f : Fld) (n : Nat) : (d.bump f n).out = d.out := rfl
@[simp] theorem Dev.bump_ab (d : Dev) (f : Fld) (n : Nat) : (d.bump f n).ab = d.ab := rfl
@[simp] theorem Dev.bump_flt (d : Dev) (f : Fld) (n : Nat) : (d.bump f n).flt = d.flt := rfl
@[simp] theorem Dev.bump_rings (d : Dev) (f : Fld) (n : Nat) : (d.bump f n).rings = d.rings := rfl
@[simp] theorem Dev.bump_smp (d : Dev) (f : Fld) (n : Nat) : (d.bump f n).smp = d.smp := rfl
@[simp] theorem Dev.bump_mgt (d : Dev) (f : Fld) (n : Nat) : (d.bump f n).mgt = d.mgt := rfl
@[simp] theorem Dev.bump_flash (d : Dev) (f : Fld) (n : Nat) : (d.bump f n).flash = d.flash := rfl
@[simp] theorem Dev.bump_crockLog (d : Dev) (f : Fld) (n : Nat) : (d.bump f n).crockLog = d.crockLog := rfl
@[simp] theorem Dev.bump_port (d : Dev) (f : Fld) (n : Nat) : (d.bump f n).port = d.port := rfl
@[simp] theorem Dev.bump_win (d : Dev) (f : Fld) (n : Nat) : (d.bump f n).win = d.win := rfl
@[simp] theorem Dev.bump_home (d : Dev) (f : Fld) (n : Nat) : (d.bump f n).home = d.home := rfl
@[simp] theorem Dev.bump_mch (d : Dev) (f : Fld) (n : Nat) : (d.bump f n).mch = d.mch := rfl
@[simp] theorem Dev.bump_sec (d : Dev) (f : Fld) (n : Nat) : (d.bump f n).sec = d.sec := rfl
@[simp] theorem Dev.bump_tier (d : Dev) (f : Fld) (n : Nat) : (d.bump f n).tier = d.tier := rfl
@[simp] theorem Dev.bump_mir (d : Dev) (f : Fld) (n : Nat) : (d.bump f n).mir = d.mir := rfl
@[simp] theorem Dev.bump_qos (d : Dev) (f : Fld) (n : Nat) : (d.bump f n).qos = d.qos := rfl
@[simp] theorem Dev.bump_pair (d : Dev) (f : Fld) (n : Nat) : (d.bump f n).pair = d.pair := rfl
@[simp] theorem Dev.bump_job (d : Dev) (f : Fld) (n : Nat) : (d.bump f n).job = d.job := rfl
@[simp] theorem Dev.bump_slot (d : Dev) (f : Fld) (n : Nat) : (d.bump f n).slot = d.slot := rfl
@[simp] theorem Dev.bump_pwr (d : Dev) (f : Fld) (n : Nat) : (d.bump f n).pwr = d.pwr := rfl
@[simp] theorem Dev.bump_pin (d : Dev) (f : Fld) (n : Nat) : (d.bump f n).pin = d.pin := rfl

/-! ### bumpSat -/

@[simp] theorem Dev.bumpSat_now (d : Dev) (f : Fld) (n : Nat) : (d.bumpSat f n).now = d.now := rfl
@[simp] theorem Dev.bumpSat_freeN (d : Dev) (f : Fld) (n : Nat) : (d.bumpSat f n).freeN = d.freeN := rfl
@[simp] theorem Dev.bumpSat_out (d : Dev) (f : Fld) (n : Nat) : (d.bumpSat f n).out = d.out := rfl
@[simp] theorem Dev.bumpSat_ab (d : Dev) (f : Fld) (n : Nat) : (d.bumpSat f n).ab = d.ab := rfl
@[simp] theorem Dev.bumpSat_flt (d : Dev) (f : Fld) (n : Nat) : (d.bumpSat f n).flt = d.flt := rfl
@[simp] theorem Dev.bumpSat_rings (d : Dev) (f : Fld) (n : Nat) : (d.bumpSat f n).rings = d.rings := rfl
@[simp] theorem Dev.bumpSat_smp (d : Dev) (f : Fld) (n : Nat) : (d.bumpSat f n).smp = d.smp := rfl
@[simp] theorem Dev.bumpSat_mgt (d : Dev) (f : Fld) (n : Nat) : (d.bumpSat f n).mgt = d.mgt := rfl
@[simp] theorem Dev.bumpSat_flash (d : Dev) (f : Fld) (n : Nat) : (d.bumpSat f n).flash = d.flash := rfl
@[simp] theorem Dev.bumpSat_crockLog (d : Dev) (f : Fld) (n : Nat) : (d.bumpSat f n).crockLog = d.crockLog := rfl
@[simp] theorem Dev.bumpSat_port (d : Dev) (f : Fld) (n : Nat) : (d.bumpSat f n).port = d.port := rfl
@[simp] theorem Dev.bumpSat_win (d : Dev) (f : Fld) (n : Nat) : (d.bumpSat f n).win = d.win := rfl
@[simp] theorem Dev.bumpSat_home (d : Dev) (f : Fld) (n : Nat) : (d.bumpSat f n).home = d.home := rfl
@[simp] theorem Dev.bumpSat_mch (d : Dev) (f : Fld) (n : Nat) : (d.bumpSat f n).mch = d.mch := rfl
@[simp] theorem Dev.bumpSat_sec (d : Dev) (f : Fld) (n : Nat) : (d.bumpSat f n).sec = d.sec := rfl
@[simp] theorem Dev.bumpSat_tier (d : Dev) (f : Fld) (n : Nat) : (d.bumpSat f n).tier = d.tier := rfl
@[simp] theorem Dev.bumpSat_mir (d : Dev) (f : Fld) (n : Nat) : (d.bumpSat f n).mir = d.mir := rfl
@[simp] theorem Dev.bumpSat_qos (d : Dev) (f : Fld) (n : Nat) : (d.bumpSat f n).qos = d.qos := rfl
@[simp] theorem Dev.bumpSat_pair (d : Dev) (f : Fld) (n : Nat) : (d.bumpSat f n).pair = d.pair := rfl
@[simp] theorem Dev.bumpSat_job (d : Dev) (f : Fld) (n : Nat) : (d.bumpSat f n).job = d.job := rfl
@[simp] theorem Dev.bumpSat_slot (d : Dev) (f : Fld) (n : Nat) : (d.bumpSat f n).slot = d.slot := rfl
@[simp] theorem Dev.bumpSat_pwr (d : Dev) (f : Fld) (n : Nat) : (d.bumpSat f n).pwr = d.pwr := rfl
@[simp] theorem Dev.bumpSat_pin (d : Dev) (f : Fld) (n : Nat) : (d.bumpSat f n).pin = d.pin := rfl

/-! ### drop -/

@[simp] theorem Dev.drop_now (d : Dev) (f : Fld) (n : Nat) : (d.drop f n).now = d.now := rfl
@[simp] theorem Dev.drop_freeN (d : Dev) (f : Fld) (n : Nat) : (d.drop f n).freeN = d.freeN := rfl
@[simp] theorem Dev.drop_out (d : Dev) (f : Fld) (n : Nat) : (d.drop f n).out = d.out := rfl
@[simp] theorem Dev.drop_ab (d : Dev) (f : Fld) (n : Nat) : (d.drop f n).ab = d.ab := rfl
@[simp] theorem Dev.drop_flt (d : Dev) (f : Fld) (n : Nat) : (d.drop f n).flt = d.flt := rfl
@[simp] theorem Dev.drop_rings (d : Dev) (f : Fld) (n : Nat) : (d.drop f n).rings = d.rings := rfl
@[simp] theorem Dev.drop_smp (d : Dev) (f : Fld) (n : Nat) : (d.drop f n).smp = d.smp := rfl
@[simp] theorem Dev.drop_mgt (d : Dev) (f : Fld) (n : Nat) : (d.drop f n).mgt = d.mgt := rfl
@[simp] theorem Dev.drop_flash (d : Dev) (f : Fld) (n : Nat) : (d.drop f n).flash = d.flash := rfl
@[simp] theorem Dev.drop_crockLog (d : Dev) (f : Fld) (n : Nat) : (d.drop f n).crockLog = d.crockLog := rfl
@[simp] theorem Dev.drop_port (d : Dev) (f : Fld) (n : Nat) : (d.drop f n).port = d.port := rfl
@[simp] theorem Dev.drop_win (d : Dev) (f : Fld) (n : Nat) : (d.drop f n).win = d.win := rfl
@[simp] theorem Dev.drop_home (d : Dev) (f : Fld) (n : Nat) : (d.drop f n).home = d.home := rfl
@[simp] theorem Dev.drop_mch (d : Dev) (f : Fld) (n : Nat) : (d.drop f n).mch = d.mch := rfl
@[simp] theorem Dev.drop_sec (d : Dev) (f : Fld) (n : Nat) : (d.drop f n).sec = d.sec := rfl
@[simp] theorem Dev.drop_tier (d : Dev) (f : Fld) (n : Nat) : (d.drop f n).tier = d.tier := rfl
@[simp] theorem Dev.drop_mir (d : Dev) (f : Fld) (n : Nat) : (d.drop f n).mir = d.mir := rfl
@[simp] theorem Dev.drop_qos (d : Dev) (f : Fld) (n : Nat) : (d.drop f n).qos = d.qos := rfl
@[simp] theorem Dev.drop_pair (d : Dev) (f : Fld) (n : Nat) : (d.drop f n).pair = d.pair := rfl
@[simp] theorem Dev.drop_job (d : Dev) (f : Fld) (n : Nat) : (d.drop f n).job = d.job := rfl
@[simp] theorem Dev.drop_slot (d : Dev) (f : Fld) (n : Nat) : (d.drop f n).slot = d.slot := rfl
@[simp] theorem Dev.drop_pwr (d : Dev) (f : Fld) (n : Nat) : (d.drop f n).pwr = d.pwr := rfl
@[simp] theorem Dev.drop_pin (d : Dev) (f : Fld) (n : Nat) : (d.drop f n).pin = d.pin := rfl

/-! ### setBit -/

@[simp] theorem Dev.setBit_now (d : Dev) (f : Fld) (i : Nat) (b : Bool) : (d.setBit f i b).now = d.now := rfl
@[simp] theorem Dev.setBit_freeN (d : Dev) (f : Fld) (i : Nat) (b : Bool) : (d.setBit f i b).freeN = d.freeN := rfl
@[simp] theorem Dev.setBit_out (d : Dev) (f : Fld) (i : Nat) (b : Bool) : (d.setBit f i b).out = d.out := rfl
@[simp] theorem Dev.setBit_ab (d : Dev) (f : Fld) (i : Nat) (b : Bool) : (d.setBit f i b).ab = d.ab := rfl
@[simp] theorem Dev.setBit_flt (d : Dev) (f : Fld) (i : Nat) (b : Bool) : (d.setBit f i b).flt = d.flt := rfl
@[simp] theorem Dev.setBit_rings (d : Dev) (f : Fld) (i : Nat) (b : Bool) : (d.setBit f i b).rings = d.rings := rfl
@[simp] theorem Dev.setBit_smp (d : Dev) (f : Fld) (i : Nat) (b : Bool) : (d.setBit f i b).smp = d.smp := rfl
@[simp] theorem Dev.setBit_mgt (d : Dev) (f : Fld) (i : Nat) (b : Bool) : (d.setBit f i b).mgt = d.mgt := rfl
@[simp] theorem Dev.setBit_flash (d : Dev) (f : Fld) (i : Nat) (b : Bool) : (d.setBit f i b).flash = d.flash := rfl
@[simp] theorem Dev.setBit_crockLog (d : Dev) (f : Fld) (i : Nat) (b : Bool) : (d.setBit f i b).crockLog = d.crockLog := rfl
@[simp] theorem Dev.setBit_port (d : Dev) (f : Fld) (i : Nat) (b : Bool) : (d.setBit f i b).port = d.port := rfl
@[simp] theorem Dev.setBit_win (d : Dev) (f : Fld) (i : Nat) (b : Bool) : (d.setBit f i b).win = d.win := rfl
@[simp] theorem Dev.setBit_home (d : Dev) (f : Fld) (i : Nat) (b : Bool) : (d.setBit f i b).home = d.home := rfl
@[simp] theorem Dev.setBit_mch (d : Dev) (f : Fld) (i : Nat) (b : Bool) : (d.setBit f i b).mch = d.mch := rfl
@[simp] theorem Dev.setBit_sec (d : Dev) (f : Fld) (i : Nat) (b : Bool) : (d.setBit f i b).sec = d.sec := rfl
@[simp] theorem Dev.setBit_tier (d : Dev) (f : Fld) (i : Nat) (b : Bool) : (d.setBit f i b).tier = d.tier := rfl
@[simp] theorem Dev.setBit_mir (d : Dev) (f : Fld) (i : Nat) (b : Bool) : (d.setBit f i b).mir = d.mir := rfl
@[simp] theorem Dev.setBit_qos (d : Dev) (f : Fld) (i : Nat) (b : Bool) : (d.setBit f i b).qos = d.qos := rfl
@[simp] theorem Dev.setBit_pair (d : Dev) (f : Fld) (i : Nat) (b : Bool) : (d.setBit f i b).pair = d.pair := rfl
@[simp] theorem Dev.setBit_job (d : Dev) (f : Fld) (i : Nat) (b : Bool) : (d.setBit f i b).job = d.job := rfl
@[simp] theorem Dev.setBit_slot (d : Dev) (f : Fld) (i : Nat) (b : Bool) : (d.setBit f i b).slot = d.slot := rfl
@[simp] theorem Dev.setBit_pwr (d : Dev) (f : Fld) (i : Nat) (b : Bool) : (d.setBit f i b).pwr = d.pwr := rfl
@[simp] theorem Dev.setBit_pin (d : Dev) (f : Fld) (i : Nat) (b : Bool) : (d.setBit f i b).pin = d.pin := rfl

/-! ### wrPair -/

@[simp] theorem Dev.wrPair_now (d : Dev) (k kc v : Nat) : (d.wrPair k kc v).now = d.now := rfl
@[simp] theorem Dev.wrPair_freeN (d : Dev) (k kc v : Nat) : (d.wrPair k kc v).freeN = d.freeN := rfl
@[simp] theorem Dev.wrPair_out (d : Dev) (k kc v : Nat) : (d.wrPair k kc v).out = d.out := rfl
@[simp] theorem Dev.wrPair_ab (d : Dev) (k kc v : Nat) : (d.wrPair k kc v).ab = d.ab := rfl
@[simp] theorem Dev.wrPair_flt (d : Dev) (k kc v : Nat) : (d.wrPair k kc v).flt = d.flt := rfl
@[simp] theorem Dev.wrPair_rings (d : Dev) (k kc v : Nat) : (d.wrPair k kc v).rings = d.rings := rfl
@[simp] theorem Dev.wrPair_smp (d : Dev) (k kc v : Nat) : (d.wrPair k kc v).smp = d.smp := rfl
@[simp] theorem Dev.wrPair_mgt (d : Dev) (k kc v : Nat) : (d.wrPair k kc v).mgt = d.mgt := rfl
@[simp] theorem Dev.wrPair_flash (d : Dev) (k kc v : Nat) : (d.wrPair k kc v).flash = d.flash := rfl
@[simp] theorem Dev.wrPair_crockLog (d : Dev) (k kc v : Nat) : (d.wrPair k kc v).crockLog = d.crockLog := rfl
@[simp] theorem Dev.wrPair_port (d : Dev) (k kc v : Nat) : (d.wrPair k kc v).port = d.port := rfl
@[simp] theorem Dev.wrPair_win (d : Dev) (k kc v : Nat) : (d.wrPair k kc v).win = d.win := rfl
@[simp] theorem Dev.wrPair_home (d : Dev) (k kc v : Nat) : (d.wrPair k kc v).home = d.home := rfl
@[simp] theorem Dev.wrPair_mch (d : Dev) (k kc v : Nat) : (d.wrPair k kc v).mch = d.mch := rfl
@[simp] theorem Dev.wrPair_sec (d : Dev) (k kc v : Nat) : (d.wrPair k kc v).sec = d.sec := rfl
@[simp] theorem Dev.wrPair_tier (d : Dev) (k kc v : Nat) : (d.wrPair k kc v).tier = d.tier := rfl
@[simp] theorem Dev.wrPair_mir (d : Dev) (k kc v : Nat) : (d.wrPair k kc v).mir = d.mir := rfl
@[simp] theorem Dev.wrPair_qos (d : Dev) (k kc v : Nat) : (d.wrPair k kc v).qos = d.qos := rfl
@[simp] theorem Dev.wrPair_pair (d : Dev) (k kc v : Nat) : (d.wrPair k kc v).pair = d.pair := rfl
@[simp] theorem Dev.wrPair_job (d : Dev) (k kc v : Nat) : (d.wrPair k kc v).job = d.job := rfl
@[simp] theorem Dev.wrPair_slot (d : Dev) (k kc v : Nat) : (d.wrPair k kc v).slot = d.slot := rfl
@[simp] theorem Dev.wrPair_pwr (d : Dev) (k kc v : Nat) : (d.wrPair k kc v).pwr = d.pwr := rfl
@[simp] theorem Dev.wrPair_pin (d : Dev) (k kc v : Nat) : (d.wrPair k kc v).pin = d.pin := rfl

/-! ### emit -/

@[simp] theorem Dev.emit_csr (d : Dev) (o : Out) : (d.emit o).csr = d.csr := rfl
@[simp] theorem Dev.emit_now (d : Dev) (o : Out) : (d.emit o).now = d.now := rfl
@[simp] theorem Dev.emit_freeN (d : Dev) (o : Out) : (d.emit o).freeN = d.freeN := rfl
@[simp] theorem Dev.emit_ab (d : Dev) (o : Out) : (d.emit o).ab = d.ab := rfl
@[simp] theorem Dev.emit_flt (d : Dev) (o : Out) : (d.emit o).flt = d.flt := rfl
@[simp] theorem Dev.emit_rings (d : Dev) (o : Out) : (d.emit o).rings = d.rings := rfl
@[simp] theorem Dev.emit_smp (d : Dev) (o : Out) : (d.emit o).smp = d.smp := rfl
@[simp] theorem Dev.emit_mgt (d : Dev) (o : Out) : (d.emit o).mgt = d.mgt := rfl
@[simp] theorem Dev.emit_flash (d : Dev) (o : Out) : (d.emit o).flash = d.flash := rfl
@[simp] theorem Dev.emit_crockLog (d : Dev) (o : Out) : (d.emit o).crockLog = d.crockLog := rfl
@[simp] theorem Dev.emit_port (d : Dev) (o : Out) : (d.emit o).port = d.port := rfl
@[simp] theorem Dev.emit_win (d : Dev) (o : Out) : (d.emit o).win = d.win := rfl
@[simp] theorem Dev.emit_home (d : Dev) (o : Out) : (d.emit o).home = d.home := rfl
@[simp] theorem Dev.emit_mch (d : Dev) (o : Out) : (d.emit o).mch = d.mch := rfl
@[simp] theorem Dev.emit_sec (d : Dev) (o : Out) : (d.emit o).sec = d.sec := rfl
@[simp] theorem Dev.emit_tier (d : Dev) (o : Out) : (d.emit o).tier = d.tier := rfl
@[simp] theorem Dev.emit_mir (d : Dev) (o : Out) : (d.emit o).mir = d.mir := rfl
@[simp] theorem Dev.emit_qos (d : Dev) (o : Out) : (d.emit o).qos = d.qos := rfl
@[simp] theorem Dev.emit_pair (d : Dev) (o : Out) : (d.emit o).pair = d.pair := rfl
@[simp] theorem Dev.emit_job (d : Dev) (o : Out) : (d.emit o).job = d.job := rfl
@[simp] theorem Dev.emit_slot (d : Dev) (o : Out) : (d.emit o).slot = d.slot := rfl
@[simp] theorem Dev.emit_pwr (d : Dev) (o : Out) : (d.emit o).pwr = d.pwr := rfl
@[simp] theorem Dev.emit_pin (d : Dev) (o : Out) : (d.emit o).pin = d.pin := rfl

/-! ### emits -/

@[simp] theorem Dev.emits_csr (d : Dev) (l : List Out) : (d.emits l).csr = d.csr := rfl
@[simp] theorem Dev.emits_now (d : Dev) (l : List Out) : (d.emits l).now = d.now := rfl
@[simp] theorem Dev.emits_freeN (d : Dev) (l : List Out) : (d.emits l).freeN = d.freeN := rfl
@[simp] theorem Dev.emits_ab (d : Dev) (l : List Out) : (d.emits l).ab = d.ab := rfl
@[simp] theorem Dev.emits_flt (d : Dev) (l : List Out) : (d.emits l).flt = d.flt := rfl
@[simp] theorem Dev.emits_rings (d : Dev) (l : List Out) : (d.emits l).rings = d.rings := rfl
@[simp] theorem Dev.emits_smp (d : Dev) (l : List Out) : (d.emits l).smp = d.smp := rfl
@[simp] theorem Dev.emits_mgt (d : Dev) (l : List Out) : (d.emits l).mgt = d.mgt := rfl
@[simp] theorem Dev.emits_flash (d : Dev) (l : List Out) : (d.emits l).flash = d.flash := rfl
@[simp] theorem Dev.emits_crockLog (d : Dev) (l : List Out) : (d.emits l).crockLog = d.crockLog := rfl
@[simp] theorem Dev.emits_port (d : Dev) (l : List Out) : (d.emits l).port = d.port := rfl
@[simp] theorem Dev.emits_win (d : Dev) (l : List Out) : (d.emits l).win = d.win := rfl
@[simp] theorem Dev.emits_home (d : Dev) (l : List Out) : (d.emits l).home = d.home := rfl
@[simp] theorem Dev.emits_mch (d : Dev) (l : List Out) : (d.emits l).mch = d.mch := rfl
@[simp] theorem Dev.emits_sec (d : Dev) (l : List Out) : (d.emits l).sec = d.sec := rfl
@[simp] theorem Dev.emits_tier (d : Dev) (l : List Out) : (d.emits l).tier = d.tier := rfl
@[simp] theorem Dev.emits_mir (d : Dev) (l : List Out) : (d.emits l).mir = d.mir := rfl
@[simp] theorem Dev.emits_qos (d : Dev) (l : List Out) : (d.emits l).qos = d.qos := rfl
@[simp] theorem Dev.emits_pair (d : Dev) (l : List Out) : (d.emits l).pair = d.pair := rfl
@[simp] theorem Dev.emits_job (d : Dev) (l : List Out) : (d.emits l).job = d.job := rfl
@[simp] theorem Dev.emits_slot (d : Dev) (l : List Out) : (d.emits l).slot = d.slot := rfl
@[simp] theorem Dev.emits_pwr (d : Dev) (l : List Out) : (d.emits l).pwr = d.pwr := rfl
@[simp] theorem Dev.emits_pin (d : Dev) (l : List Out) : (d.emits l).pin = d.pin := rfl

/-! ### updPort -/

@[simp] theorem Dev.updPort_csr (d : Dev) (p : Nat) (f : PortS → PortS) : (d.updPort p f).csr = d.csr := rfl
@[simp] theorem Dev.updPort_now (d : Dev) (p : Nat) (f : PortS → PortS) : (d.updPort p f).now = d.now := rfl
@[simp] theorem Dev.updPort_freeN (d : Dev) (p : Nat) (f : PortS → PortS) : (d.updPort p f).freeN = d.freeN := rfl
@[simp] theorem Dev.updPort_out (d : Dev) (p : Nat) (f : PortS → PortS) : (d.updPort p f).out = d.out := rfl
@[simp] theorem Dev.updPort_ab (d : Dev) (p : Nat) (f : PortS → PortS) : (d.updPort p f).ab = d.ab := rfl
@[simp] theorem Dev.updPort_flt (d : Dev) (p : Nat) (f : PortS → PortS) : (d.updPort p f).flt = d.flt := rfl
@[simp] theorem Dev.updPort_rings (d : Dev) (p : Nat) (f : PortS → PortS) : (d.updPort p f).rings = d.rings := rfl
@[simp] theorem Dev.updPort_smp (d : Dev) (p : Nat) (f : PortS → PortS) : (d.updPort p f).smp = d.smp := rfl
@[simp] theorem Dev.updPort_mgt (d : Dev) (p : Nat) (f : PortS → PortS) : (d.updPort p f).mgt = d.mgt := rfl
@[simp] theorem Dev.updPort_flash (d : Dev) (p : Nat) (f : PortS → PortS) : (d.updPort p f).flash = d.flash := rfl
@[simp] theorem Dev.updPort_crockLog (d : Dev) (p : Nat) (f : PortS → PortS) : (d.updPort p f).crockLog = d.crockLog := rfl
@[simp] theorem Dev.updPort_win (d : Dev) (p : Nat) (f : PortS → PortS) : (d.updPort p f).win = d.win := rfl
@[simp] theorem Dev.updPort_home (d : Dev) (p : Nat) (f : PortS → PortS) : (d.updPort p f).home = d.home := rfl
@[simp] theorem Dev.updPort_mch (d : Dev) (p : Nat) (f : PortS → PortS) : (d.updPort p f).mch = d.mch := rfl
@[simp] theorem Dev.updPort_sec (d : Dev) (p : Nat) (f : PortS → PortS) : (d.updPort p f).sec = d.sec := rfl
@[simp] theorem Dev.updPort_tier (d : Dev) (p : Nat) (f : PortS → PortS) : (d.updPort p f).tier = d.tier := rfl
@[simp] theorem Dev.updPort_mir (d : Dev) (p : Nat) (f : PortS → PortS) : (d.updPort p f).mir = d.mir := rfl
@[simp] theorem Dev.updPort_qos (d : Dev) (p : Nat) (f : PortS → PortS) : (d.updPort p f).qos = d.qos := rfl
@[simp] theorem Dev.updPort_pair (d : Dev) (p : Nat) (f : PortS → PortS) : (d.updPort p f).pair = d.pair := rfl
@[simp] theorem Dev.updPort_job (d : Dev) (p : Nat) (f : PortS → PortS) : (d.updPort p f).job = d.job := rfl
@[simp] theorem Dev.updPort_slot (d : Dev) (p : Nat) (f : PortS → PortS) : (d.updPort p f).slot = d.slot := rfl
@[simp] theorem Dev.updPort_pwr (d : Dev) (p : Nat) (f : PortS → PortS) : (d.updPort p f).pwr = d.pwr := rfl
@[simp] theorem Dev.updPort_pin (d : Dev) (p : Nat) (f : PortS → PortS) : (d.updPort p f).pin = d.pin := rfl

/-! ### Reading registers past messages and ports -/

@[simp] theorem Dev.rd_emit (d : Dev) (o : Out) (k : Nat) : (d.emit o).rd k = d.rd k := rfl
@[simp] theorem Dev.rd_emits (d : Dev) (l : List Out) (k : Nat) : (d.emits l).rd k = d.rd k := rfl
@[simp] theorem Dev.rd_updPort (d : Dev) (p : Nat) (f : PortS → PortS) (k : Nat) : (d.updPort p f).rd k = d.rd k := rfl
@[simp] theorem Dev.get_emit (d : Dev) (o : Out) (f : Fld) : (d.emit o).get f = d.get f := rfl
@[simp] theorem Dev.get_updPort (d : Dev) (p : Nat) (g : PortS → PortS) (f : Fld) : (d.updPort p g).get f = d.get f := rfl
@[simp] theorem Dev.flag_emit (d : Dev) (o : Out) (f : Fld) : (d.emit o).flag f = d.flag f := rfl
@[simp] theorem Dev.flag_updPort (d : Dev) (p : Nat) (g : PortS → PortS) (f : Fld) : (d.updPort p g).flag f = d.flag f := rfl
@[simp] theorem Dev.portOf_set (d : Dev) (f : Fld) (v p : Nat) : (d.set f v).portOf p = d.portOf p := rfl
@[simp] theorem Dev.portOf_setFlag (d : Dev) (f : Fld) (b : Bool) (p : Nat) : (d.setFlag f b).portOf p = d.portOf p := rfl
@[simp] theorem Dev.portOf_emit (d : Dev) (o : Out) (p : Nat) : (d.emit o).portOf p = d.portOf p := rfl

/-! ### Stores of a command -/

@[simp] theorem Acc.upd_dev (a : Acc) (f : Dev → Dev) : (a.upd f).dev = f a.dev := rfl
@[simp] theorem Acc.upd_base (a : Acc) (f : Dev → Dev) : (a.upd f).base = a.base := rfl
@[simp] theorem Acc.upd_log (a : Acc) (f : Dev → Dev) : (a.upd f).log = a.log := rfl
@[simp] theorem Acc.store_dev (a : Acc) (l : Nat) (c : Codeword) : (a.store l c).dev = a.dev := rfl
@[simp] theorem Acc.zero_dev (a : Acc) (lo hi : Nat) : (a.zero lo hi).dev = a.dev := rfl

end Sys2Proof.Machine
end

