-- ==== Sys2Proof/Laws/Exec.lean ====
section
/-! SUPPORT. Commands as a whole: the state after one, what follows one, packets that pass their checks, and ports. -/

namespace Sys2Proof.Machine

theorem run_eq (f : Dev → Dev) (s : State) : run f s = .next (s.after (f s.dev)) := rfl
theorem runAcc_eq (f : Acc → Acc) (s : State) : runAcc f s = .next (s.afterAcc (f s.acc)) := rfl

@[simp] theorem State.acc_dev (s : State) : s.acc.dev = s.dev := rfl
theorem State.acc_upd (s : State) (f : Dev → Dev) : s.acc.upd (fun _ => f s.dev) = s.acc.upd f := rfl
@[simp] theorem State.after_dram (s : State) (d : Dev) : (s.after d).dram = s.dram := rfl
@[simp] theorem State.after_otp (s : State) (d : Dev) : (s.after d).otp = s.otp := rfl
@[simp] theorem State.after_pending (s : State) (d : Dev) : (s.after d).pending = s.pending := rfl
@[simp] theorem State.afterAcc_otp (s : State) (a : Acc) : (s.afterAcc a).otp = s.otp := rfl
@[simp] theorem State.afterAcc_pending (s : State) (a : Acc) : (s.afterAcc a).pending = s.pending := rfl

theorem Dev.when_of_true (d : Dev) (c : Bool) (f : Dev → Dev) (h : c = true) : d.when c f = f d := by simp [Dev.when, h]
theorem Dev.when_of_false (d : Dev) (c : Bool) (f : Dev → Dev) (h : c = false) : d.when c f = d := by simp [Dev.when, h]
theorem Acc.when_of_true (a : Acc) (c : Bool) (f : Acc → Acc) (h : c = true) : a.when c f = f a := by simp [Acc.when, h]
theorem Acc.when_of_false (a : Acc) (c : Bool) (f : Acc → Acc) (h : c = false) : a.when c f = a := by simp [Acc.when, h]

theorem Dev.portOf_updPort (d : Dev) (p : Nat) (f : PortS → PortS) : (d.updPort p f).portOf p = f (d.portOf p) := by
  simp [Dev.updPort, Dev.portOf, tfind_tins_self]

theorem Dev.portOf_updPort_of_ne (d : Dev) {p q : Nat} (f : PortS → PortS) (h : q ≠ p) : (d.updPort p f).portOf q = d.portOf q := by
  simp [Dev.updPort, Dev.portOf, tfind_tins_of_ne _ _ h]

theorem Dev.writeBy_allowed (d : Dev) (by_ : Writer) (k : Nat) (act : Dev → Dev) (h : d.allows by_ k) : d.writeBy by_ k act = act d := by
  cases by_ with
  | firmware =>
    have h' : d.unitOff k = false := h
    simp [Dev.writeBy, h']
  | head p =>
    obtain ⟨h0, a, h1, h2, h3⟩ := h
    simp [Dev.writeBy, h0, h1, h2, h3]

/-- Every invariant of a memory is kept by a command that only touches the device. -/
theorem run_keeps (f : Dev → Dev) (s t : State) (h : run f s = .next t) : t.dram = s.dram ∧ t.otp = s.otp ∧ t.pending = s.pending := by
  cases h
  exact ⟨rfl, rfl, rfl⟩

/-- A command that stores leaves DRAM in canonical form. -/
theorem runAcc_keeps (f : Acc → Acc) (s t : State) (h : runAcc f s = .next t) (hw : s.dram.wf = true) :
    t.dram.wf = true ∧ t.otp = s.otp ∧ t.pending = s.pending := by
  cases h
  exact ⟨s.dram.wf_commit _ hw, rfl, rfl⟩

/-! ### Packets -/

/-- The shared checks of a packet, as Acc.command meets them. -/
theorem Admits.facts {d : Dev} {r : CmdRow} {c : Pkt} (h : Admits d r c) : c.flags.toNat = 0 ∧ (r.basic && d.basic) = false ∧
    ¬ (d.deaf (r.cls == .q) c = true) ∧ ¬ (trCode c.tr = 0 ∧ c.mailboxLen.toNat ≠ 16 + c.plen.toNat) ∧
    ¬ (r.bg = true ∧ trCode c.tr = 0 ∧ d.mailboxBg c.head.toNat = true) ∧ ¬ (d.queues c = true) := by
  obtain ⟨h1, h2, h3, h4, h5, h6, h7⟩ := h
  refine ⟨by rw [h5]; rfl, ?_, ?_, ?_, ?_, by simp [h7]⟩
  · cases hr : r.basic
    · rfl
    · simp [h4 hr]
  · simp [h1]
  · rintro ⟨x, y⟩
    exact y (h2 x)
  · rintro ⟨x, y, z⟩
    rw [h6 x y] at z
    exact absurd z (by decide)

/-- A packet that is admitted and passes its chapter's checks has its effect, and replies. -/
theorem Acc.command_done (a b : Acc) (r : CmdRow) (c : Pkt) (check : Acc → Option (Nat × Nat)) (eff : Nat → Acc → CmdEnd × Acc)
    (body : List Byte) (fl : Nat) (h : Admits a.dev r c) (hc : check a = none) (he : eff a.dev.mgt.nextBg a = (.done body fl, b)) :
    a.command r c check eff = b.upd (fun d => d.answered r c fl body) := by
  obtain ⟨hf, hm, h1, h2, h3, h7⟩ := h.facts
  simp only [Acc.command, if_neg h1, if_neg h2, if_neg h7, h.passes, hc, hm, hf, Option.none_or, Bool.false_eq_true, if_false, if_neg h3, he]
  simp only [Dev.answered]
  by_cases hb : r.bg = true
  · simp only [hb, if_true]
    rfl
  · simp [hb]

/-- A packet that is admitted and passes its chapter's checks starts a command that runs on. -/
theorem Acc.command_runs (a b : Acc) (r : CmdRow) (c : Pkt) (check : Acc → Option (Nat × Nat)) (eff : Nat → Acc → CmdEnd × Acc)
    (arg : List Nat) (h : Admits a.dev r c) (hc : check a = none) (he : eff a.dev.mgt.nextBg a = (.runs arg, b)) :
    a.command r c check eff = b.upd (fun d => d.running r c arg) := by
  obtain ⟨hf, hm, h1, h2, h3, h7⟩ := h.facts
  simp only [Acc.command, if_neg h1, if_neg h2, if_neg h7, h.passes, hc, hm, hf, Option.none_or, Bool.false_eq_true, if_false, if_neg h3, he]
  rfl

/-- A packet that is admitted and passes its chapter's checks replies with a status after all where its effect says so (R331). -/
theorem Acc.command_fails (a b : Acc) (r : CmdRow) (c : Pkt) (check : Acc → Option (Nat × Nat)) (eff : Nat → Acc → CmdEnd × Acc)
    (st : Nat) (h : Admits a.dev r c) (hc : check a = none) (he : eff a.dev.mgt.nextBg a = (.fails st, b)) :
    a.command r c check eff = b.upd (fun d => d.failed r c st) := by
  obtain ⟨hf, hm, h1, h2, h3, h7⟩ := h.facts
  simp only [Acc.command, if_neg h1, if_neg h2, if_neg h7, h.passes, hc, hm, hf, Option.none_or, Bool.false_eq_true, if_false, if_neg h3, he]
  rfl

/-- While a command is in progress in the foreground, or others wait, a packet that is heard joins the queue (R333). -/
theorem Acc.command_queues (a : Acc) (r : CmdRow) (c : Pkt) (check : Acc → Option (Nat × Nat)) (eff : Nat → Acc → CmdEnd × Acc)
    (h1 : a.dev.deaf (r.cls == .q) c = false) (h2 : trCode c.tr = 0 → c.mailboxLen.toNat = 16 + c.plen.toNat) (h : a.dev.queues c = true) :
    a.command r c check eff = a.upd (fun d => d.enqueue r.op c) := by
  have h2' : ¬ (trCode c.tr = 0 ∧ c.mailboxLen.toNat ≠ 16 + c.plen.toNat) := fun x => x.2 (h2 x.1)
  simp only [Acc.command, h1, Bool.false_eq_true, if_false, if_neg h2', h, if_true]

theorem Dev.command_done (d e : Dev) (r : CmdRow) (c : Pkt) (check : Dev → Option (Nat × Nat)) (eff : Nat → Dev → CmdEnd × Dev)
    (body : List Byte) (fl : Nat) (h : Admits d r c) (hc : check d = none) (he : eff d.mgt.nextBg d = (.done body fl, e)) :
    d.command r c check eff = e.answered r c fl body := by
  unfold Dev.command
  rw [Acc.command_done { dev := d, base := [], log := [] } { dev := e, base := [], log := [] } r c _ _ body fl h hc (by simp [he])]
  rfl

theorem Dev.command_runs (d e : Dev) (r : CmdRow) (c : Pkt) (check : Dev → Option (Nat × Nat)) (eff : Nat → Dev → CmdEnd × Dev)
    (arg : List Nat) (h : Admits d r c) (hc : check d = none) (he : eff d.mgt.nextBg d = (.runs arg, e)) :
    d.command r c check eff = e.running r c arg := by
  unfold Dev.command
  rw [Acc.command_runs { dev := d, base := [], log := [] } { dev := e, base := [], log := [] } r c _ _ arg h hc (by simp [he])]
  rfl

theorem Dev.command_fails (d e : Dev) (r : CmdRow) (c : Pkt) (check : Dev → Option (Nat × Nat)) (eff : Nat → Dev → CmdEnd × Dev)
    (st : Nat) (h : Admits d r c) (hc : check d = none) (he : eff d.mgt.nextBg d = (.fails st, e)) :
    d.command r c check eff = e.failed r c st := by
  unfold Dev.command
  rw [Acc.command_fails { dev := d, base := [], log := [] } { dev := e, base := [], log := [] } r c _ _ st h hc (by simp [he])]
  rfl

/-- A command that writes settings in pairs reads them back (R331): it goes on where they agree, and fails where they do not. -/
theorem Dev.command_stored (d e : Dev) (r : CmdRow) (c : Pkt) (check : Dev → Option (Nat × Nat)) (eff : Nat → Dev → CmdEnd × Dev)
    (ps : List (Nat × Nat)) (f : Dev → Dev) (h : Admits d r c) (hc : check d = none) (he : eff d.mgt.nextBg d = e.stored ps f) :
    d.command r c check eff =
      if (e.readBack ps).1 then (f (e.readBack ps).2).answered r c 0 [] else (e.readBack ps).2.failed r c stComplementMismatch := by
  by_cases hr : (e.readBack ps).1 = true
  · rw [if_pos hr, Dev.command_done d (f (e.readBack ps).2) r c check eff [] 0 h hc (by simp [he, Dev.stored, hr])]
  · rw [if_neg hr, Dev.command_fails d (e.readBack ps).2 r c check eff stComplementMismatch h hc (by simp [he, Dev.stored, hr])]

/-! ### What follows a command -/

theorem Dev.ackConflicts_of_none (d : Dev) (h : d.home.biConf = []) : d.ackConflicts = d := by
  have e : ({ d with home := { d.home with biConf := [] } } : Dev) = d := by
    conv_rhs => rw [show d = { d with home := { d.home with biConf := d.home.biConf } } from rfl, h]
  simp [Dev.ackConflicts, h, e]

/-- Nothing follows a command that leaves the device calm. -/
theorem Dev.settle_of_calm (d : Dev) (h : d.calm = true) : d.settle = d := by
  simp only [Dev.calm, Bool.and_eq_true, Bool.not_eq_true', Option.isNone_iff_eq_none, List.isEmpty_iff, beq_iff_eq] at h
  obtain ⟨⟨⟨⟨⟨⟨⟨h1, h2⟩, h3⟩, h4⟩, h5⟩, h6⟩, h7⟩, h8⟩ := h
  have e1 : d.retarget = d := by simp [Dev.retarget, h6, h7]
  have e2 : d.trySleep = d := by simp [Dev.trySleep, h5]
  have e3 : d.flashSync = d := by simp [Dev.flashSync, h8]
  simp [Dev.settle, h1, h2, h3, Dev.ackConflicts_of_none d h4, e1, e2, e3]

/-! ### Arrival -/

/-- While the ports are open no wake source has anything to do (R393, R394). -/
theorem Acc.wake_of_open (a : Acc) (k : Nat) (h : a.dev.portsOpen = true) : a.wake k = a := by
  simp only [Dev.portsOpen, Bool.and_eq_true, beq_iff_eq, Option.isNone_iff_eq_none] at h
  simp [Acc.wake, h.2, Dev.rouse, h.1.1.1, Acc.upd]

/-- An empty receive buffer has room for every request (R309). -/
theorem Dev.room_of_empty (d : Dev) (p : Nat) (b : Bool) (h : (d.portOf p).rx = []) (h' : (d.portOf p).epoch = []) (hx : d.home.xbar = []) :
    d.room p b = true := by
  simp only [Dev.room, h, h', hx, List.filter_nil, List.append_nil, List.length_nil]
  cases b <;> rfl

/-- A transfer with no injected error pending reaches its slice as it is (R378). -/
theorem Dev.toSlice_of_none (d : Dev) (q : Req) (h : d.flt.inj = []) : d.toSlice q = d := by
  simp [Dev.toSlice, Dev.crossed, h, takeInj, takeFirst]

end Sys2Proof.Machine
end

