-- ==== Sys2Proof/Laws/Telemetry.lean ====
section
/-! SUPPORT. What an event of a monitor unit can change (18_telemetry.md R421, R422): the unit's counters, the overflow bits in its control
register, and what the block sends out. -/

namespace Sys2Proof.Machine

/-- e is d after events of unit u: only registers and the messages sent differ, and of the registers only counters and the control register
of u. -/
def Dev.Counts (d : Dev) (u : Nat) (e : Dev) : Prop :=
  (∃ c o, e = { d with csr := c, out := o }) ∧ ∀ r, r ≠ rPMU_U_CTL u → (∀ k < 8, r ≠ rPMU_U_CNT u k) → e.rd r = d.rd r

theorem Dev.Counts.refl (d : Dev) (u : Nat) : d.Counts u d := ⟨⟨d.csr, d.out, rfl⟩, fun _ _ _ => rfl⟩

theorem Dev.Counts.trans {d e f : Dev} {u : Nat} (h : d.Counts u e) (g : e.Counts u f) : d.Counts u f := by
  obtain ⟨⟨c, o, rfl⟩, h⟩ := h
  obtain ⟨⟨c', o', rfl⟩, g⟩ := g
  exact ⟨⟨c', o', rfl⟩, fun r a b => (g r a b).trans (h r a b)⟩

theorem Dev.Counts.foldl {α : Type} {f : Dev → α → Dev} {u : Nat} (l : List α) (h : ∀ x ∈ l, ∀ d, Dev.Counts d u (f d x)) (d : Dev) :
    d.Counts u (l.foldl f d) := by
  induction l generalizing d with
  | nil => exact .refl d u
  | cons x l ih => exact (h x List.mem_cons_self d).trans (ih (fun y hy => h y (List.mem_cons_of_mem x hy)) (f d x))

theorem Dev.counts_set (d : Dev) (u k v : Nat) (hk : k < 8) : d.Counts u (d.set (fPMU_U_CNT_COUNT u k) v) :=
  ⟨⟨_, d.out, rfl⟩, fun _ _ h => d.rd_set_of_ne _ _ (h k hk)⟩

theorem Dev.counts_ovf (d : Dev) (u k : Nat) (b : Bool) : d.Counts u (d.setBit (fPMU_U_CTL_OVF u) k b) :=
  ⟨⟨_, d.out, rfl⟩, fun _ h _ => d.rd_set_of_ne _ _ h⟩

theorem Dev.counts_pmuIrq (d : Dev) (u : Nat) : d.Counts u (d.pmuIrq u) := by
  unfold Dev.pmuIrq
  dsimp only
  split
  · exact ⟨⟨d.csr, _, rfl⟩, fun _ _ _ => rfl⟩
  · exact ⟨⟨d.csr, _, rfl⟩, fun _ _ _ => rfl⟩

theorem Dev.counts_pmuLast (d : Dev) (u k inc : Nat) (hk : k < 8) : d.Counts u (d.pmuLast u k inc) := by
  unfold Dev.pmuLast
  dsimp only
  split
  · exact d.counts_set u k _ hk
  · refine (d.counts_set u k (d.get (fPMU_U_CNT_COUNT u k) + inc) hk).trans ?_
    refine (Dev.counts_ovf (d.set (fPMU_U_CNT_COUNT u k) (d.get (fPMU_U_CNT_COUNT u k) + inc)) u k true).trans ?_
    split
    · exact Dev.counts_pmuIrq _ u
    · exact .refl _ u

theorem Dev.counts_pmuAdd (d : Dev) (u k inc : Nat) (hk : k < 8) : d.Counts u (d.pmuAdd u k inc) := by
  unfold Dev.pmuAdd
  split
  · dsimp only
    split
    · exact d.counts_set u k _ hk
    · exact (d.counts_set u k _ hk).trans (Dev.counts_pmuLast _ u (k + 1) 1 (by omega))
  · exact d.counts_pmuLast u k inc hk

/-- An event changes only counters of its unit and their overflow bits, and may interrupt. -/
theorem Dev.counts_pmu (d : Dev) (u code sub cls inc : Nat) : d.Counts u (d.pmu u code sub cls inc) := by
  unfold Dev.pmu
  split
  · refine .foldl _ (fun k hk e => ?_) d
    split
    · exact e.counts_pmuAdd u k inc (List.mem_range.1 hk)
    · exact .refl e u
  · exact .refl d u

theorem Dev.counts_pmuCyc (d : Dev) (u code : Nat) (subs : List Nat) (n : Nat) : d.Counts u (d.pmuCyc u code subs n) := by
  unfold Dev.pmuCyc
  split
  · refine .foldl _ (fun k hk e => ?_) d
    split
    · exact e.counts_pmuAdd u k n (List.mem_range.1 hk)
    · exact .refl e u
  · exact .refl d u

/-- What the cycles of a tick add to the counters of a unit changes nothing else. -/
theorem Dev.counts_unitEvents (d : Dev) (u n : Nat) (hu : u < 44) : d.Counts u (d.unitEvents u n) := by
  unfold Dev.unitEvents
  split
  · exact (Dev.Counts.foldl _ (fun x _ e => e.counts_pmu u 0x12 x 8 _) d).trans (Dev.counts_pmuCyc _ u _ _ n)
  · split
    · have h : 8 + (u - 8) = u := by omega
      unfold Dev.sliceEvents
      dsimp only
      split
      · rw [h]; exact d.counts_pmu u _ _ _ _
      · rw [h]
        split
        · exact (d.counts_pmu u _ _ _ _).trans (Dev.counts_pmu _ u _ _ _ _)
        · exact d.counts_pmu u _ _ _ _
    · split
      · have h : 24 + (u - 24) = u := by omega
        unfold Dev.groupEvents
        dsimp only
        rw [h]
        exact (d.counts_pmuCyc u _ _ n).trans (.foldl _ (fun x _ e => e.counts_pmu u 0x39 x 8 _) _)
      · split
        · subst u; exact d.counts_pmuCyc 41 _ _ n
        · split
          · subst u; exact d.counts_pmuCyc 42 _ _ n
          · split
            · subst u
              unfold Dev.levelEvents
              split
              · exact d.counts_pmu 43 _ _ _ _
              · split
                · exact d.counts_pmu 43 _ _ _ _
                · exact .refl d 43
            · exact .refl d u

end Sys2Proof.Machine
end

