-- ==== Sys2Proof/Tests/Slice0.lean ====
section
/-! SUPPORT. Tests: the smoke test of WellFormed, the worked examples of the spec, and a witness for every statement of
Certificates/Slice0/Obligations.lean that has hypotheses: a state and operands that meet all of them together. -/

namespace Sys2Proof.Tests

open Sys2Proof Sys2Proof.Machine

-- One theorem after the other: the kernel evaluations of many at once take too much memory.
set_option Elab.async false

/-! ### Small states -/

/-- The reset state with its device changed. -/
def st (f : Dev → Dev) : State := { State.reset with dev := f State.reset.dev }

/-- One field written. -/
def fl (f : Fld) (v : Nat) (d : Dev) : Dev := d.set f v

/-- Fields written in order. -/
def fls (l : List (Fld × Nat)) (d : Dev) : Dev := l.foldl (fun d e => d.set e.1 e.2) d

/-- Firmware runs. -/
def fw (d : Dev) : Dev := { d with mgt := { d.mgt with fwRun := true } }

/-- The port p is linked and serves CXL.mem. -/
def linked (p : Nat) (d : Dev) : Dev :=
  d.updPort p (fun x => { x with perst := false, up := true, cxl := true, memEn := true, restored := true })

/-- Commands are taken. -/
def ready (d : Dev) : Dev := { d.set fMGT_STS_READY 1 with mgt := { d.mgt with booted := true } }

/-- The pair link in state v. -/
def pl (v : Nat) (d : Dev) : Dev := d.set fPAIR_STS_STATE v

/-- A packet over SMBus. -/
def pk (payload : List Nat) : Pkt :=
  { tr := .smbus, head := 0, ep := 0, tag := 0, ver := 1, flags := 0, plen := BitVec.ofNat 32 payload.length,
    plenC := BitVec.ofNat 32 (0xffffffff - payload.length), mailboxLen := 0, payload := payload.map (BitVec.ofNat 8) }

/-- A packet over session 0. -/
def pks (payload : List Nat) : Pkt := { pk payload with tr := .session 0 }

/-- Session 0 is secured. -/
def sess (d : Dev) : Dev := { d with mgt := { d.mgt with sessions := [⟨0, .smbus 0, true, true, true⟩] } }

/-- The four bytes of a number. -/
def le4 (v : Nat) : List Nat := toBytes 4 v

/-- Words, and their complements after them. -/
def pairW (l : List Nat) : List Nat := l.flatMap le4 ++ l.flatMap (fun v => le4 (0xffffffff - v))

theorem admits_of {d : Dev} {r : CmdRow} {c : Pkt} (h1 : trCode c.tr ≠ 0) (h2 : d.hdrCheck r c = none)
    (h3 : ((d.halted && !r.halt) || (d.fatal && !r.fatal)) = false) (h4 : d.permCheck r c = (none, d))
    (h5 : d.readyCheck r c = none) (h6 : d.bodyCheck r c = none) (h7 : r.basic = true → d.basic = false) (h8 : c.flags = 0)
    (h9 : d.deaf (r.cls == .q) c = false) (h10 : d.queues c = false := by decide) : Admits d r c := by
  refine ⟨h9, fun h => absurd h h1, ?_, h7, h8, fun _ h => absurd h h1, h10⟩
  simp [Dev.preCheck, h2, h3, h4, h5, h6]

theorem pair_of {α β : Type} {p : α × β} {x : α} (h : p.1 = x) : p = (x, p.2) := by subst h; rfl

theorem allows_fw {d : Dev} {k : Nat} (h : d.unitOff k = false) : d.allows .firmware k := h

/-- Window n with the words ws, each with its complement. -/
def winE (n : Nat) (ws : List Nat) (d : Dev) : Dev :=
  ((winWords n).zip ws).foldl (fun d e => d.wrPair e.1.1 e.1.2 e.2) d

/-- Window 0 of 2 MiB at DPA 0 for head 0, W0 given, its key range in use. -/
def win0 (w0 : Nat) (d : Dev) : Dev := (winE 0 [w0, 0, 1, 1, 0, 0] d).set (fSEC_KR_STS_STATE 0) 3

/-- A decoder of 256 MiB at HPA 0. -/
def dec0 : Decoder := { base := 0, size := 2 ^ 28, dpaBase := 0, ways := 1, gran := 8, bi := true, lock := false }

/-- Head 0 reaches window 0 through a decoder, with tokens for one line. -/
def host (d : Dev) : Dev :=
  ((linked 0 (win0 1 d)).updPort 0 (fun x => { x with decoders := [(0, dec0)], tokens := [(0, 64)] })).set (fQOS_CLS_KIND 0) 1

/-- A request of head 0 for line 0, resolved. -/
def rq (op : ROp) : Req := { head := 0, op := op, res := true }

/-- The device once the request has taken its tokens. -/
def spent (d : Dev) : Dev := d.updPort 0 (fun s => { s with tokens := tins s.tokens 0 (tget (fun _ => 0) (d.portOf 0).tokens 0 - 64) })

theorem spent_of {d : Dev} (h : (d.get (fQOS_PORT_CFG_MODE 0) = 0 && d.get (fQOS_CLS_KIND 0) == 1 &&
    64 ≤ tget (fun _ => 0) (d.portOf 0).tokens 0) = true) : d.takeTokens 0 0 = (true, spent d) := by
  simp only [Dev.takeTokens, h, if_true, spent]

/-- Head 0 with line 0 in the line buffer. -/
def hostBuf (d : Dev) : Dev := { host d with home := { d.home with lbuf := [(0, { data := 0 })] } }

/-- A request of head 0. -/
def rin : ReqIn := { head := 0, hpa := 0, tag := 0 }

/-- A read that waits for a snoop of head 0. -/
def snooping : Trans := { line := 0, req := rq .rdData, snoops := [{ head := 0, wait := [0], kind := .inv }], wait := .snoops, slot := .common 0 }

/-- Window 0 is ELASTIC, in Dynamic Capacity region 0 of 2 MiB blocks. -/
def elastic (d : Dev) : Dev := { win0 3 d with win := { d.win with dc := [(0, 0, 1, 0)] } }

/-- Key range 0 of 256 MiB is ACTIVE, mode ENC. -/
def kr0 (d : Dev) : Dev :=
  (((d.wrPair (rSEC_KR_CFG 0) (rSEC_KR_CFG_C 0) 3).wrPair (rSEC_KR_SIZE 0) (rSEC_KR_SIZE_C 0) 128).set (fSEC_KR_STS_STATE 0) 3)

/-- The image of window 0: BACKED, 2 MiB, for head 0. -/
def img0 : List Nat := [0x1001, 0, 1, 1, 0, 0]

/-- Commands are taken, the map is locked and the layout is set. -/
def placed (d : Dev) : Dev := fls [(fWIN_CTL_MAP_LOCK, 1), (fCDC_LAYOUT_SET 0, 1), (fCDC_LAYOUT_SIZE 0, 1)] (ready (kr0 d))

/-- A change of window 0. -/
def chg0 (filling : Bool) : WinChg := { win := 0, img := img0, filling := filling, kind := 0 }

/-- Slot n in state v, and its controller x. -/
def slotIn (n v : Nat) (x : SlotS) (d : Dev) : Dev := { d.set (fSLT_STS_STATE n) v with slot := [(n, x)] }

/-- An RDIMM of one rank. -/
def spd0 : Spd := { type := .rdimm, gbit := 16, ranks := 1, width := 4, devices := 10, stacked := false, rate := 48 }

/-- The channels are trained, with an RDIMM of one rank in slot 0 that is ON. -/
def chans (d : Dev) : Dev := { d.set (fSLT_STS_STATE 0) slOn with mch := { d.mch with trained := true, pop := [some spd0] } }

/-- A read of line 0 at subchannel 0. -/
def dq (id : Nat) (purp : DPurp) : DReq := { id := id, mpa := 0, source := 0, purp := purp, urg := 3 }

/-- Subchannel 0 holds x. -/
def sub0 (x : SubS) (d : Dev) : Dev := { d with mch := { d.mch with sub := [(0, x)] } }

/-- A read of line 0 waits for DRAM. -/
def reading : Trans := { line := 0, req := rq .rdData, wait := .dram, slot := .common 0 }

/-- A soft repair of channel 23 runs. -/
def repairing (d : Dev) : Dev := { d with mch := { d.mch with ppr := [(23, [23, 0, 0, 0, 0, 0, 0, 0])] } }

/-- Page 0 of window 0 is NEAR. -/
def near0 (d : Dev) : Dev := { elastic d with sec := { d.sec with mlines := [(0, ⟨1, peNear 0 0, false⟩)] } }

/-- Commands are taken, and the layout leaves a metadata region. -/
def placed0 (d : Dev) : Dev := fls [(fCDC_LAYOUT_SET 0, 1), (fCDC_LAYOUT_SIZE 0, 1), (fCDC_LAYOUT_SIZE 3, 64)] (ready d)

/-- The sweeper is on, window 0 is DISCARDABLE with pages to drop, and its page 0 is NEAR. -/
def swept (d : Dev) : Dev :=
  { fls [(fCDC_CTL_SWEEP_EN, 1), (fCDC_WPOL_DROP_AT 0, 1), (fCDC_LEVEL_LEVEL, 1)] (win0 5 d) with sec := { d.sec with mlines := [(0, ⟨1, peNear 0 0, false⟩)] } }

/-- A message of a type waits on a receive buffer, with the link in a state. -/
def rxMsg (state v : Nat) (m : PMsg) (d : Dev) : Dev := { pl state d with pair := { d.pair with rx := [(v, [[m]])] } }

/-- A message without payload. -/
def bare (ty : Nat) : PMsg := { mtype := ty, payload := [] }

/-- A frame of 256 bytes of zeros, good before correction or not. -/
def frm (fec : Bool) : FrameIn := { fecOk := fec, bytes := List.replicate 256 0 }

/-- A frame under the setup key with count 1: its encrypted body is zeros. -/
def frameBytes : List Byte := (toBytes 8 (2 ^ 42) ++ List.replicate 240 0 ++ [0, 233, 220, 239, 33, 195, 183, 58]).map (BitVec.ofNat 8)

/-- The link in a state, its receive key the setup key. -/
def keyed (v : Nat) (d : Dev) : Dev := { pl v d with pair := { (pl v d).pair with rxKey := some setupKey } }

/-- The frame with its last byte changed. -/
def badBytes : List Byte := frameBytes.take 255 ++ [59]

theorem frame_tag : setupKey.tag 1 (toBytes 8 (2 ^ 42)) (List.replicate 240 0) = [0, 233, 220, 239, 33, 195, 183, 58] := by decide +kernel

theorem frame_parts : (frameBytes.map BitVec.toNat).take 8 = toBytes 8 (2 ^ 42) ∧
    ((frameBytes.map BitVec.toNat).drop 8).take 240 = List.replicate 240 0 ∧
    ((frameBytes.map BitVec.toNat).drop 248).take 8 = [0, 233, 220, 239, 33, 195, 183, 58] := by decide +kernel

theorem bad_parts : (badBytes.map BitVec.toNat).take 8 = toBytes 8 (2 ^ 42) ∧
    ((badBytes.map BitVec.toNat).drop 8).take 240 = List.replicate 240 0 ∧
    ((badBytes.map BitVec.toNat).drop 248).take 8 = [0, 233, 220, 239, 33, 195, 183, 59] := by decide +kernel

theorem frame_verifies : setupKey.verifies 1 frameBytes = true := by
  obtain ⟨h1, h2, h3⟩ := frame_parts
  simp only [PKey.verifies, h1, h2, h3, frame_tag]; decide

theorem bad_fails : setupKey.verifies 1 badBytes = false := by
  obtain ⟨h1, h2, h3⟩ := bad_parts
  simp only [PKey.verifies, h1, h2, h3, frame_tag]; decide

theorem keyed_frameKey (b : List Byte) (hb : b.take 8 = frameBytes.take 8) :
    (keyed 2 State.reset.dev).frameKey (inHdr ⟨true, b⟩) = some (.cur, setupKey, 1) := by
  have h : leBytes b 0 8 = leBytes frameBytes 0 8 := by simp only [leBytes, List.drop_zero, hb]
  simp only [inHdr, h]; decide +kernel

/-- Window 0 is mirrored, in a mirror state. -/
def mirrored (v : Nat) (d : Dev) : Dev := (win0 0x11 d).set (fPAIR_MIRW_STS_STATE 0) v

/-- A packet of the mailbox of head 0. -/
def pkm (payload : List Nat) : Pkt := { pk payload with tr := .mailbox, mailboxLen := BitVec.ofNat 32 (16 + payload.length) }

theorem admits_mb {d : Dev} {r : CmdRow} {c : Pkt} (h0 : d.deaf (r.cls == .q) c = false) (h1 : c.mailboxLen.toNat = 16 + c.plen.toNat)
    (h2 : d.hdrCheck r c = none) (h3 : ((d.halted && !r.halt) || (d.fatal && !r.fatal)) = false) (h4 : d.permCheck r c = (none, d))
    (h5 : d.readyCheck r c = none) (h6 : d.bodyCheck r c = none) (h7 : r.basic = true → d.basic = false) (h8 : c.flags = 0)
    (h9 : r.bg = true → d.mailboxBg c.head.toNat = false) (h10 : d.queues c = false := by decide) : Admits d r c := by
  refine ⟨h0, fun _ => h1, ?_, h7, h8, fun h _ => h9 h, h10⟩
  simp [Dev.preCheck, h2, h3, h4, h5, h6]

theorem pairUse_of {d : Dev} {k kc : Nat} (h : d.flt.inj = []) (m : d.pairMatch k kc = true) : d.pairUse k kc = (true, d) := by
  simp [Dev.pairUse, h, takeInj, takeFirst, m]

/-- Job q of the last queue, at a place with slice 0. -/
def job1 (place : Nat) : JobE := { head := 31, queue := 15, seq := 0, desc := [], place := place, slice := 0 }

/-- The last queue in a state, its head linked. -/
def queue (st : Nat) (d : Dev) : Dev := (linked 31 d).set (fJDB_STS_STATE 31 15) st

/-- Record k stands with a severity and a reaction. -/
def recd (k sev react : Nat) (d : Dev) : Dev :=
  (d.wr (rFLT_REC k) (1 + 1 * 2 ^ 128 + sev * 2 ^ 144 + react * 2 ^ 147)).set (fFLT_REC_CTL_VALID k) 1

/-- Firmware runs in the main domain, with a command of each outcome. -/
def mainUp (d : Dev) : Dev := { d with pin := { d.pin with sysRst := false, mainEn := true, mainOk := true, mainUp := true, mgmtUp := true } }

/-- The sideband message of a type with an argument. -/
def sbm (n arg : Nat) : SidebandMsg :=
  { flags := 0, arg := BitVec.ofNat 32 arg, crc := BitVec.ofNat 16 (crc16 ([n, 0] ++ toBytes 4 arg)) }

theorem reset_step : step State.reset = .next State.reset.idle := by
  have h : State.reset.idle.dev.nextPkt = none := by decide +kernel
  show State.takePkt State.reset.idle = _
  simp only [State.takePkt, h]

theorem mayWrite_of {d : Dev} {h : Nat} {a : RegAt} (hk : 0x2000000 ≤ a.key ∨ 0x1000000 ≤ a.key ∧ a.key < 0x1200000 ∧ a.key ≠ 0x1100000)
    (h1 : (d.mayWrite h a).1 = true) : d.mayWrite h a = (true, d) := by
  refine Prod.ext h1 ?_
  unfold Dev.mayWrite; dsimp only
  split
  · rfl
  · split
    · rfl
    · rw [if_pos (by simp; omega)]; split <;> rfl

theorem applyAck_zero {d : Dev} {ack : Nat} (h : (ack + 4096 - d.get fPAIR_SEQ_ACKED) % 4096 = 0) : d.applyAck ack = some d := by
  simp [Dev.applyAck, h]

/-! ### The smoke test of WellFormed: an ill-formed command for each check, refused, beside a well-formed one -/

theorem test_wf_request : (Instr.memRd { rin with rivals := 6 } .a).wf = true := by decide
theorem test_ill_request_own_rival : (Instr.memRd { rin with rivals := 1 } .a).wf = false := by decide
theorem test_wf_mask : (Instr.memWrPtl rin .a 0 1 false).wf = true := by decide
theorem test_ill_mask_empty : (Instr.memWrPtl rin .a 0 0 false).wf = false := by decide

/-- A host that trains at a width and a rate code. -/
def train (w : Nat) (r : BitVec 3) : LinkTrain := { width := w, rate := r, hostFlit := true, hostLo := true, cxl := true }

theorem test_wf_train : (Instr.linkUp 0 (train 16 6)).wf = true := by decide
theorem test_ill_train_width : (Instr.linkUp 0 (train 12 6)).wf = false := by decide
theorem test_ill_train_rate : (Instr.linkUp 0 (train 16 7)).wf = false := by decide
theorem test_wf_extent : (Instr.addCapacity 0 0 [⟨0, 1⟩]).wf = true := by decide
theorem test_ill_extent : (Instr.addCapacity 0 0 [⟨0, 0⟩]).wf = false := by decide
theorem test_wf_population : (Instr.populationSettle (some spd0 :: List.replicate 47 none)).wf = true := by decide
theorem test_ill_population_length : (Instr.populationSettle []).wf = false := by decide
theorem test_ill_spd_width : (Instr.slotTrainingComplete 0 { spd0 with width := 16 }).wf = false := by decide
theorem test_ill_spd_ranks : (Instr.slotTrainingComplete 0 { spd0 with ranks := 0 }).wf = false := by decide
theorem test_ill_frame_body : (Instr.pairFrameReceive { frm true with bytes := [] }).wf = false := by decide
theorem test_ill_samples : (Instr.sensorSample []).wf = false := by decide
theorem test_ill_payload : (Instr.unknownOpcode { pk [] with payload := List.replicate 65536 0 } 0 0 0).wf = false := by
  simp only [Instr.wf, Pkt.wf, List.length_replicate]
  decide

/-! ### The spec's worked examples -/

/-- The last reply: STATUS and DETAIL (Table 13.2). -/
def lastReply (s : State) : Option (Nat × Nat) :=
  s.dev.out.reverse.findSome? (fun o => match o with
    | .reply _ _ b => some (leBytes b 2 2, leBytes b 12 4)
    | _ => none)

/-- A property of the next state. -/
def holdsNext (r : Host.Outcome State Fault Refusal) (p : State → Bool) : Bool :=
  match r with
  | .next s => p s
  | _ => false

/-- 02_host_links.md, the example of alias resolution on head 5. -/
def aliasDev : Dev :=
  let d := State.reset.dev.updPort 5 (fun x =>
    { x with decoders := [(3, { dec0 with base := 0x4000000000, size := 0x1000000000, dpaBase := 0x240000000, ways := 2, gran := 12 })] })
  fls [(fPDV_ALIAS_CTL_STRIDE_SHIFT 5 3, 40), (fPDV_ALIAS_MAP_ALIAS_N 5 3, 3), (fPDV_ALIAS_MAP_CLASSMAP 5 3, 1 + 3 * 8 + 4 * 64 + 6 * 512)] d

theorem test_alias_example :
    (aliasDev.resolve 5 0x24001234540).map (fun x => (x.2.1, x.2.2.1, x.2.2.2)) = some (2, 4, 0x4001234540) := by decide +kernel

/-- 03_windows.md, step 1 of the decode example. -/
theorem test_decode_example_dpa :
    ({ dec0 with base := 0x4000000000, size := 0x1000000000, dpaBase := 0x240000000, ways := 2, gran := 12 } : Decoder).dpa 0x4001234540
      = 0x24091A540 := by decide

/-- The reference geometry with the masks of Table 3.6 (03_windows.md). -/
def refGeom : Dev :=
  fls ([(fWIN_GEOM_AWIDTH, 39), (fWIN_GEOM_RANKB, 2), (fWIN_GEOM_DIMMB, 1), (fWIN_GEOM_ROWB, 17)] ++
    (List.range 6).flatMap (fun k => [(fWIN_BANKHASH_LO_MASK_LO k, (2 ^ (13 + k) + 2 ^ (22 + k) + 2 ^ (28 + k)) % 2 ^ 32),
      (fWIN_BANKHASH_HI_MASK_HI k, (2 ^ (13 + k) + 2 ^ (22 + k) + 2 ^ (28 + k)) / 2 ^ 32)])) State.reset.dev

/-- 03_windows.md, steps 4 to 8 of the decode example. -/
theorem test_decode_example_location : refGeom.locOf 0x100091A540 =
    { chan := 17, sub := 1, dimm := 1, rank := 2, bg := 2, bank := 2, row := 0x2AA, col := 113 } := by decide +kernel

/-- 04_coherence.md, step 1 of the example: from pointer 5, head 9 comes before head 3. -/
theorem test_pointer_example : ptrOrder 5 (2 ^ 3 + 2 ^ 9) = [9, 3] := by decide

/-- 07_encryption_integrity.md, the sizing example: depth 5, leaf 149,130, its ancestors and its tweak. -/
theorem test_tree_depth : treeDepth (2 ^ 29) 14 = 5 := by decide
theorem test_tree_nodes : treeNodes (2 ^ 29) 14 - 2 ^ 29 = 76693504 := by decide
theorem test_tree_leaf : 0x12345680 / 2048 = 0x2468A ∧ minorIdx (0x4012345680 / 64) = 26 := by decide
theorem test_tree_ancestors : (List.range 5).map (fun k => 0x2468A / 8 ^ (k + 1)) = [0x48D1, 0x91A, 0x123, 0x24, 0x4] := by decide
theorem test_tree_level1 : levelStart (2 ^ 29) 1 + 0x48D1 = 0x20000000 + 0x48D1 := by decide
theorem test_tweak_example : tweakLine (0x4012345680 / 64) 0 7 3 = 0x300700010048D15A := by decide

/-- 08_compression_tiering.md: streams of 310, 402, 5 and 650 bytes take a C4 cell. -/
theorem test_page_class_example : codedOf 310 402 5 650 = ⟨4, 6, 13, 14⟩ := by decide

/-- 08_compression_tiering.md, step 3 of the layout example: where the levels set and clear. -/
theorem test_levels_set : levelNext 0 150323855 1879048192 80 20 10 = 1 ∧ levelNext 0 150323856 1879048192 80 20 10 = 0 ∧
    levelNext 1 37580963 1879048192 80 20 10 = 2 ∧ levelNext 1 37580964 1879048192 80 20 10 = 1 := by decide
theorem test_levels_clear : levelNext 2 56371445 1879048192 80 20 10 = 2 ∧ levelNext 2 56371446 1879048192 80 20 10 = 1 ∧
    levelNext 1 169114337 1879048192 80 20 10 = 1 ∧ levelNext 1 169114338 1879048192 80 20 10 = 0 := by decide

/-- 11_job_engines.md: the CRC check values over the string 123456789, and the parity example. -/
theorem test_crc32c : crc32c [0x31, 0x32, 0x33, 0x34, 0x35, 0x36, 0x37, 0x38, 0x39] = 0xE3069283 := by decide +kernel
theorem test_crc64 : crc64 0 [0x31, 0x32, 0x33, 0x34, 0x35, 0x36, 0x37, 0x38, 0x39] = 0xAE8B14860A799888 := by decide +kernel
theorem test_ec_coefficients : ecCoef 2 0 0 = 0x8E ∧ ecCoef 2 0 1 = 0xF4 ∧ ecCoef 2 1 0 = 0xF4 ∧ ecCoef 2 1 1 = 0x8E := by decide +kernel
theorem test_ec_parity : ecParity 2 0 [[1], [2]] = [0x7B] ∧ ecParity 2 1 [[1], [2]] = [0xF5] := by decide +kernel

/-- AES-256-GCM's test case 13 of the GCM submission: no data under the zero key and nonce. -/
theorem test_gcm_tag : gcmTag (List.replicate 32 0) (List.replicate 12 0) [] [] =
    [0x53, 0x0F, 0x8A, 0xFB, 0xC7, 0x45, 0x36, 0xB9, 0xA9, 0x63, 0xB4, 0xF1, 0xC4, 0xCB, 0x73, 0x8B] := by decide +kernel

/-- R293: streams made by zlib, by the LZ4 library and by the Zstandard library, and a wrong Adler-32 (Table 11.6). -/
def decodes (r : Dec (List Nat)) (l : List Nat) : Bool :=
  match r with
  | .ok x => x == l
  | .error _ => false
def failsWith (r : Dec (List Nat)) (e off : Nat) : Bool :=
  match r with
  | .ok _ => false
  | .error x => x == (e, off)

theorem test_zlib : decodes (decompress 2 15 true [120, 218, 75, 76, 132, 131, 36, 0, 29, 155, 4, 142]) (List.replicate 11 97 ++ [98]) = true := by
  decide +kernel
theorem test_zlib_sum : failsWith (decompress 2 15 true [120, 218, 75, 76, 132, 131, 36, 0, 29, 155, 4, 143]) dSum 11 = true := by
  decide +kernel
theorem test_lz4 : decodes (decompress 5 16 true ([4, 34, 77, 24, 96, 64, 130, 12, 0, 0, 0, 47, 97, 98, 2] ++ [0, 5, 80, 97, 98, 97, 98, 88, 0, 0, 0, 0]))
    ((List.replicate 15 [97, 98]).flatten ++ [88]) = true := by decide +kernel
theorem test_zstd : decodes (decompress 4 23 true [40, 181, 47, 253, 32, 52, 85, 0, 0, 32, 97, 98, 99, 88, 1, 0, 25, 185, 33])
    ((List.replicate 17 [97, 98, 99]).flatten ++ [88]) = true := by decide +kernel

/-- 12_qos.md, steps 3 and 4 of the example, with C_rated taken as 1,801.9 GB/s. -/
theorem test_scale_throttled : 9000 * (18019 * 23 / 24 * 762 * 875 / 1000000) / (10 * 14400) = 719 := by decide

/-- 18_telemetry.md, step 6 of the ring example: two packets dropped, of KINDs 1 and 2. -/
theorem test_gap_word : gapWord 6 2 = 0x1D1F060000000002 := by decide

/-- 09_pair_link.md, step 7 of the example: an acknowledgement of SEQ 4094 releases one frame. -/
theorem test_ack_example :
    ((fls [(fPAIR_SEQ_ACKED, 4093), (fPAIR_SEQ_OUTSTANDING, 2)]
      { State.reset.dev with pair := { State.reset.dev.pair with outst := [⟨4094, 0, 0, []⟩, ⟨4095, 0, 0, []⟩] } }).applyAck 4094).map
      (fun d => (d.pair.outst.map (·.seq), d.get fPAIR_SEQ_ACKED, d.get fPAIR_SEQ_OUTSTANDING)) = some ([4095], 4094, 1) := by decide +kernel

/-- 13_commands.md, the payload of the WIN_CREATE example, with W3_C as given. -/
def createPkt (w3c : Nat) : Pkt :=
  pks ([0x0000E201, 0x00001200, 0x00004000, 0x00000020, 0x00008000, 0,
    0xFFFF1DFE, 0xFFFFEDFF, 0xFFFFBFFF, w3c, 0xFFFF7FFF, 0xFFFFFFFF].flatMap le4)

/-- 13_commands.md: a wrong W3_C is refused with COMPLEMENT_MISMATCH, DETAIL 52. -/
theorem test_create_complement : holdsNext (exec (.winCreate (createPkt 0xFFFFFFEF)) (st (fun d => sess (ready d))))
    (fun s => lastReply s == some (5, 52)) = true := by decide +kernel

/-- 13_commands.md: a KEY_LOAD over plain SMBus is refused with NO_SESSION, DETAIL 0xFFFFFFFF. -/
theorem test_key_load_plain : holdsNext (exec (.keyLoad (pk ([3, 0, 0, 0] ++ List.replicate 32 0))) (st ready))
    (fun s => lastReply s == some (7, 0xFFFFFFFF)) = true := by decide +kernel

/-- 14_management.md R355: in a session without mutual authentication a KEY_LOAD is refused with NO_SESSION. -/
theorem test_key_load_unsecured : holdsNext (exec (.keyLoad (pks ([3, 0, 0, 0] ++ List.replicate 32 0)))
    (st (fun d => { ready d with mgt := { (ready d).mgt with sessions := [⟨0, .smbus 0, false, true, true⟩] } }))) (fun s => lastReply s == some (7, 0xFFFFFFFF)) = true := by
  decide +kernel

/-- 16_power_thermal.md R391, Table 16.7: in S3 a class C command over SMBus is not answered, and requests a wake with code 9. -/
theorem test_lite_wakes : holdsNext (exec (.pwrLimits (pk [0, 3, 2, 0])) (st (fl fPWR_SLEEP_STS_STATE 3)))
    (fun s => s.dev.pwr.exiting && s.dev.get fPWR_SLEEP_STS_LAST_WAKE == 9 && (lastReply s).isNone) = true := by decide +kernel

/-- R421, R426: with unit 8 counting front-starved slots, a tick at P0 counts 4 slots in each of 84 CORE cycles. -/
theorem test_front_starved :
    (fl fPMU_GCTL_RUN 1 (fl (fPMU_U_CTL_EN 8) 1 (fl (fPMU_U_EVSEL_EVENT 8 0) 0x22 (State.reset.dev.setBit fPMU_GSTS_ON 8 true)))).tick.get
      (fPMU_U_CNT_COUNT 8 0) = 336 := by decide +kernel

/-- No row of the opcode table has bits, so no word spells a command. -/
theorem test_no_words : decodeTableWord 32 0 = none := by decide

/-! ### Every statement's hypotheses are met: met_X_n is clause n, counted from 0, of the statement X -/

/-- 13_commands.md R330 step 1: an OPCODE_C that does not match is refused with OPCODE_MISMATCH, DETAIL its offset, 2. -/
theorem test_opcode_mismatch : holdsNext (exec (.unknownOpcode (pk []) 0xC802 0 0) (st ready)) (fun s => lastReply s == some (2, 2)) = true := by
  decide +kernel

/-- 13_commands.md R333: behind a packet that waits, a second one waits too, and neither has its reply yet. -/
theorem test_queue_joins : holdsNext (exec (.fwInfo { pk [] with tag := 1 }) (st (fun d =>
    { ready d with mgt := { (ready d).mgt with cmdq := [{ op := 0xC802, pkt := pk [] }] } })))
    (fun s => s.dev.mgt.cmdq.length == 2 && (lastReply s).isNone) = true := by decide +kernel
theorem met_HostRequestsComplete_0 : ∃ (s : State) (i : ReqIn) (m : Meta) (q : Req) (d : Dev) (sk : SlotKind) (x : PLine) (b : Acc), (Reaches s.dev i (.rd m) q) ∧ (Conforms (s.dev.counted q) q d) ∧ (Served d { q with conf := true }) ∧ (d.slotOf { q with conf := true } = some sk) ∧ (((s.acc.upd (fun _ => d.takeSlot { q with conf := true } sk)).serving { q with conf := true }).findData q.win (q.dpa / 64) q.cls { q with conf := true } true = (.have_ x, b)) :=
  ⟨st hostBuf, rin, .i, rq (.rd .i), (spent ((st hostBuf).dev.counted (rq (.rd .i)))), .common 0, (0, 0), _, ⟨by decide, fun h => absurd h (by decide), rfl, ⟨_, _, rfl, by decide⟩, by decide, rfl, by decide⟩, ⟨spent_of (by decide), by decide, by decide⟩, ⟨by decide, Dev.toSlice_of_none _ _ (by decide +kernel), by decide, by decide, by decide, by decide, Prod.ext (by decide +kernel) rfl, by decide, by decide, by decide, by decide, by decide, by decide⟩, by decide, pair_of (by decide +kernel)⟩

theorem met_HostRequestsComplete_1 : ∃ (s : State) (i : ReqIn) (q : Req) (d : Dev) (sk : SlotKind) (x : PLine) (b : Acc), (Reaches s.dev i .rdData q) ∧ (Conforms (s.dev.counted q) q d) ∧ (Served d { q with conf := true }) ∧ (d.slotOf { q with conf := true } = some sk) ∧ (((s.acc.upd (fun _ => d.takeSlot { q with conf := true } sk)).serving { q with conf := true }).findData q.win (q.dpa / 64) q.cls { q with conf := true } true = (.have_ x, b)) :=
  ⟨st hostBuf, rin, rq (.rdData), (spent ((st hostBuf).dev.counted (rq (.rdData)))), .common 0, (0, 0), _, ⟨by decide, fun h => absurd h (by decide), rfl, ⟨_, _, rfl, by decide⟩, by decide, rfl, by decide⟩, ⟨spent_of (by decide), by decide, by decide⟩, ⟨by decide, Dev.toSlice_of_none _ _ (by decide +kernel), by decide, by decide, by decide, by decide, Prod.ext (by decide +kernel) rfl, by decide, by decide, by decide, by decide, by decide, by decide⟩, by decide, pair_of (by decide +kernel)⟩

theorem met_HostRequestsComplete_2 : ∃ (a : Acc) (w : Nat) (dl : Nat) (b : LBuf), (a.dev.winTiered w = false) ∧ (tfind a.dev.home.lbuf dl = some b) ∧ (b.part = none) :=
  ⟨(st hostBuf).acc, 0, 0, { data := 0 }, by decide +kernel, rfl, rfl⟩

theorem met_HostRequestsComplete_3 : ∃ (s : State) (i : ReqIn) (m : Meta) (q : Req), (Reaches s.dev i (.inv m) q) ∧ (Served (s.dev.counted q) q) :=
  ⟨st host, rin, .a, rq (.inv .a), ⟨by decide, fun h => absurd h (by decide), rfl, ⟨_, _, rfl, by decide⟩, by decide, rfl, by decide⟩, ⟨by decide, Dev.toSlice_of_none _ _ (by decide +kernel), by decide, by decide, by decide, by decide, Prod.ext (by decide +kernel) rfl, by decide, by decide, by decide, by decide, by decide, by decide⟩⟩

theorem met_HostRequestsComplete_4 : ∃ (s : State) (i : ReqIn) (q : Req), (Reaches s.dev i .invNT q) ∧ (Served (s.dev.counted q) q) :=
  ⟨st host, rin, rq (.invNT), ⟨by decide, fun h => absurd h (by decide), rfl, ⟨_, _, rfl, by decide⟩, by decide, rfl, by decide⟩, ⟨by decide, Dev.toSlice_of_none _ _ (by decide +kernel), by decide, by decide, by decide, by decide, Prod.ext (by decide +kernel) rfl, by decide, by decide, by decide, by decide, by decide, by decide⟩⟩

theorem met_HostRequestsComplete_5 : ∃ (s : State) (i : ReqIn) (q : Req), (Reaches s.dev i .clnEvct q) ∧ (Served (s.dev.counted q) q) :=
  ⟨st host, rin, rq (.clnEvct), ⟨by decide, fun h => absurd h (by decide), rfl, ⟨_, _, rfl, by decide⟩, by decide, rfl, by decide⟩, ⟨by decide, Dev.toSlice_of_none _ _ (by decide +kernel), by decide, by decide, by decide, by decide, Prod.ext (by decide +kernel) rfl, by decide, by decide, by decide, by decide, by decide, by decide⟩⟩

theorem met_HostRequestsComplete_6 : ∃ (s : State) (i : ReqIn) (m : Meta) (data : LineData) (po : Bool) (q : Req) (d : Dev) (a : Acc) (b : Acc), (Reaches s.dev i (.wr m data po) q) ∧ (Conforms (s.dev.counted q) q d) ∧ (Served d { q with conf := true }) ∧ (((s.acc.upd (fun _ => d)).serving { q with conf := true }).dropWrite { q with conf := true } = (false, a)) ∧ (a.dev.winShared q.win = false) ∧ (a.dev.waitBehind { q with conf := true } = none) ∧ ((a.serving { q with conf := true }).tryWrite { q with conf := true } (wrRsp m) = (.ok, b)) :=
  ⟨st host, rin, .i, 0, true, rq (.wr .i 0 true), (spent ((st host).dev.counted (rq (.wr .i 0 true)))), (Acc.dropWrite (((st host).acc.upd (fun _ => (spent ((st host).dev.counted (rq (.wr .i 0 true)))))).serving { rq (.wr .i 0 true) with conf := true }) { rq (.wr .i 0 true) with conf := true }).2, (Acc.tryWrite (((Acc.dropWrite (((st host).acc.upd (fun _ => (spent ((st host).dev.counted (rq (.wr .i 0 true)))))).serving { rq (.wr .i 0 true) with conf := true }) { rq (.wr .i 0 true) with conf := true }).2).serving { rq (.wr .i 0 true) with conf := true }) { rq (.wr .i 0 true) with conf := true } (wrRsp (.i))).2, ⟨by decide, fun h => absurd h (by decide), rfl, ⟨_, _, rfl, by decide⟩, by decide, rfl, by decide⟩, ⟨spent_of (by decide), by decide, by decide⟩, ⟨by decide, Dev.toSlice_of_none _ _ (by decide +kernel), by decide, by decide, by decide, by decide, Prod.ext (by decide +kernel) rfl, by decide, by decide, by decide, by decide, by decide, by decide⟩, Prod.ext (by decide +kernel) rfl, by decide +kernel, by decide +kernel, Prod.ext (by decide +kernel) rfl⟩

theorem met_HostRequestsComplete_7 : ∃ (s : State) (i : ReqIn) (m : Meta) (data : LineData) (mask : BitVec 64) (po : Bool) (q : Req) (d : Dev) (a : Acc) (b : Acc), (Reaches s.dev i (.wrPtl m data mask po) q) ∧ (Conforms (s.dev.counted q) q d) ∧ (Served d { q with conf := true }) ∧ (((s.acc.upd (fun _ => d)).serving { q with conf := true }).dropWrite { q with conf := true } = (false, a)) ∧ (a.dev.winShared q.win = false) ∧ (a.dev.waitBehind { q with conf := true } = none) ∧ ((a.serving { q with conf := true }).tryWrite { q with conf := true } (wrRsp m) = (.ok, b)) :=
  ⟨st host, rin, .a, 0, 1, false, rq (.wrPtl .a 0 1 false), (spent ((st host).dev.counted (rq (.wrPtl .a 0 1 false)))), (Acc.dropWrite (((st host).acc.upd (fun _ => (spent ((st host).dev.counted (rq (.wrPtl .a 0 1 false)))))).serving { rq (.wrPtl .a 0 1 false) with conf := true }) { rq (.wrPtl .a 0 1 false) with conf := true }).2, (Acc.tryWrite (((Acc.dropWrite (((st host).acc.upd (fun _ => (spent ((st host).dev.counted (rq (.wrPtl .a 0 1 false)))))).serving { rq (.wrPtl .a 0 1 false) with conf := true }) { rq (.wrPtl .a 0 1 false) with conf := true }).2).serving { rq (.wrPtl .a 0 1 false) with conf := true }) { rq (.wrPtl .a 0 1 false) with conf := true } (wrRsp (.a))).2, ⟨by decide, fun h => absurd h (by decide), rfl, ⟨_, _, rfl, by decide⟩, by decide, rfl, by decide⟩, ⟨spent_of (by decide), by decide, by decide⟩, ⟨by decide, Dev.toSlice_of_none _ _ (by decide +kernel), by decide, by decide, by decide, by decide, Prod.ext (by decide +kernel) rfl, by decide, by decide, by decide, by decide, by decide, by decide⟩, Prod.ext (by decide +kernel) rfl, by decide +kernel, by decide +kernel, Prod.ext (by decide +kernel) rfl⟩

theorem met_HostRequestsComplete_8 : ∃ (a : Acc) (a1 : Acc) (a2 : Acc) (b : Acc) (q : Req), (a.dropWrite q = (false, a1)) ∧ (a1.dev.basic = false) ∧ (a1.dev.winMirrored q.win = false) ∧ (a1.dev.rebuildReads (q.dpa / 64) = false) ∧ (a1.onOut q.win (q.dpa / 64) = (false, a2)) ∧ (a2.storeLine q.win (q.dpa / 64) q.cls q q.op.wrIn = (.ok, b)) :=
  ⟨(st host).acc, _, _, _, (rq (.wr .i 0 false)), pair_of (by decide +kernel), by decide +kernel, by decide +kernel, by decide +kernel, pair_of (by decide +kernel), pair_of (by decide +kernel)⟩

theorem met_SliceEventsComplete_0 : ∃ (s : State) (sl : BitVec 4) (q : Req) (r : List Req), (s.dev.home.xbar.find? (fun q => lineSlice (q.dpa / 64) == sl.toNat && s.dev.xbarReady q && !s.dev.xbarAsks q) = some q) ∧ (r = s.dev.home.xbar.erase q) :=
  ⟨st (fun d => { d with home := { d.home with xbar := [{ rq .rdData with gr := true }] } }), 0, { rq .rdData with gr := true }, [], by decide +kernel, rfl⟩

theorem met_SliceEventsComplete_1 : ∃ (s : State) (line : DpaLine) (q : Req) (r : List Req), (s.dev.openOn line.toNat = false) ∧ (s.dev.retryOn line.toNat = false) ∧ (∀ x ∈ s.dev.tier.waits ++ s.dev.mir.waits, x.dpa / 64 ≠ line.toNat) ∧ (takeFirst (fun q => q.dpa / 64 == line.toNat) s.dev.home.waits = some (q, r)) ∧ (q.op.isWrite = false) :=
  ⟨st (fun d => { d with home := { d.home with waits := [rq .rdData] } }), 0, rq .rdData, [], by decide, by decide, by decide, by decide, by decide⟩

theorem met_SliceEventsComplete_2 : ∃ (s : State) (sl : BitVec 4) (set : BitVec 12) (q : Req) (r : List Req), (takeFirst (fun q => lineSlice (q.dpa / 64) == sl.toNat && dirSet (q.dpa / 64) == set.toNat) s.dev.home.retry = some (q, r)) ∧ ((s.dev.dirWay (q.dpa / 64)).isSome = true) ∧ (s.dev.openOn (q.dpa / 64) = false) ∧ ((s.dev.slotOf q).isSome = true) :=
  ⟨st (fun d => { d with home := { d.home with retry := [rq .rdData], dcache := [(0, ⟨0, 0, false⟩)] } }), 0, 0, rq .rdData, [], by decide, by decide, by decide, by decide⟩

theorem met_SliceEventsComplete_3 : ∃ (s : State) (sl : BitVec 4) (line : DpaLine) (v : DirEnt), (s.dev.home.victims.find? (fun v => v.line == line.toNat && lineSlice v.line == sl.toNat) = some v) :=
  ⟨st (fun d => { d with home := { d.home with victims := [⟨0, 0, true⟩] } }), 0, 0, ⟨0, 0, true⟩, by decide⟩

theorem met_SliceEventsComplete_4 : ∃ (s : State) (h : Head) (hpa : HpaLine) (c : Decoder) (al : Nat) (cls : Nat) (x : Nat), ((s.dev.portOf h.toNat).up = true) ∧ (s.dev.resolve h.toNat (hpa.toNat * 64) = some (c, al, cls, x)) :=
  ⟨st host, 0, 0, dec0, 0, 0, 0, by decide, by decide⟩

theorem met_SliceEventsComplete_5 : ∃ (s : State) (h : Head) (hpa : HpaLine) (c : Decoder) (al : Nat) (cls : Nat) (x : Nat) (d : Dev), ((s.dev.portOf h.toNat).up = true) ∧ (s.dev.resolve h.toNat (hpa.toNat * 64) = some (c, al, cls, x)) ∧ (d = s.dev.pmuHome (lineSlice (c.dpa x / 64)) 0x29 8) :=
  ⟨st host, 0, 0, dec0, 0, 0, 0, (st host).dev.pmuHome (lineSlice (dec0.dpa 0 / 64)) 0x29 8, by decide, by decide, rfl⟩

theorem met_SliceEventsComplete_6 : ∃ (s : State) (h : Head) (line : DpaLine) (t : Trans), (s.dev.transOf line.toNat = some t) ∧ (t.snoops.any (fun x => x.head == h.toNat && !x.wait.isEmpty) = true) :=
  ⟨st (fun d => { d with home := { d.home with trans := [snooping] } }), 0, 0, snooping, by decide, by decide⟩

theorem met_SliceEventsComplete_7 : ∃ (s : State) (h : Head), ((s.dev.portOf h.toNat).up = true) :=
  ⟨st (linked 0), 0, by decide⟩

theorem met_PortCommandsComplete_0 : ∃ (s : State) (p : Head), ((s.dev.portOf p.toNat).up = true) ∧ (s.dev.booted = false) :=
  ⟨st (linked 31), 31, by decide, by decide⟩

theorem met_PortCommandsComplete_1 : ∃ (s : State) (p : Head) (off : BitVec 12) (a : RegAt), ((s.dev.portOf p.toNat).up = true) ∧ (s.dev.booted = true) ∧ (regAt (0x8000000 + p.toNat * 0x1000 + off.toNat) = some a) :=
  ⟨st (fun d => ready (linked 31 d)), 31, 0x10, (regAt (0x8000000 + BitVec.toNat (31#5) * 0x1000 + BitVec.toNat (0x10#12))).get (by decide), by decide, by decide, (Option.some_get _).symm⟩

theorem met_PortCommandsComplete_2 : ∃ (s : State) (p : Head), ((s.dev.portOf p.toNat).up = true) ∧ (s.dev.booted = true) :=
  ⟨st (fun d => linked 31 (ready d)), 31, by decide, by decide⟩

theorem met_PortCommandsComplete_3 : ∃ (s : State) (p : Head), ((s.dev.portOf p.toNat).up = true) :=
  ⟨st (linked 31), 31, by decide⟩

theorem met_PortCommandsComplete_4 : ∃ (s : State) (p : Head), (s.dev.fwUp = true) ∧ ((s.dev.formed p.toNat).isSome = true) :=
  ⟨st fw, 28, by decide, by decide⟩

theorem met_PortCommandsComplete_5 : ∃ (s : State) (p : Head) (perst : Bool), ((s.dev.formed p.toNat).isSome = true) ∧ ((if perst then !(s.dev.portOf p.toNat).perst else (s.dev.portOf p.toNat).up) = true) :=
  ⟨st (linked 0), 0, false, by decide, by decide⟩

theorem met_PortCommandsComplete_6 : ∃ (s : State) (p : Head), ((s.dev.formed p.toNat).isSome = true) :=
  ⟨State.reset, 0, by decide⟩

theorem met_PortCommandsComplete_7 : ∃ (s : State) (p : Head), ((s.dev.portOf p.toNat).up = true) ∧ (s.dev.booted = true) ∧ (2 ≤ (s.dev.outOfL1 p.toNat).get fPWR_LIMITS_DEEPEST) :=
  ⟨st (fun d => (ready (linked 0 d)).set fPWR_LIMITS_DEEPEST 2), 0, by decide, by decide, by decide⟩

theorem met_DecoderCommandsComplete_0 : ∃ (s : State) (p : Head) (n : BitVec 5) (g : DecoderImage), ((s.dev.portOf p.toNat).up = true) ∧ (s.dev.cfgOnly p.toNat = false) ∧ (tfind (s.dev.decs p.toNat) n.toNat = none) ∧ (s.dev.aliasOk p.toNat n.toNat (s.dev.decoderOf p.toNat n.toNat g) = true) ∧ ((s.dev.setFlag (fPDV_ALIAS_CTL_ERR p.toNat n.toNat) false).commitBad p.toNat n.toNat (s.dev.decoderOf p.toNat n.toNat g) = false) ∧ (0 < g.size) :=
  ⟨st (fun d => linked 0 ((winE 0 [1, 0, 128, 1, 0, 0] d).set (fSEC_KR_STS_STATE 0) 3)), 0, 0, { base := 0, size := 1, skip := 0, ways := 1, granLog := 8, bi := true, lock := false }, by decide, by decide, by decide, by decide, by decide, by decide⟩

theorem met_DecoderCommandsComplete_1 : ∃ (s : State) (p : Head) (n : BitVec 5) (g : DecoderImage), ((s.dev.portOf p.toNat).up = true) ∧ (s.dev.cfgOnly p.toNat = false) ∧ (tfind (s.dev.decs p.toNat) n.toNat = none) ∧ (s.dev.aliasOk p.toNat n.toNat (s.dev.decoderOf p.toNat n.toNat g) = false) :=
  ⟨st (fun d => (linked 0 d).set (fPDV_ALIAS_CTL_STRIDE_SHIFT 0 31) 27), 0, 31, { base := 0, size := 1, skip := 0, ways := 1, granLog := 8, bi := true, lock := false }, by decide, by decide, by decide, by decide⟩

theorem met_DecoderCommandsComplete_2 : ∃ (s : State) (p : Head) (n : BitVec 5) (c : Decoder), ((s.dev.portOf p.toNat).up = true) ∧ (s.dev.cfgOnly p.toNat = false) ∧ (tfind (s.dev.decs p.toNat) n.toNat = some c) ∧ (c.lock = false) ∧ (∀ w ∈ s.dev.decWins c, s.dev.winShared w = true → s.dev.get (fHOME_HELD_COUNT p.toNat w) = 0) :=
  ⟨st host, 0, 0, dec0, by decide, by decide, by decide, by decide, by decide⟩

theorem met_DecoderCommandsComplete_3 : ∃ (s : State) (sw : Sweep) (rest : List Sweep) (lines : List Nat) (a : Acc), (s.dev.home.sweeps = sw :: rest) ∧ (lines = (List.range 8).map (s.dev.winBase (sw.wins.headD 0) / 64 + sw.cur + ·)) ∧ (a = lines.foldl (fun a l => let r := a.dirPeek (sw.wins.headD 0) l; if r.1.isNone then r.2.rebuildFor (sw.wins.headD 0) l else r.2) s.acc) :=
  ⟨st (fun d => { d with home := { d.home with sweeps := [⟨0, [0], 0⟩] } }), ⟨0, [0], 0⟩, [], _, _, by decide, rfl, rfl⟩

theorem met_LinkCommandsComplete_0 : ∃ (s : State) (p : Head) (t : LinkTrain) (f : Nat), (s.dev.formed p.toNat = some f) ∧ ((s.dev.portOf p.toNat).perst = false) ∧ ((s.dev.portOf p.toNat).up = false) ∧ (s.dev.lnkOn p.toNat = true) ∧ (1 ≤ t.width) ∧ (t.cxl = true) ∧ (2 ≤ min (s.dev.portOf p.toNat).adv t.rate.toNat) :=
  ⟨st (fun d => (linked 0 { d with pin := { d.pin with mainUp := true } }).setBit fPWR_DOM_STS_ON 24 true |>.updPort 0 (fun x => { x with up := false })), 0, { width := 1, rate := 2, hostFlit := false, hostLo := false, cxl := true }, 2, by decide, by decide, by decide, by decide, by decide, by decide, by decide⟩

theorem met_LinkCommandsComplete_1 : ∃ (s : State) (p : Head), ((s.dev.formed p.toNat).isSome = true) ∧ ((s.dev.portOf p.toNat).up = false) ∧ (5 ≤ (s.dev.portOf p.toNat).adv) :=
  ⟨State.reset, 0, by decide, by decide, by decide⟩

theorem met_LinkCommandsComplete_2 : ∃ (s : State) (p : Head) (n : Nat) (f : Nat) (a : Acc), ((s.dev.portOf p.toNat).up = true) ∧ (a = s.acc.upd (fun d => (((d.bumpSat (fPDV_LNK_ERR_REPLAYS p.toNat) n).pmuLnk p.toNat 0x14 8 n).correctable p.toNat 0 n).correctable p.toNat 1 f)) :=
  ⟨st (linked 31), 31, 1, 1, _, by decide, rfl⟩

theorem met_LinkCommandsComplete_3 : ∃ (s : State) (p : Head), ((s.dev.portOf p.toNat).up = true) ∧ (s.dev.get (fPDV_PORT_STS_IDE_MEM p.toNat) = 1) :=
  ⟨st (fun d => (linked 31 d).set (fPDV_PORT_STS_IDE_MEM 31) 1), 31, by decide, by decide⟩

theorem met_LinkCommandsComplete_4 : ∃ (s : State) (p : Head) (n : Nat), ((s.dev.portOf p.toNat).up = true) ∧ (s.dev.secured n = false) :=
  ⟨st (linked 31), 31, 0, by decide, by decide⟩

theorem met_LinkCommandsComplete_5 : ∃ (s : State) (p : Head) (n : Nat) (k : IdeStream) (r : IdeKmReq) (x : IdeS), ((s.dev.portOf p.toNat).up = true) ∧ (s.dev.secured n = true) ∧ (s.dev.halted = false) ∧ (((s.dev.portOf p.toNat).stream k).after r = some x) :=
  ⟨st (fun d => sess (linked 31 d)), 31, 0, .mem, .setStop true, _, by decide, by decide, by decide, rfl⟩

theorem met_IntervalCommandsComplete_1 : ∃ (d : Dev) (p : Nat), ((d.portOf p).reads = 0 ∨ d.target p = 0) :=
  ⟨State.reset.dev, 31, by decide⟩

theorem met_IntervalCommandsComplete_2 : ∃ (d : Dev) (p : Nat), ((d.portOf p).reads ≠ 0) ∧ (d.target p ≠ 0) :=
  ⟨fl (fMCH_PTGT_TGT_NS 31) 1 (State.reset.dev.updPort 31 (fun x => { x with reads := 1 })), 31, by decide, by decide⟩

theorem met_IntervalCommandsComplete_3 : ∃ (s : State), (s.dev.qos.rise = true) :=
  ⟨st (fun d => { d with qos := { d.qos with rise := true } }), by decide⟩

theorem met_IntervalCommandsComplete_4 : ∃ (s : State) (p : Head), ((s.dev.portOf p.toNat).up = true) ∧ (s.dev.get (fQOS_PORT_CFG_MODE p.toNat) = 1) ∧ (s.dev.heldOf p.toNat = []) :=
  ⟨st (fun d => (linked 31 d).set (fQOS_PORT_CFG_MODE 31) 1), 31, by decide, by decide, by decide⟩

theorem met_IntervalCommandsComplete_5 : ∃ (s : State) (h : Head) (w : WinId) (e : Extent), (s.dev.fwUp = true) ∧ (s.dev.winValid w.toNat = true) ∧ (s.dev.winTiered w.toNat = true) ∧ (s.dev.winMember w.toNat h.toNat = true) ∧ (s.dev.win.removing.contains w.toNat = false) ∧ (s.dev.offerOk h.toNat w.toNat e = true) :=
  ⟨st (fun d => fw (elastic d)), 0, 0, ⟨0, 1⟩, by decide, by decide, by decide, by decide, by decide, by decide⟩

theorem met_IntervalCommandsComplete_6 : ∃ (s : State) (h : Head) (exts : List Extent) (r : List (Nat × Nat × Nat) × List (Nat × Nat × Nat)), ((s.dev.portOf h.toNat).up = true) ∧ (s.dev.cfgOnly h.toNat = false) ∧ (cutExts s.dev.dcOf (s.dev.portOf h.toNat).offers exts = some r) ∧ (s.dev.extRoom ((s.dev.portOf h.toNat).extents ++ r.2) = true) :=
  ⟨st (fun d => (linked 0 (elastic d)).updPort 0 (fun x => { x with offers := [(0, 2, 0)] })), 0, [⟨1, 1⟩], ([(0, 1, 0)], [(1, 1, 0)]), by decide, by decide, by decide, by decide⟩

theorem met_WindowCommandsComplete_0 : ∃ (s : State) (c : Pkt), (Admits s.dev rowWinCreate c) ∧ (s.dev.createBad (imageIn c 0) = none) :=
  ⟨st placed, pk (pairW img0), admits_of (by decide) (by decide) (by decide) rfl (by decide) (by decide) (by decide) (by decide) (by decide), by decide⟩

theorem met_WindowCommandsComplete_1 : ∃ (s : State) (c : Pkt), (Admits s.dev rowWinModify c) ∧ (s.dev.modifyBad (c.at_ 0 1) (imageIn c 4) = none) :=
  ⟨st (fun d => winE 255 img0 (ready d)), pk ([255, 0, 0, 0] ++ pairW img0), admits_of (by decide) (by decide) (by decide) rfl (by decide) (by decide) (by decide) (by decide) (by decide), by decide⟩

theorem met_WindowCommandsComplete_2 : ∃ (s : State) (c : Pkt), (Admits s.dev rowWinRemove c) ∧ (s.dev.removeBad (c.at_ 0 1) = none) ∧ (s.dev.winTiered (c.at_ 0 1) = false) ∧ (s.dev.holders (c.at_ 0 1) = []) ∧ (s.dev.win.chg.any (fun g => g.win == c.at_ 0 1) = false) :=
  ⟨st (fun d => win0 1 (ready d)), pk [0, 255, 0, 0], admits_of (by decide) (by decide) (by decide) rfl (by decide) (by decide) (by decide) (by decide) (by decide), by decide, by decide, by decide, by decide⟩

theorem met_WindowCommandsComplete_3 : ∃ (s : State) (w : WinId) (g : WinChg), (s.dev.win.chg.find? (fun g => g.win == w.toNat && g.filling) = some g) ∧ (s.dev.krUsable (imKr g.img) = true) :=
  ⟨st (fun d => { kr0 d with win := { d.win with chg := [chg0 true] } }), 0, chg0 true, by decide, by decide⟩

theorem met_WindowCommandsComplete_4 : ∃ (s : State) (w : WinId) (g : WinChg), (s.dev.win.chg.find? (fun g => g.win == w.toNat && !g.filling) = some g) ∧ (s.dev.inFlight w.toNat = false) ∧ (s.dev.chgPowered g.img = true) :=
  ⟨st (fun d => { d with win := { d.win with chg := [chg0 false] } }), 0, chg0 false, by decide, by decide, by decide⟩

theorem met_WindowCommandsComplete_5 : ∃ (s : State) (h : Head) (exts : List Extent) (left : List (Nat × Nat × Nat)) (got : List (Nat × Nat × Nat)), ((s.dev.portOf h.toNat).up = true) ∧ (s.dev.cfgOnly h.toNat = false) ∧ (exts ≠ []) ∧ (cutExts s.dev.dcOf (s.dev.portOf h.toNat).extents exts = some (left, got)) ∧ (s.dev.extRoom left = true) ∧ (s.dev.win.removing = []) :=
  ⟨st (fun d => (linked 0 (elastic d)).updPort 0 (fun x => { x with extents := [(0, 2, 0)] })), 0, [⟨1, 1⟩], [(0, 1, 0)], [(1, 1, 0)], by decide, by decide, by decide, by decide, by decide, by decide⟩

theorem met_WindowCommandsComplete_6 : ∃ (s : State) (by_ : Writer), (s.dev.allows by_ rWIN_CTL) ∧ (s.dev.flag fWIN_CTL_MAP_LOCK = false) :=
  ⟨State.reset, .firmware, allows_fw (by decide), by decide⟩

theorem met_SlotEventsComplete_0 : ∃ (s : State) (present : BitVec 48), (∀ n < 48, s.dev.flag (fSLT_STS_PRESENT n) = present.getLsbD n) :=
  ⟨State.reset, 0, by decide⟩

theorem met_SlotEventsComplete_2 : ∃ (d : Dev) (n : Nat), (d.flag (fSLT_STS_PRESENT n) = false) :=
  ⟨State.reset.dev, 47, by decide⟩

theorem met_SlotEventsComplete_3 : ∃ (s : State) (n : SlotId), (s.dev.sltState n.val = slRamp) ∧ ((s.dev.slt n.val).fall = 0) :=
  ⟨st (slotIn 47 slRamp { ramp := 1 }), 47, by decide, by decide⟩

theorem met_SlotEventsComplete_4 : ∃ (s : State) (n : SlotId), (s.dev.sltState n.val = slRamp) ∧ ((s.dev.slt n.val).ramp = 3) ∧ ((s.dev.slt n.val).fall = 0) :=
  ⟨st (slotIn 47 slRamp { ramp := 3 }), 47, by decide, by decide, by decide⟩

theorem met_SlotEventsComplete_5 : ∃ (s : State) (n : SlotId), (s.dev.sltLive n.val = true) :=
  ⟨st (slotIn 47 slRamp { ramp := 1 }), 47, by decide⟩

theorem met_SlotEventsComplete_6 : ∃ (s : State) (n : SlotId), (s.dev.sltState n.val = slOn) :=
  ⟨st (slotIn 0 slOn {}), 0, by decide⟩

theorem met_SlotEventsComplete_7 : ∃ (s : State) (n : SlotId), (s.dev.sltLive n.val = false) :=
  ⟨State.reset, 0, by decide⟩

theorem met_SlotEventsComplete_8 : ∃ (s : State) (n : SlotId), ((s.dev.slt n.val).fall = 1) :=
  ⟨st (slotIn 47 slOn { fall := 1 }), 47, by decide⟩

theorem met_SlotEventsComplete_9 : ∃ (s : State) (n : SlotId), ((s.dev.slt n.val).fall = 2) :=
  ⟨st (slotIn 47 slOn { fall := 2, fallCause := 9 }), 47, by decide⟩

theorem met_SlotEventsComplete_10 : ∃ (s : State) (n : SlotId) (x : Spd), (s.dev.slotOut n.val = true) ∧ (s.dev.sltState n.val = slOn) ∧ ((s.dev.slt n.val).fall = 0) ∧ (s.dev.mch.trained = true) ∧ (s.dev.matchesChan (n.val / 2) x = true) :=
  ⟨st (fun d => { slotIn 47 slOn {} d with mch := { d.mch with out := [47], trained := true } }), 47, spd0, by decide, by decide, by decide, by decide, by decide⟩

theorem met_SlotEventsComplete_11 : ∃ (s : State) (n : SlotId), (s.dev.slotOut n.val = true) ∧ (s.dev.sltState n.val = slOn) ∧ ((s.dev.slt n.val).spd.isSome = true) :=
  ⟨st (fun d => { slotIn 47 slOn { spd := some spd0 } d with mch := { d.mch with out := [47] } }), 47, by decide, by decide, by decide⟩

theorem met_SlotCommandsComplete_0 : ∃ (s : State) (c : Pkt), (Admits s.dev rowSlotEnable c) ∧ (c.at_ 0 1 < 48) ∧ (s.dev.sltUse (c.at_ 0 1) = (true, s.dev)) ∧ (s.dev.enableBad (c.at_ 0 1) true = none) ∧ (s.dev.sltLive (c.at_ 0 1) = false) :=
  ⟨st (fun d => (ready d).set (fSLT_STS_PRESENT 47) 1), pk [47, 208, 0, 0], admits_of (by decide) (by decide) (by decide) rfl (by decide) (by decide) (by decide) (by decide) (by decide), by decide, rfl, by decide, by decide⟩

theorem met_SlotCommandsComplete_1 : ∃ (s : State) (c : Pkt), (Admits s.dev rowSlotDisable c) ∧ (c.at_ 0 1 < 48) ∧ (s.dev.sltState (c.at_ 0 1) = slOn) :=
  ⟨st (fun d => slotIn 47 slOn {} (ready d)), pk [47, 208, 0, 0], admits_of (by decide) (by decide) (by decide) rfl (by decide) (by decide) (by decide) (by decide) (by decide), by decide, by decide⟩

theorem met_SlotCommandsComplete_2 : ∃ (s : State) (c : Pkt) (r : Bool × Dev), (Admits s.dev rowSlotLimits c) ∧ (c.at_ 0 1 < 48) ∧ (limitsBad (c.at_ 4 4) (c.at_ 8 4) = none) ∧ (r = ((s.dev.wrPair (rSLT_LIM0 (c.at_ 0 1)) (rSLT_LIM0_C (c.at_ 0 1)) (c.at_ 4 4)).wrPair (rSLT_LIM1 (c.at_ 0 1)) (rSLT_LIM1_C (c.at_ 0 1)) (c.at_ 8 4)).readBack [(rSLT_LIM0 (c.at_ 0 1), rSLT_LIM0_C (c.at_ 0 1)), (rSLT_LIM1 (c.at_ 0 1), rSLT_LIM1_C (c.at_ 0 1))]) :=
  ⟨st ready, pk ([47, 0, 0, 0] ++ pairW [0x410401, 0x4b550101]), _, admits_of (by decide) (by decide) (by decide) rfl (by decide) (by decide) (by decide) (by decide) (by decide), by decide, by decide, rfl⟩

theorem met_SlotCommandsComplete_3 : ∃ (s : State) (n : SlotId), (s.dev.sltUse n.val = (true, s.dev)) ∧ (s.dev.sltLive n.val = false) :=
  ⟨State.reset, 47, rfl, by decide⟩

theorem met_PowerCommandsComplete_0 : ∃ (s : State) (k : Fin 56), (s.dev.domWanted k.val = true) ∧ (s.dev.bit fPWR_DOM_STS_ON k.val = false) :=
  ⟨st (fun d => { d with pin := { d.pin with mainUp := true } }), 0, by decide, by decide⟩

theorem met_PowerCommandsComplete_1 : ∃ (s : State) (k : Fin 56), (s.dev.domWanted k.val = false) ∧ (s.dev.bit fPWR_DOM_STS_ON k.val = true) ∧ (s.dev.domIdle k.val = true) :=
  ⟨st (fl fPWR_DOM_STS_ON 1), 0, by decide, by decide, by decide⟩

theorem met_PowerCommandsComplete_2 : ∃ (s : State), (s.dev.pwr.vf = 1) :=
  ⟨st (fun d => { d with pwr := { d.pwr with vf := 1, vfTo := 3 } }), by decide⟩

theorem met_PowerCommandsComplete_3 : ∃ (s : State), (2 ≤ s.dev.pwr.vf) :=
  ⟨st (fun d => { d with pwr := { d.pwr with vf := 2, vfTo := 3 } }), by decide⟩

theorem met_PowerCommandsComplete_4 : ∃ (s : State) (c : Pkt), (Admits s.dev rowPwrLimits c) ∧ (c.at_ 0 1 ≤ c.at_ 1 1) ∧ (c.at_ 1 1 ≤ 3) ∧ (c.at_ 2 1 ≤ 3) :=
  ⟨st ready, pk [3, 3, 3, 0], admits_of (by decide) (by decide) (by decide) rfl (by decide) (by decide) (by decide) (by decide) (by decide), by decide, by decide, by decide⟩

theorem met_ThermalCommandsComplete_0 : ∃ (s : State), (s.dev.flag fTHM_STS_DEVLOAD = true) ∧ (s.dev.flag fTHM_STS_THROT = true) :=
  ⟨st (fls [(fTHM_STS_DEVLOAD, 1), (fTHM_STS_THROT, 1)]), by decide, by decide⟩

theorem met_ThermalCommandsComplete_1 : ∃ (s : State), (s.dev.flag fTHM_STS_THROT = true) ∧ (s.dev.get fTHM_STS_STAGE ≠ 0) :=
  ⟨st (fls [(fTHM_STS_THROT, 1), (fTHM_STS_STAGE, 3)]), by decide, by decide⟩

theorem met_ThermalCommandsComplete_2 : ∃ (s : State), (s.dev.flag fTHM_STS_THROT = false) ∧ (s.dev.get fTHM_STS_STAGE ≠ 0) ∧ (s.dev.pwr.hold2 = false ∨ s.dev.get fTHM_STS_STAGE ≠ 2) :=
  ⟨st (fls [(fTHM_STS_STAGE, 2)]), by decide, by decide, .inl (by decide)⟩

theorem met_ThermalCommandsComplete_3 : ∃ (d : Dev) (k : Nat), (k < 4) ∧ (k ≠ d.get fTHM_STS_STAGE) :=
  ⟨State.reset.dev, 3, by decide, by decide⟩

theorem met_ThermalCommandsComplete_5 : ∃ (s : State) (c : Pkt), (Admits s.dev rowThmThresh c) ∧ (s.dev.flt.inj = []) ∧ (50 ≤ c.at_ 0 1) ∧ (c.at_ 0 1 < c.at_ 1 1) ∧ (c.at_ 1 1 ≤ 110) ∧ (c.at_ 0 1 + c.at_ 3 1 + 2 ≤ c.at_ 1 1) ∧ (c.at_ 1 1 < c.at_ 2 1) ∧ (c.at_ 2 1 ≤ 118) ∧ (c.at_ 1 1 + c.at_ 3 1 + 2 ≤ c.at_ 2 1) ∧ (1 ≤ c.at_ 3 1) ∧ (c.at_ 3 1 ≤ 8) ∧ (10 ≤ c.at_ 8 2) ∧ (c.at_ 8 2 ≤ 10000) :=
  ⟨st ready, pk (le4 0x08766c32 ++ le4 0xf78993cd ++ [16, 39, 0, 0]), admits_of (by decide) (by decide) (by decide) rfl (by decide) (by decide) (by decide) (by decide) (by decide), by decide, by decide, by decide, by decide, by decide, by decide, by decide, by decide, by decide, by decide, by decide, by decide⟩

theorem met_SleepCommandsComplete_0 : ∃ (s : State) (c : Pkt), (Admits s.dev rowPwrSleep c) ∧ (1 ≤ c.at_ 0 1) ∧ (c.at_ 0 1 ≤ 3) :=
  ⟨st ready, pk [3, 0, 0, 0], admits_of (by decide) (by decide) (by decide) rfl (by decide) (by decide) (by decide) (by decide) (by decide), by decide, by decide⟩

theorem met_SleepCommandsComplete_1 : ∃ (s : State) (st : Nat) (bg : Option Nat), (s.dev.pwr.sleepReq = some (st, bg)) :=
  ⟨st (fun d => { d with pwr := { d.pwr with sleepReq := some (3, none) } }), 3, none, by decide⟩

theorem met_SleepCommandsComplete_2 : ∃ (s : State) (st : Nat) (bg : Option Nat), (s.dev.pwr.entering = some (st, bg)) :=
  ⟨st (fun d => { d with pwr := { d.pwr with entering := some (3, none) } }), 3, none, by decide⟩

theorem met_SleepCommandsComplete_3 : ∃ (s : State) (k : BitVec 4) (st : Nat) (bg : Option Nat), (s.dev.pwr.entering = some (st, bg)) ∧ (s.dev.wakes k.toNat st = true) :=
  ⟨st (fun d => { d with pwr := { d.pwr with entering := some (3, none) } }), 9, 3, none, by decide, by decide⟩

theorem met_SleepCommandsComplete_4 : ∃ (s : State) (k : BitVec 4), (s.dev.pwr.entering = none) ∧ (s.dev.get fPWR_SLEEP_STS_STATE ≠ 0) ∧ (s.dev.pwr.exiting = false) ∧ (s.dev.wakes k.toNat (s.dev.get fPWR_SLEEP_STS_STATE) = true) :=
  ⟨st (fl fPWR_SLEEP_STS_STATE 1), 1, by decide, by decide, by decide, by decide⟩

theorem met_SleepCommandsComplete_5 : ∃ (s : State), (s.dev.get fPWR_TIMER_MS ≠ 0) ∧ (s.dev.flag fPWR_WAKE_CTL_TIMER_MODE = true) :=
  ⟨st (fls [(fPWR_TIMER_MS, 1), (fPWR_WAKE_CTL_TIMER_MODE, 1)]), by decide, by decide⟩

theorem met_SleepCommandsComplete_6 : ∃ (s : State) (p : Head), ((s.dev.portOf p.toNat).up = true) :=
  ⟨st (linked 31), 31, by decide⟩

theorem met_TrainingCommandsComplete_0 : ∃ (s : State), (s.dev.fwUp = true) ∧ (s.dev.get fMCH_POP_STS_RESULT = 0) :=
  ⟨st fw, by decide, by decide⟩

theorem met_TrainingCommandsComplete_1 : ∃ (d : Dev) (spd : List (Option Spd)), (∀ n < 48, dimmOk ((List.range 48).map (d.dimmAt spd)) n = true) :=
  ⟨(List.range 48).foldl (fun d n => d.set (fSLT_STS_STATE n) slOn) State.reset.dev, List.replicate 48 (some spd0), by decide +kernel⟩

theorem met_TrainingCommandsComplete_2 : ∃ (s : State), (s.dev.mch.trained = false) ∧ (s.dev.get fMCH_POP_STS_RESULT = 1 ∨ s.dev.get fMCH_POP_STS_RESULT = 2) :=
  ⟨st (fl fMCH_POP_STS_RESULT 2), by decide, by decide⟩

theorem met_TrainingCommandsComplete_3 : ∃ (s : State), (s.dev.mch.trained = true) ∧ (s.dev.mch.initDone = false) ∧ (s.dev.mgt.bootKind = 0) :=
  ⟨st chans, by decide, by decide, by decide⟩

theorem met_TrainingCommandsComplete_4 : ∃ (s : State) (ch : Chan) (r : BitVec 3), (s.dev.dramOn = true) ∧ (s.dev.rankHere ch.val r.toNat = true) :=
  ⟨st chans, 0, 0, by decide, by decide⟩

theorem met_TrainingCommandsComplete_5 : ∃ (d : Dev) (ch : Nat) (sub : Nat) (r : Nat), (d.rankWaits (subKey ch sub) r = true) ∧ (cnt (d.subOf (subKey ch sub)).post r < d.postpone ch) :=
  ⟨sub0 { rq := [dq 0 .access] } State.reset.dev, 0, 0, 0, by decide, by decide⟩

theorem met_TrainingCommandsComplete_6 : ∃ (s : State) (ch : Chan) (r : BitVec 3), (s.dev.dramOn = true) ∧ (s.dev.rankHere ch.val r.toNat = true) ∧ ((s.dev.rankOf (rankKey ch.val r.toNat)).trainTemp = none) :=
  ⟨st chans, 0, 0, by decide, by decide, by decide⟩

theorem met_TrainingCommandsComplete_7 : ∃ (s : State) (ch : Chan) (r : BitVec 3) (t : Int) (t0 : Int), (s.dev.dramOn = true) ∧ (s.dev.rankHere ch.val r.toNat = true) ∧ ((s.dev.rankOf (rankKey ch.val r.toNat)).trainTemp = some t0) ∧ (s.dev.get (fMCH_TRN_DRIFT_C ch.val) ≠ 0) ∧ (max (s.dev.get (fMCH_TRN_DRIFT_C ch.val)) 2 ≤ (t - t0).natAbs) :=
  ⟨st (fun d => ({ chans d with mch := { (chans d).mch with rank := [(0, { trainTemp := some 20 })] } } : Dev).set (fMCH_TRN_DRIFT_C 0) 10), 0, 0, 30, 20, by decide, by decide, by decide, by decide, by decide⟩

theorem met_TrainingCommandsComplete_8 : ∃ (s : State) (w : Writer) (ch : Chan), (s.dev.allows w (rMCH_TRN ch.val)) :=
  ⟨State.reset, .firmware, 23, allows_fw (by decide)⟩

theorem met_TrainingCommandsComplete_9 : ∃ (s : State) (ch : Chan) (r : BitVec 3), ((s.dev.rankOf (rankKey ch.val r.toNat)).retrain = true) :=
  ⟨st (fun d => { d with mch := { d.mch with rank := [(191, { retrain := true })] } }), 23, 7, by decide⟩

theorem met_TrainingCommandsComplete_10 : ∃ (s : State) (c : Pkt), (Admits s.dev rowRankRetrain c) ∧ (c.at_ 0 1 < 24) ∧ (c.at_ 1 1 < 8) ∧ (s.dev.rankHere (c.at_ 0 1) (c.at_ 1 1) = true) :=
  ⟨st (fun d => chans (ready d)), pk [0, 0, 0, 0], admits_of (by decide) (by decide) (by decide) rfl (by decide) (by decide) (by decide) (by decide) (by decide), by decide, by decide, by decide⟩

theorem met_SchedulerCommandsComplete_0 : ∃ (s : State), (s.dev.dramOn = true) :=
  ⟨st chans, by decide⟩

theorem met_SchedulerCommandsComplete_1 : ∃ (a : Acc) (ch : Nat) (sub : Nat) (r : Nat), (∀ q ∈ (a.dev.subOf (subKey ch sub)).mq, q.stale = false) ∧ (∀ i < 8, cnt (a.dev.subOf (subKey ch sub)).post i = 0) ∧ (r < 8) ∧ (cnt (a.dev.subOf (subKey ch sub)).forced r ≠ 0) ∧ (∀ i < r, cnt (a.dev.subOf (subKey ch sub)).forced i = 0) :=
  ⟨(st (sub0 { forced := [(7, 4)] })).acc, 0, 0, 7, by decide, by decide, by decide, by decide, by decide⟩

theorem met_SchedulerCommandsComplete_2 : ∃ (d : Dev) (ch : Nat) (sub : Nat) (c : List Cand), (c.any (fun x => x.r.urg == 3) = true) ∧ (c.any (fun x => x.r.urg == 3 && (d.subOf (subKey ch sub)).hit x) = false) :=
  ⟨State.reset.dev, 0, 0, [⟨dq 0 .access, State.reset.dev.locOf 0⟩], by decide, by decide⟩

theorem met_SchedulerCommandsComplete_3 : ∃ (s : SubS) (c : Cand) (r : Nat × Nat × Bool), (tfind s.rows c.bankKey = some r) :=
  ⟨{ rows := [(Cand.bankKey ⟨dq 0 .access, State.reset.dev.locOf 0⟩, (0, 0, false))] }, ⟨dq 0 .access, State.reset.dev.locOf 0⟩, (0, 0, false), by decide⟩

theorem met_SchedulerCommandsComplete_5 : ∃ (s : State) (ch : Chan) (sub : Bool) (c : Cand), (c ∈ s.dev.visible (subKey ch.val sub.toNat)) :=
  ⟨st (sub0 { rq := [dq 0 .access] }), 0, false, ⟨dq 0 .access, State.reset.dev.locOf 0⟩, by decide⟩

theorem met_DramReadsComplete_0 : ∃ (s : State) (ch : Chan) (sub : Bool) (id : Nat) (r : DReq) (rest : List DReq) (dl : Nat) (t : Trans) (b : LBuf), (takeFirst (fun r => r.id == id) (s.dev.subOf (subKey ch.val sub.toNat)).issued = some (r, rest)) ∧ (r.purp = .host dl) ∧ (s.dev.transOf dl = some t) ∧ (t.wait = .dram) ∧ (tfind s.dev.home.lbuf dl = some b) ∧ (b.part = none) :=
  ⟨st (fun d => { sub0 { issued := [dq 0 (.host 0)] } d with home := { d.home with trans := [reading], lbuf := [(0, { data := 0 })] } }), 0, false, 0, dq 0 (.host 0), [], 0, reading, { data := 0 }, rfl, by decide, rfl, by decide, rfl, by decide⟩

theorem met_DramReadsComplete_1 : ∃ (s : State) (ch : Chan) (sub : Bool) (id : Nat) (err : Codeword) (r : DReq) (rest : List DReq) (v : Nat), (takeFirst (fun r => r.id == id) (s.dev.subOf (subKey ch.val sub.toNat)).issued = some (r, rest)) ∧ (r.purp = .scrub 1 none) ∧ (r.served = none) ∧ (s.dev.lineOut r.mpa = false) ∧ (rsDecode (s.acc.line r.mpa ^^^ err) (s.dev.bankMark (s.dev.locOf (64 * r.mpa))) = .clean v) :=
  ⟨st (sub0 { issued := [dq 0 (.scrub 1 none)] }), 0, false, 0, 0, dq 0 (.scrub 1 none), [], 0, rfl, by decide, by decide, by decide, by decide +kernel⟩

theorem met_DramReadsComplete_2 : ∃ (s : State), (s.dev.flag fMCH_SCRUB_CTL_EN = true) ∧ (s.dev.dramOn = true) ∧ (s.dev.pin.initSince = true) ∧ (s.dev.mch.scrubBusy = false) :=
  ⟨st (fun d => ({ chans d with pin := { d.pin with initSince := true } } : Dev).set fMCH_SCRUB_CTL_EN 1), by decide, by decide, by decide, by decide⟩

theorem met_RetirementCommandsComplete_0 : ∃ (s : State) (c : Pkt) (f : Nat), (Admits s.dev rowFrameRetire c) ∧ (c.at_ 0 8 < s.dev.fitted) ∧ (c.at_ 0 8 / 4096 < s.dev.spareLo) ∧ (tfind s.dev.mch.redirect (c.at_ 0 8 / 4096) = none) ∧ (s.dev.spareFree = some f) :=
  ⟨st (fun d => (chans (ready d)).set fWIN_GEOM_AWIDTH 32), pk [0, 0, 0, 0, 0, 0, 0, 0], 25157632, admits_of (by decide) (by decide) (by decide) rfl (by decide) (by decide) (by decide) (by decide) (by decide), by decide, by decide, by decide, by decide +kernel⟩

theorem met_RetirementCommandsComplete_1 : ∃ (s : State) (f : Nat) (sp : Nat) (first : Nat) (orig : Nat) (bg : Option Nat) (a : Acc), (s.dev.mch.retiring = some (f, sp, first, bg)) ∧ (s.dev.frameBusy f first = false) ∧ (a = (List.range 64).foldl (fun a i => (a.mended (f * 64 + i)).2.wrRaw (sp * 64 + i) (a.mended (f * 64 + i)).1) s.acc) ∧ (orig = (a.dev.spareOf f).getD f) :=
  ⟨st (fun d => { d with mch := { d.mch with retiring := some (0, 25157632, 0, none) } }), 0, 25157632, 0, _, none, _, by decide, rfl, rfl, rfl⟩

theorem met_RetirementCommandsComplete_2 : ∃ (s : State) (c : Pkt), (Admits s.dev rowBankRetire c) ∧ (s.dev.bankBad c = none) :=
  ⟨st (fun d => chans (ready d)), pk [23, 1, 0, 7, 3, 1, 9, 0], admits_of (by decide) (by decide) (by decide) rfl (by decide) (by decide) (by decide) (by decide) (by decide), by decide⟩

theorem met_RetirementCommandsComplete_3 : ∃ (d : Dev) (b : List Nat) (k : Nat), ((d.brets (b.getD 0 0)).any (fun e => bretHolds e b) = false) ∧ (d.bretFree (b.getD 0 0) = some k) :=
  ⟨State.reset.dev, [23, 1, 0, 7, 3, 1, 9], 0, by decide, by decide⟩

theorem met_RetirementCommandsComplete_4 : ∃ (s : State) (c : Pkt), (Admits s.dev rowPprSoft c) ∧ (s.dev.repairBad c = none) :=
  ⟨st (fun d => { chans (ready d) with mch := { (chans d).mch with pprUsed := [[23, 1, 0, 7, 3, 9, 0]] } }), pk [23, 1, 0, 7, 3, 9, 0, 0, 0, 0, 0, 0], admits_of (by decide) (by decide) (by decide) rfl (by decide) (by decide) (by decide) (by decide) (by decide), by decide⟩

theorem met_RetirementCommandsComplete_6 : ∃ (s : State) (ch : Chan) (r : List Nat), (tfind s.dev.mch.ppr ch.val = some r) ∧ (tfind s.dev.mch.pprBuf ch.val = none) :=
  ⟨st repairing, 23, [23, 0, 0, 0, 0, 0, 0, 0], by decide, by decide⟩

theorem met_RetirementCommandsComplete_7 : ∃ (s : State) (ch : Chan) (r : List Nat) (buf : List (Codeword × Codeword)), (tfind s.dev.mch.ppr ch.val = some r) ∧ (tfind s.dev.mch.pprBuf ch.val = some buf) :=
  ⟨st (fun d => { repairing d with mch := { (repairing d).mch with pprBuf := [(23, [])] } }), 23, [23, 0, 0, 0, 0, 0, 0, 0], [], by decide, by decide⟩

theorem met_RetirementCommandsComplete_8 : ∃ (s : State) (c : Pkt), (Admits s.dev rowPprHard c) ∧ (s.dev.repairBad c = none) :=
  ⟨st (fun d => { chans (ready d) with mch := { (chans d).mch with pprUsed := [[23, 1, 0, 7, 3, 9, 0]] } }), pk [23, 1, 0, 7, 3, 9, 0, 0, 0, 0, 0, 0], admits_of (by decide) (by decide) (by decide) rfl (by decide) (by decide) (by decide) (by decide) (by decide), by decide⟩

theorem met_KeyCommandsComplete_0 : ∃ (s : State) (c : Pkt) (img : List Nat) (r : Bool × Dev), (Admits s.dev rowKrCreate c) ∧ (s.dev.krCreateBad c = none) ∧ (img = (List.range 4).map (krImage c)) ∧ (r = (s.dev.krDefine (c.at_ 0 1) img).readBack (krPairs (c.at_ 0 1))) :=
  ⟨st placed0, pk ([15, 0, 0, 0] ++ pairW [5, 0, 1, 0]), _, _, admits_of (by decide) (by decide) (by decide) rfl (by decide) (by decide) (by decide) (by decide) (by decide), by decide, rfl, rfl⟩

theorem met_KeyCommandsComplete_1 : ∃ (n : Nat), (n < 16) :=
  ⟨15, by decide⟩

theorem met_KeyCommandsComplete_2 : ∃ (s : State) (c : Pkt), (Admits s.dev rowKrRemove c) ∧ (c.at_ 0 1 < 16) ∧ (s.dev.krState (c.at_ 0 1) ≠ 0) ∧ (s.dev.krState (c.at_ 0 1) ≠ 4) ∧ (s.dev.krUsed (c.at_ 0 1) = false) :=
  ⟨st (fun d => (ready d).set (fSEC_KR_STS_STATE 15) 3), pk [15, 240, 0, 0], admits_of (by decide) (by decide) (by decide) rfl (by decide) (by decide) (by decide) (by decide) (by decide), by decide, by decide, by decide, by decide⟩

theorem met_KeyCommandsComplete_3 : ∃ (s : State) (c : Pkt), (Admits s.dev rowKeyLoad c) ∧ (c.at_ 0 1 < 16) ∧ (c.at_ 1 1 = 1) ∧ (s.dev.krState (c.at_ 0 1) = 3) :=
  ⟨st (fun d => sess ((ready d).set (fSEC_KR_STS_STATE 15) 3)), pks ([15, 1, 0, 0] ++ List.replicate 32 7), admits_of (by decide) (by decide) (by decide) rfl (by decide) (by decide) (by decide) (by decide) (by decide), by decide, by decide, by decide⟩

theorem met_KeyCommandsComplete_4 : ∃ (s : State) (c : Pkt), (Admits s.dev rowKeyLoad c) ∧ (c.at_ 0 1 < 16) ∧ (c.at_ 1 1 = 0) ∧ (s.dev.krState (c.at_ 0 1) = 1) ∧ (s.dev.flag (fSEC_KR_STS_KLOST (c.at_ 0 1)) = false) ∧ (s.dev.krFresh (c.at_ 0 1) = false) :=
  ⟨st (fun d => sess ((ready d).set (fSEC_KR_STS_STATE 15) 1)), pks ([15, 0, 0, 0] ++ List.replicate 32 7), admits_of (by decide) (by decide) (by decide) rfl (by decide) (by decide) (by decide) (by decide) (by decide), by decide, by decide, by decide, by decide, by decide⟩

theorem met_KeyCommandsComplete_5 : ∃ (s : State) (n : KeyRange), (s.dev.sec.init.contains n.toNat = true) ∧ (s.dev.sec.away = false) :=
  ⟨st (fun d => { d with sec := { d.sec with init := [15] } }), 15, by decide, by decide⟩

theorem met_KeyCommandsComplete_6 : ∃ (s : State) (n : KeyRange) (nx : Bool), ((tfind s.dev.sec.keys (2 * n.toNat + nx.toNat)).isSome = true) ∧ (s.dev.krState n.toNat = 3) :=
  ⟨st (fun d => ({ d with sec := { d.sec with keys := [(31, 7)] } } : Dev).set (fSEC_KR_STS_STATE 15) 3), 15, true, by decide, by decide⟩

theorem met_KeyCommandsComplete_7 : ∃ (s : State) (c : Pkt), (Admits s.dev rowSecHalt c) ∧ (c.at_ 0 4 = 0x4C414854) :=
  ⟨st ready, pk (pairW [0x4C414854]), admits_of (by decide) (by decide) (by decide) rfl (by decide) (by decide) (by decide) (by decide) (by decide), by decide⟩

theorem met_KeyCommandsComplete_8 : ∃ (s : State) (c : Pkt), (Admits s.dev rowKeyRotate c) ∧ (c.at_ 0 1 < 16) ∧ (s.dev.flag (fSEC_KR_STS_NEXT_LOADED (c.at_ 0 1)) = true) ∧ (s.dev.krState (c.at_ 0 1) = 3) :=
  ⟨st (fun d => fls [(fSEC_KR_STS_STATE 15, 3), (fSEC_KR_STS_NEXT_LOADED 15, 1)] (ready d)), pk [15, 240, 0, 0], admits_of (by decide) (by decide) (by decide) rfl (by decide) (by decide) (by decide) (by decide) (by decide), by decide, by decide, by decide⟩

theorem met_CounterTreeCommandsComplete_0 : ∃ (s : State) (o : Ovf), (s.dev.sec.ovf.find? s.dev.ovfReady = some o) ∧ (s.dev.krCheck o.n = (true, s.dev)) :=
  ⟨st (fun d => { kr0 d with sec := { d.sec with ovf := [⟨0, 0, 0, rq .invNT⟩] } }), ⟨0, 0, 0, rq .invNT⟩, rfl, Prod.ext (by decide +kernel) rfl⟩

theorem met_CounterTreeCommandsComplete_1 : ∃ (s : State) (n : KeyRange), (s.dev.krState n.toNat = 4) ∧ (s.dev.halted = false) ∧ (s.dev.pageQuiet (s.dev.get (fSEC_KR_ROTCUR_CURSOR n.toNat) / 4096) = true) ∧ (s.dev.krCheck n.toNat = (true, s.dev)) :=
  ⟨st (fl (fSEC_KR_STS_STATE 15) 4), 15, by decide, by decide, by decide, Prod.ext (by decide +kernel) rfl⟩

theorem met_CounterTreeCommandsComplete_2 : ∃ (a : Acc) (n : Nat), (a.dev.krFresh n = false) ∧ (a.dev.winOf (a.dev.get (fSEC_KR_ROTCUR_CURSOR n) / 4096 * 4096) = none) ∧ (a.dev.sec.nodes = []) ∧ (a.dev.sec.mlines = []) ∧ (a.dev.krBase n + a.dev.krSize n > a.dev.get (fSEC_KR_ROTCUR_CURSOR n) + 4096) :=
  ⟨(st kr0).acc, 0, by decide, by decide, by decide, by decide, by decide⟩

theorem met_CounterTreeCommandsComplete_3 : ∃ (s : State) (n : KeyRange) (q : Quar), (s.dev.krUsable n.toNat = true) ∧ (s.dev.sec.quar.find? (fun q => q.n == n.toNat) = some q) ∧ (q.curLevel ≠ q.level) ∧ (s.dev.krCheck n.toNat = (true, s.dev)) :=
  ⟨st (fun d => { kr0 d with sec := { d.sec with quar := [⟨0, 2, 0, 1, 0, 0, 0, false⟩] } }), 0, ⟨0, 2, 0, 1, 0, 0, 0, false⟩, by decide, by decide, by decide, Prod.ext (by decide +kernel) rfl⟩

theorem met_TieringCommandsComplete_0 : ∃ (s : State) (x : BitVec 36), (s.dev.tier.decoding.contains x.toNat = true) :=
  ⟨st (fun d => { d with tier := { d.tier with decoding := [5] } }), 5, by decide⟩

theorem met_TieringCommandsComplete_1 : ∃ (s : State) (bank : BitVec 2) (e : HEnt) (w : Nat), (s.dev.tier.reQ.find? (fun e => hlcBank (e.x / 4) == bank.toNat) = some e) ∧ (s.dev.encodes = true) ∧ (s.acc.PageReady (e.x / 4) w) ∧ (s.dev.krExh (s.dev.winKr w) = false) :=
  ⟨st (fun d => { elastic d with tier := { d.tier with reQ := [⟨0, [], 0, 0, 0, 0⟩] } }), 0, ⟨0, [], 0, 0, 0, 0⟩, 0, rfl, by decide, ⟨by decide, by decide, by decide, by decide, by decide, by decide, Prod.ext (by decide +kernel) rfl⟩, by decide⟩

theorem met_TieringCommandsComplete_2 : ∃ (s : State) (pg : BitVec 34) (w : Nat), (s.dev.tier.promoQ.contains pg.toNat = true) ∧ (s.dev.flag fCDC_CTL_MIG_EN = true) ∧ (s.dev.basic = false) ∧ (s.dev.get fCDC_LEVEL_LEVEL = 0) ∧ (s.acc.PageReady pg.toNat w) :=
  ⟨st (fun d => { (elastic d).set fCDC_CTL_MIG_EN 1 with tier := { d.tier with promoQ := [511] } }), 511, 0, by decide, by decide, by decide, by decide, ⟨by decide, by decide, by decide, by decide, by decide, by decide, Prod.ext (by decide +kernel) rfl⟩⟩

theorem met_TieringCommandsComplete_3 : ∃ (s : State) (pg : BitVec 34) (w : Nat), (s.dev.flag fCDC_CTL_MIG_EN = true) ∧ (s.acc.PageReady pg.toNat w) ∧ ((s.acc.pent w pg.toNat).2.demotable w pg.toNat (s.acc.pent w pg.toNat).1 = true) :=
  ⟨st (fun d => fls [(fCDC_CTL_MIG_EN, 1), (fCDC_THR_DEMOTE_BELOW, 1)] (near0 d)), 0, 0, by decide, ⟨by decide, by decide, by decide, by decide, by decide, by decide, Prod.ext (by decide +kernel) rfl⟩, by decide⟩

theorem met_TieringCommandsComplete_4 : ∃ (s : State) (pg : BitVec 34) (w : Nat), (s.dev.compacts = true) ∧ (s.acc.PageReady pg.toNat w) :=
  ⟨st (fun d => fls [(fCDC_CTL_COMPACT_EN, 1), (fCDC_LEVEL_LEVEL, 1)] (near0 d)), 511, 0, by decide, ⟨by decide, by decide, by decide, by decide, by decide, by decide, Prod.ext (by decide +kernel) rfl⟩⟩

theorem met_TieringCommandsComplete_5 : ∃ (s : State) (pg : BitVec 34) (w : Nat), (s.dev.flag fCDC_CTL_MIG_EN = true) ∧ (s.dev.get fCDC_MIG_SCAN_S ≠ 0) ∧ (s.dev.basic = false) ∧ (s.acc.PageReady pg.toNat w) :=
  ⟨st (fun d => fls [(fCDC_CTL_MIG_EN, 1), (fCDC_MIG_SCAN_S, 1)] (near0 d)), 0, 0, by decide, by decide, by decide, ⟨by decide, by decide, by decide, by decide, by decide, by decide, Prod.ext (by decide +kernel) rfl⟩⟩

theorem met_TieringCommandsComplete_6 : ∃ (s : State) (pg : BitVec 34) (w : Nat), (s.dev.get fCDC_LEVEL_LEVEL = 0) ∧ (s.acc.PageReady pg.toNat w) :=
  ⟨st near0, 0, 0, by decide, ⟨by decide, by decide, by decide, by decide, by decide, by decide, Prod.ext (by decide +kernel) rfl⟩⟩

theorem met_TieringCommandsComplete_7 : ∃ (s : State) (pg : BitVec 34) (w : Nat) (r : Nat), (s.dev.flag fCDC_CTL_SWEEP_EN = true) ∧ (s.dev.basic = false) ∧ (s.acc.dropRank pg.toNat = some r) ∧ (s.acc.isNext r = true) ∧ (s.acc.PageReady pg.toNat w) :=
  ⟨st swept, 0, 0, 1, by decide, by decide, by decide, by decide, ⟨by decide, by decide, by decide, by decide, by decide, by decide, Prod.ext (by decide +kernel) rfl⟩⟩

theorem met_TieringCommandsComplete_8 : ∃ (s : State), (s.dev.flag fCDC_STS_ORPHAN_SWEEP = true) :=
  ⟨st (fl fCDC_STS_ORPHAN_SWEEP 1), by decide⟩

theorem met_TieringCommandsComplete_9 : ∃ (s : State), (s.dev.tier.rebuild = true) :=
  ⟨st (fun d => { d with tier := { d.tier with rebuild := true } }), by decide⟩

theorem met_CapacityCommandsComplete_0 : ∃ (s : State) (c : Pkt), (Admits s.dev rowCapLayout c) ∧ (s.dev.layoutBad (layoutIn c) = none) :=
  ⟨st (fun d => (chans (ready d)).set fWIN_GEOM_AWIDTH 32), pk (le4 49133 ++ le4 0 ++ le4 0 ++ le4 1), admits_of (by decide) (by decide) (by decide) rfl (by decide) (by decide) (by decide) (by decide) (by decide), by decide⟩

theorem met_CapacityCommandsComplete_1 : ∃ (s : State) (c : Pkt), (Admits s.dev rowCapThresholds c) ∧ (c.at_ 2 2 < c.at_ 0 2) ∧ (c.at_ 0 2 ≤ 500) ∧ (1 ≤ c.at_ 2 2) ∧ (1 ≤ c.at_ 4 2) ∧ (c.at_ 4 2 ≤ 100) :=
  ⟨st ready, pk [244, 1, 1, 0, 100, 0, 0, 0], admits_of (by decide) (by decide) (by decide) rfl (by decide) (by decide) (by decide) (by decide) (by decide), by decide, by decide, by decide, by decide, by decide⟩

theorem met_CapacityCommandsComplete_2 : ∃ (s : State) (c : Pkt), (Admits s.dev rowCapWindowPolicy c) ∧ (s.dev.winValid (c.at_ 0 1) = true) ∧ (s.dev.winTiered (c.at_ 0 1) = true) ∧ (c.at_ 1 1 ≤ 1) ∧ (c.at_ 2 1 ≤ 1) ∧ (c.at_ 2 1 = 1) ∧ (s.dev.winKind (c.at_ 0 1) = 2) :=
  ⟨st (fun d => ready (win0 5 d)), pk [0, 1, 1, 0], admits_of (by decide) (by decide) (by decide) rfl (by decide) (by decide) (by decide) (by decide) (by decide), by decide, by decide, by decide, by decide, by decide, by decide⟩

theorem met_CapacityCommandsComplete_3 : ∃ (s : State) (c : Pkt), (Admits s.dev rowCapTierLimits c) ∧ (∀ i < 5, c.at_ (2 * i) 1 ≤ c.at_ (2 * i + 1) 1) :=
  ⟨st ready, pk [0, 63, 0, 63, 0, 63, 0, 3, 3, 3, 0, 0], admits_of (by decide) (by decide) (by decide) rfl (by decide) (by decide) (by decide) (by decide) (by decide), by decide⟩

theorem met_CapacityCommandsComplete_4 : ∃ (s : State) (c : Pkt), (Admits s.dev rowCapDcRegion c) ∧ (s.dev.dcBad (c.at_ 0 1) (c.at_ 1 1) (c.at_ 4 4) (c.at_ 8 4) = none) :=
  ⟨st ready, pk ([7, 2, 0, 0] ++ le4 0x3ffff ++ le4 1), admits_of (by decide) (by decide) (by decide) rfl (by decide) (by decide) (by decide) (by decide) (by decide), by decide⟩

theorem met_PairLinkEventsComplete_0 : ∃ (s : State), (s.dev.linkSt = 0) :=
  ⟨State.reset, by decide⟩

theorem met_PairLinkEventsComplete_3 : ∃ (s : State) (w : Writer), (s.dev.allows w rPAIR_CTL) :=
  ⟨State.reset, .firmware, allows_fw (by decide)⟩

theorem met_PairLinkEventsComplete_4 : ∃ (d : Dev), (d.canTrain = true) :=
  ⟨({ fls [(fPAIR_CTL_EN, 1), (fPWR_DOM_STS_ON, 2 ^ 32), (fMGT_STS_READY, 1), (fMGT_STS_MODE, 0)] (fw State.reset.dev) with pin := { State.reset.dev.pin with pairPresent := true } } : Dev), by decide⟩

theorem met_PairLinkEventsComplete_5 : ∃ (s : State) (tx : BitVec 16) (rx : BitVec 16) (slow : Bool), (s.dev.linkSt = 1) ∧ (s.dev.trainsSlow = slow) ∧ (4 ≤ popCount 16 tx.toNat) ∧ (4 ≤ popCount 16 rx.toNat) ∧ (s.dev.mir.pairing = none) :=
  ⟨st (pl 1), 0xf000, 0xffff, false, by decide, by decide, by decide, by decide, by decide⟩

theorem met_PairLinkEventsComplete_6 : ∃ (s : State), (s.dev.linkSt = 1) :=
  ⟨st (pl 1), by decide⟩

theorem met_PairLinkEventsComplete_7 : ∃ (s : State), (s.dev.linkSt = 2) :=
  ⟨st (pl 2), by decide⟩

theorem met_PairLinkEventsComplete_8 : ∃ (s : State), (s.dev.linkSt = 2 ∨ s.dev.linkSt = 3) :=
  ⟨st (pl 2), .inl (by decide)⟩

theorem met_PairLinkEventsComplete_9 : ∃ (s : State) (vc : BitVec 2), (s.dev.linkSt = 2 ∨ s.dev.linkSt = 3) ∧ (s.dev.txq vc.toNat ≠ []) ∧ (s.dev.get (fPAIR_VC_AVAIL vc.toNat) ≤ (if vc.toNat = 2 then 1 else 0)) :=
  ⟨st (fun d => { pl 3 d with pair := { d.pair with txq := [(2, [bare 0x30])] } }), 2, .inr (by decide), by decide, by decide⟩

theorem met_PairLinkEventsComplete_10 : ∃ (s : State), (s.dev.linkSt = 4) :=
  ⟨st (pl 4), by decide⟩

theorem met_PairLinkEventsComplete_11 : ∃ (s : State), (s.dev.linkSt = 4) :=
  ⟨st (pl 4), by decide⟩

theorem met_PairLinkEventsComplete_12 : ∃ (d : Dev) (tx : Nat) (rx : Nat), (4 ≤ popCount 16 (firstLanes tx d.pair.pauseW)) ∧ (4 ≤ popCount 16 (firstLanes rx d.pair.pauseW)) :=
  ⟨State.reset.dev, 0xf000, 0x000f, by decide, by decide⟩

theorem met_PairLinkEventsComplete_13 : ∃ (s : State) (lane : BitVec 4), (s.dev.linkSt = 3) ∧ (s.dev.flag fPAIR_CTL_DROP_EN = true) ∧ (s.dev.bit fPAIR_LANE_STS_RX_ACTIVE lane.toNat = true) ∧ (s.dev.pair.rxDrop = []) ∧ (5 ≤ s.dev.get fPAIR_STS_RX_W) :=
  ⟨st (fls [(fPAIR_STS_STATE, 3), (fPAIR_CTL_DROP_EN, 1), (fPAIR_LANE_STS_RX_ACTIVE, 0xffff), (fPAIR_STS_RX_W, 5), (fPAIR_LANE_STS_TX_ACTIVE, 0xffff), (fPAIR_STS_TX_W, 5)]), 15, by decide, by decide, by decide, by decide, by decide⟩

theorem met_PairLinkEventsComplete_14 : ∃ (s : State) (n : BitVec 32), (s.dev.get fPAIR_LANE_SER_THR = 0 ∨ n.toNat ≤ s.dev.get fPAIR_LANE_SER_THR) :=
  ⟨State.reset, 0, .inr (by decide)⟩

theorem met_PairLinkEventsComplete_15 : ∃ (s : State) (k : Nat) (t : List Nat), (s.dev.linkSt = 2 ∨ s.dev.linkSt = 3) ∧ (s.dev.pair.rxDrop = k :: t) :=
  ⟨st (fun d => { pl 3 d with pair := { d.pair with rxDrop := [15] } }), 15, [], .inr (by decide), by decide⟩

theorem met_PairLinkEventsComplete_16 : ∃ (s : State), (s.dev.linkSt = 5) :=
  ⟨st (pl 5), by decide⟩

theorem met_PairLinkEventsComplete_17 : ∃ (s : State), (s.dev.linkSt = 5) ∧ (s.dev.pair.waking = true) :=
  ⟨st (fun d => { pl 5 d with pair := { d.pair with waking := true } }), by decide, by decide⟩

theorem met_PairFramesComplete_0 : ∃ (s : State), (s.dev.linkSt = 2 ∨ s.dev.linkSt = 3) :=
  ⟨st (pl 3), .inr (by decide)⟩

theorem met_PairFramesComplete_1 : ∃ (d : Dev) (v : Nat), (d.pair.txRestripe = []) ∧ (d.pair.txCnt < keyLimit) ∧ (d.pair.replay = []) ∧ (d.pair.halt = none) ∧ (d.nextVc = some v) :=
  ⟨{ (fl (fPAIR_VC_AVAIL 0) 8 State.reset.dev) with pair := { State.reset.dev.pair with txq := [(0, [bare 1])] } }, 0, by decide, by decide, by decide, by decide, by decide⟩

theorem met_PairFramesComplete_2 : ∃ (d : Dev), (d.pair.txRestripe = []) ∧ (d.pair.txCnt < keyLimit) ∧ (d.pair.replay = []) ∧ (d.pair.halt = none) ∧ (d.nextVc = none) ∧ (d.pair.sleepOk = false) :=
  ⟨State.reset.dev, by decide, by decide, by decide, by decide, by decide, by decide⟩

theorem met_PairFramesComplete_3 : ∃ (s : State), (s.dev.linkSt = 2 ∨ s.dev.linkSt = 3) ∧ (s.dev.pair.outst ≠ []) ∧ (s.dev.pauseSent = false) ∧ (s.dev.pair.expiries + 1 < (if s.dev.get fPAIR_TMR1_REPLAY_MAX = 0 then 15 else s.dev.get fPAIR_TMR1_REPLAY_MAX)) :=
  ⟨st (fun d => { pl 3 d with pair := { d.pair with outst := [⟨0, 0, 0, []⟩] } }), .inr (by decide), by decide, by decide, by decide⟩

theorem met_PairFramesComplete_4 : ∃ (s : State), (s.dev.linkSt = 3) ∧ (s.dev.fwUp = true) ∧ (s.dev.pair.rxNew = none) :=
  ⟨st (fun d => fw (pl 3 d)), by decide, by decide, by decide⟩

theorem met_PairFramesComplete_5 : ∃ (s : State), (s.dev.linkSt = 3) ∧ (s.dev.fwUp = true) ∧ (s.dev.pair.txNext = none) ∧ (2 ^ 31 ≤ s.dev.pair.txCnt) :=
  ⟨st (fun d => { fw (pl 3 d) with pair := { d.pair with txCnt := 2 ^ 31 } }), by decide, by decide, by decide, by decide⟩

theorem met_PairFramesComplete_6 : ∃ (s : State) (f : FrameIn), (s.dev.linkSt = 2 ∨ s.dev.linkSt = 3) ∧ (s.dev.frameGood f = true) :=
  ⟨st (keyed 2), ⟨true, frameBytes⟩, .inl (by decide), by show (keyed 2 State.reset.dev).frameGood ⟨true, frameBytes⟩ = true; simp only [Dev.frameGood, keyed_frameKey frameBytes rfl, frame_verifies, Bool.and_self]⟩

theorem met_PairFramesComplete_7 : ∃ (d : Dev) (f : FrameIn) (ph : RxPhase) (k : PKey) (c : Nat), (f.fecOk = true) ∧ (d.frameKey (inHdr f) = some (ph, k, c)) ∧ (k.verifies c f.bytes = true) :=
  ⟨keyed 2 State.reset.dev, ⟨true, frameBytes⟩, .cur, setupKey, 1, by decide, keyed_frameKey _ rfl, frame_verifies⟩

theorem met_PairFramesComplete_8 : ∃ (s : State) (f : FrameIn), (s.dev.linkSt = 2 ∨ s.dev.linkSt = 3) ∧ (f.fecOk = false) :=
  ⟨st (pl 3), frm false, .inr (by decide), by decide⟩

theorem met_PairMessagesComplete_0 : ∃ (s : State) (m : PMsg), (s.dev.rxHead 2 = some m) ∧ (m.mtype = 0x20) ∧ ((m.at_ 0 1).testBit 0 = true) ∧ ((m.at_ 0 1).testBit 1 = true) ∧ ((s.dev.rxTake 2).pair.spdmIn = none) :=
  ⟨st (rxMsg 2 2 { mtype := 0x20, payload := [3, 0] }), { mtype := 0x20, payload := [3, 0] }, by decide, by decide, by decide, by decide, by decide⟩

theorem met_PairMessagesComplete_1 : ∃ (s : State) (m : PMsg), (s.dev.rxHead 2 = some m) ∧ (m.mtype = 0x20) ∧ ((m.at_ 0 1).testBit 0 = true) ∧ ((m.at_ 0 1).testBit 1 = false) ∧ ((s.dev.rxTake 2).pair.spdmIn = none) :=
  ⟨st (rxMsg 2 2 { mtype := 0x20, payload := [1, 0] }), { mtype := 0x20, payload := [1, 0] }, by decide, by decide, by decide, by decide, by decide⟩

theorem met_PairMessagesComplete_2 : ∃ (d : Dev) (peer : Nat) (r : Nat × Nat), (d.fwUp = true) ∧ (d.linkSt = 2) ∧ (d.mir.pairing = some r) ∧ (r.2 = ofBytes (sha256 (toBytes 32 peer))) ∧ (d.pair.session = false) :=
  have h : ∀ x : Nat, x = ofBytes (sha256 (toBytes 32 7)) → ∃ (d : Dev) (peer : Nat) (r : Nat × Nat), (d.fwUp = true) ∧ (d.linkSt = 2) ∧ (d.mir.pairing = some r) ∧ (r.2 = ofBytes (sha256 (toBytes 32 peer))) ∧ (d.pair.session = false) := fun x hx => ⟨{ (pl 2 (fw State.reset.dev)) with mir := { (pl 2 (fw State.reset.dev)).mir with pairing := some (0, x) } }, 7, (0, x), (show (pl 2 (fw State.reset.dev)).fwUp = true from by decide), (show (pl 2 (fw State.reset.dev)).linkSt = 2 from by decide), rfl, hx, (show (pl 2 (fw State.reset.dev)).pair.session = false from by decide)⟩
  h _ rfl

theorem met_PairMessagesComplete_3 : ∃ (s : State) (m : PMsg), (s.dev.rxHead 2 = some m) ∧ (m.mtype = 0x21) ∧ (s.dev.linkSt = 3) ∧ (s.dev.pair.pause = 0) :=
  ⟨st (rxMsg 3 2 (bare 33)), bare 33, by decide, by decide, by decide, by decide⟩

theorem met_PairMessagesComplete_4 : ∃ (d : Dev), (d.pair.pause = 0) ∧ (d.pair.pauseBg = none) ∧ (∀ x ∈ d.txq 2, x.mtype ≠ 0x21) :=
  ⟨State.reset.dev, by decide, by decide, by decide⟩

theorem met_PairMessagesComplete_5 : ∃ (s : State) (m : PMsg), (s.dev.rxHead 2 = some m) ∧ (m.mtype = 0x22) ∧ (s.dev.linkSt = 3) ∧ (s.dev.pair.pause = 1) :=
  ⟨st (fun d => { rxMsg 3 2 (bare 0x22) d with pair := { (rxMsg 3 2 (bare 0x22) d).pair with pause := 1 } }), bare 0x22, by decide, by decide, by decide, by decide⟩

theorem met_PairMessagesComplete_6 : ∃ (s : State) (m : PMsg), (s.dev.rxHead 2 = some m) ∧ (m.mtype = 0x23) ∧ (s.dev.linkSt = 3) ∧ (s.dev.bit fPAIR_LANE_STS_TX_ACTIVE (m.at_ 0 1) = true) ∧ (s.dev.pair.txRestripe = []) ∧ (5 ≤ s.dev.get fPAIR_STS_TX_W) :=
  ⟨st (fun d => rxMsg 3 2 { mtype := 0x23, payload := [15] } (fls [(fPAIR_STS_STATE, 3), (fPAIR_CTL_DROP_EN, 1), (fPAIR_LANE_STS_RX_ACTIVE, 0xffff), (fPAIR_STS_RX_W, 5), (fPAIR_LANE_STS_TX_ACTIVE, 0xffff), (fPAIR_STS_TX_W, 5)] d)), { mtype := 0x23, payload := [15] }, by decide, by decide, by decide, by decide, by decide, by decide⟩

theorem met_PairMessagesComplete_7 : ∃ (s : State) (m : PMsg), (s.dev.rxHead 2 = some m) ∧ (m.mtype = 0x24) ∧ (s.dev.linkSt = 3) ∧ ((List.range 256).any s.dev.mirLive = true) :=
  ⟨st (fun d => rxMsg 3 2 (bare 0x24) (mirrored mirInsync d)), bare 0x24, by decide, by decide, by decide, by decide⟩

theorem met_PairMessagesComplete_8 : ∃ (s : State) (m : PMsg), (s.dev.rxHead 2 = some m) ∧ (m.mtype = 0x24) ∧ (s.dev.linkSt = 3) ∧ ((List.range 256).any s.dev.mirLive = false) ∧ (∀ v < 4, s.dev.txq v = []) ∧ (s.dev.pair.outst = []) :=
  ⟨st (rxMsg 3 2 (bare 0x24)), bare 0x24, by decide, by decide, by decide, by decide +kernel, by decide, by decide⟩

theorem met_PairMessagesComplete_9 : ∃ (s : State) (m : PMsg), (s.dev.rxHead 2 = some m) ∧ (m.mtype = 0x25) ∧ (s.dev.linkSt = 3) ∧ (s.dev.pair.sleepReq = true) :=
  ⟨st (fun d => { rxMsg 3 2 (bare 0x25) d with pair := { (rxMsg 3 2 (bare 0x25) d).pair with sleepReq := true } }), bare 0x25, by decide, by decide, by decide, by decide⟩

theorem met_PairMessagesComplete_10 : ∃ (s : State) (m : PMsg), (s.dev.rxHead 2 = some m) ∧ (m.mtype = 0x26) :=
  ⟨st (rxMsg 3 2 (bare 38)), bare 38, by decide, by decide⟩

theorem met_PairMessagesComplete_11 : ∃ (s : State) (c : Pkt), (Admits s.dev rowPairLinkSet c) ∧ (4 ≤ c.at_ 0 1) ∧ (c.at_ 0 1 ≤ 16) ∧ (c.at_ 1 1 ≤ 1) ∧ (s.dev.linkSt = 3) ∧ (s.dev.pair.pause = 0) :=
  ⟨st (fun d => pl 3 (ready d)), pk [4, 1, 0, 0], admits_of (by decide) (by decide) (by decide) rfl (by decide) (by decide) (by decide) (by decide) (by decide), by decide, by decide, by decide, by decide, by decide⟩

theorem met_MirrorCommandsComplete_0 : ∃ (s : State) (c : Pkt), (Admits s.dev rowMirPair c) ∧ (c.at_ 0 1 ≤ 1) :=
  ⟨st ready, pk ([1, 254, 0, 0] ++ List.replicate 32 7), admits_of (by decide) (by decide) (by decide) rfl (by decide) (by decide) (by decide) (by decide) (by decide), by decide⟩

theorem met_MirrorCommandsComplete_1 : ∃ (s : State) (c : Pkt), (Admits s.dev rowMirTarget c) ∧ (s.dev.winValid (c.at_ 0 1) = true) ∧ (s.dev.winKind (c.at_ 0 1) = 0) ∧ (s.dev.winShared (c.at_ 0 1) = false) ∧ (s.dev.winMirrored (c.at_ 0 1) = false) ∧ (s.dev.winCovered (c.at_ 0 1) = false) ∧ (s.dev.mirSt (c.at_ 0 1) = 0 ∨ s.dev.mirSt (c.at_ 0 1) = mirPromoted) :=
  ⟨st (fun d => win0 1 (ready d)), pk [0, 255, 0, 0], admits_of (by decide) (by decide) (by decide) rfl (by decide) (by decide) (by decide) (by decide) (by decide), by decide, by decide, by decide, by decide, by decide, .inl (by decide)⟩

theorem met_MirrorCommandsComplete_2 : ∃ (s : State) (c : Pkt), (Admits s.dev rowMirUntarget c) ∧ (s.dev.mirSt (c.at_ 0 1) = mirTarget) :=
  ⟨st (fun d => fl (fPAIR_MIRW_STS_STATE 255) mirTarget (ready d)), pk [255, 0, 0, 0], admits_of (by decide) (by decide) (by decide) rfl (by decide) (by decide) (by decide) (by decide) (by decide), by decide⟩

theorem met_MirrorCommandsComplete_3 : ∃ (s : State) (c : Pkt), (Admits s.dev rowMirResume c) ∧ (s.dev.mirSt (c.at_ 0 1) = mirSolo) ∧ (s.dev.linkSt = 3) :=
  ⟨st (fun d => fl (fPAIR_MIRW_STS_STATE 255) mirSolo (pl 3 (ready d))), pk [255, 0, 0, 0], admits_of (by decide) (by decide) (by decide) rfl (by decide) (by decide) (by decide) (by decide) (by decide), by decide, by decide⟩

theorem met_MirrorCommandsComplete_4 : ∃ (s : State) (c : Pkt), (Admits s.dev rowMirResume c) ∧ (s.dev.mirSt (c.at_ 0 1) = mirSolo) ∧ (s.dev.linkSt ≠ 3) :=
  ⟨st (fun d => fl (fPAIR_MIRW_STS_STATE 255) mirSolo (ready d)), pk [255, 0, 0, 0], admits_of (by decide) (by decide) (by decide) rfl (by decide) (by decide) (by decide) (by decide) (by decide), by decide, by decide⟩

theorem met_MirrorCommandsComplete_5 : ∃ (s : State) (c : Pkt), (Admits s.dev rowMirBitmap c) ∧ (c.at_ 0 2 ≤ 256) ∧ (s.dev.windows.any s.dev.winMirrored = false) :=
  ⟨st ready, pk [0, 1, 0, 0], admits_of (by decide) (by decide) (by decide) rfl (by decide) (by decide) (by decide) (by decide) (by decide), by decide, by decide⟩

theorem met_MirrorCommandsComplete_6 : ∃ (s : State) (c : Pkt) (r : List Nat), (Admits s.dev rowMirShadow c) ∧ (c.at_ 0 1 = 0) ∧ (tfind s.dev.mir.shWin (c.at_ 1 1) = some r) :=
  ⟨st (fun d => { ready d with mir := { d.mir with shWin := [(255, [1, 0, 0, 0, 0, 0, 0])] } }), pk [0, 255, 0, 0], [1, 0, 0, 0, 0, 0, 0], admits_of (by decide) (by decide) (by decide) rfl (by decide) (by decide) (by decide) (by decide) (by decide), by decide, by decide⟩

theorem met_MirrorCommandsComplete_7 : ∃ (s : State) (c : Pkt), (Admits s.dev rowMirPromote c) ∧ (s.dev.mirSt (c.at_ 0 1) = mirTarget) ∧ (s.dev.linkSt ≠ 3) ∧ (s.dev.flag fPAIR_MIR_STS_SB_ALIVE = true) ∧ (s.dev.mir.sbFlags.testBit 1 = false) ∧ (s.dev.mir.claim = none) :=
  ⟨st (fun d => fls [(fPAIR_MIRW_STS_STATE 255, mirTarget), (fPAIR_MIR_STS_SB_ALIVE, 1)] (ready d)), pk [255, 0, 255, 0], admits_of (by decide) (by decide) (by decide) rfl (by decide) (by decide) (by decide) (by decide) (by decide), by decide, by decide, by decide, by decide, by decide⟩

theorem met_MirrorCommandsComplete_8 : ∃ (s : State) (c : Pkt), (Admits s.dev rowMirPromote c) ∧ (s.dev.mirSt (c.at_ 0 1) = mirTarget) ∧ (s.dev.linkSt ≠ 3) ∧ (s.dev.flag fPAIR_MIR_STS_SB_ALIVE = false) ∧ (c.at_ 1 1 % 2 = 1) ∧ (s.dev.mir.claim = none) :=
  ⟨st (fun d => fl (fPAIR_MIRW_STS_STATE 255) mirTarget (ready d)), pk [255, 1, 254, 0], admits_of (by decide) (by decide) (by decide) rfl (by decide) (by decide) (by decide) (by decide) (by decide), by decide, by decide, by decide, by decide, by decide⟩

theorem met_MirrorMessagesComplete_0 : ∃ (s : State) (m : PMsg), (s.dev.linkSt = 3) ∧ (s.dev.rxHead 2 = some m) ∧ (m.mtype = 0x28) :=
  ⟨st (rxMsg 3 2 (bare 0x28)), bare 0x28, by decide, by decide, by decide⟩

theorem met_MirrorMessagesComplete_1 : ∃ (d : Dev) (kind : Nat) (i : Nat) (g0 : Nat) (old : List Nat), (kind = 0) ∧ (tfind d.mir.shWin i = some (g0 :: old)) :=
  ⟨{ State.reset.dev with mir := { State.reset.dev.mir with shWin := [(255, [1, 0])] } }, 0, 255, 1, [0], by decide, by decide⟩

theorem met_MirrorMessagesComplete_2 : ∃ (s : State) (m : PMsg), (s.dev.linkSt = 3) ∧ (s.dev.rxHead 2 = some m) ∧ (m.mtype = 0x29) ∧ ((s.dev.rxTake 2).mir.shGot = false) :=
  ⟨st (rxMsg 3 2 (bare 0x29)), bare 0x29, by decide, by decide, by decide, by decide⟩

theorem met_MirrorMessagesComplete_3 : ∃ (s : State) (m : PMsg), (s.dev.linkSt = 3) ∧ (s.dev.rxHead 2 = some m) ∧ (m.mtype = 0x2A) :=
  ⟨st (rxMsg 3 2 (bare 0x2A)), bare 0x2A, by decide, by decide, by decide⟩

theorem met_MirrorMessagesComplete_4 : ∃ (s : State) (m : PMsg), (s.dev.linkSt = 3) ∧ (s.dev.rxHead 0 = some m) ∧ (m.mtype = 1) :=
  ⟨st (rxMsg 3 0 (bare 1)), bare 1, by decide, by decide, by decide⟩

theorem met_MirrorMessagesComplete_5 : ∃ (s : State) (m : PMsg), (s.dev.linkSt = 3) ∧ (s.dev.rxHead 0 = some m) ∧ (m.mtype = 2) :=
  ⟨st (rxMsg 3 0 (bare 2)), bare 2, by decide, by decide, by decide⟩

theorem met_MirrorMessagesComplete_6 : ∃ (s : State) (m : PMsg), (s.dev.linkSt = 3) ∧ (s.dev.rxHead 0 = some m) ∧ (m.mtype = 3) :=
  ⟨st (rxMsg 3 0 (bare 3)), bare 3, by decide, by decide, by decide⟩

theorem met_MirrorMessagesComplete_7 : ∃ (s : State) (m : PMsg), (s.dev.linkSt = 3) ∧ (s.dev.rxHead 1 = some m) ∧ (m.mtype = 0x10) :=
  ⟨st (rxMsg 3 1 (bare 16)), bare 16, by decide, by decide, by decide⟩

theorem met_MirrorMessagesComplete_8 : ∃ (s : State) (m : PMsg) (x : PMsg), (s.dev.linkSt = 3) ∧ (s.dev.rxHead 1 = some m) ∧ (m.mtype = 0x11) ∧ ((s.dev.rxTake 1).mir.unacked.find? (fun y => y.num == m.at_ 0 4) = some x) :=
  ⟨st (fun d => { rxMsg 3 1 (bare 0x11) d with mir := { d.mir with unacked := [bare 1] } }), bare 0x11, bare 1, by decide, by decide, by decide, by decide⟩

theorem met_MirrorMessagesComplete_9 : ∃ (s : State) (m : PMsg), (s.dev.linkSt = 3) ∧ (s.dev.rxHead 3 = some m) ∧ (m.mtype = 0x30) :=
  ⟨st (rxMsg 3 3 (bare 48)), bare 48, by decide, by decide, by decide⟩

theorem met_MirrorMessagesComplete_10 : ∃ (s : State) (m : PMsg), (s.dev.linkSt = 3) ∧ (s.dev.rxHead 3 = some m) ∧ (m.mtype = 0x31) :=
  ⟨st (rxMsg 3 3 (bare 49)), bare 49, by decide, by decide, by decide⟩

theorem met_MirrorMessagesComplete_11 : ∃ (s : State) (m : PMsg) (rest : List PMsg) (f : Nat) (d : Dev), (s.dev.linkSt = 3) ∧ (s.dev.halted = false) ∧ (s.dev.mir.apply = m :: rest) ∧ (s.dev.mirFault (m.at_ 0 1) (m.at_ 2 5) = (f, d)) ∧ (f ≠ 0) :=
  ⟨st (fun d => { pl 3 d with mir := { d.mir with apply := [bare 1] } }), bare 1, [], 1, _, by decide, by decide, rfl, pair_of (by decide +kernel), by decide⟩

theorem met_MirrorMessagesComplete_12 : ∃ (s : State) (m : PMsg) (rest : List PMsg) (d : Dev) (b : Acc), (s.dev.linkSt = 3) ∧ (s.dev.halted = false) ∧ (s.dev.mir.apply = m :: rest) ∧ (s.dev.mirFault (m.at_ 0 1) (m.at_ 2 5) = (0, d)) ∧ ((s.acc.upd (fun _ => d)).applyMsg (m.at_ 0 1) m = (.ok, b)) :=
  ⟨st (fun d => { pl 3 ((win0 1 d).set (fPAIR_MIRW_STS_STATE 0) mirTarget) with mir := { d.mir with apply := [bare 3] } }), bare 3, [], _, _, by decide, by decide, rfl, pair_of (by decide +kernel), pair_of (by decide +kernel)⟩

theorem met_MirrorMessagesComplete_13 : ∃ (a : Acc) (t : Nat) (m : PMsg), (m.mtype = 3) ∧ (a.dev.ovfLocked t (a.dev.winBase t / 64 + m.at_ 2 5) = false) ∧ ((a.dev.krFresh (a.dev.winKr t) && a.dev.inQuar (a.dev.winKr t) 0 (a.dev.leafOf (a.dev.winKr t) (a.dev.winBase t / 64 + m.at_ 2 5))) = false) ∧ (a.dev.lineOut (a.dev.backedMpa t ((a.dev.winBase t / 64 + m.at_ 2 5) * 64) / 64) = false) :=
  ⟨(st (fun d => { pl 3 ((win0 1 d).set (fPAIR_MIRW_STS_STATE 0) mirTarget) with mir := { d.mir with apply := [bare 3] } })).acc, 0, bare 3, by decide, by decide, by decide, by decide⟩

theorem met_MirrorMessagesComplete_14 : ∃ (a : Acc) (a1 : Acc) (b : Acc) (t : Nat) (m : PMsg) (q : Req), (m.mtype = 1) ∧ (a.dev.winNoKey t = false) ∧ (q = agentReq .apply 8 t (a.dev.winBase t / 64 + m.at_ 2 5) (.wr .i (lineOfBytes (m.payload.drop 8)) false)) ∧ (a.dropWrite q = (false, a1)) ∧ (a1.tryWrite q .cmp = (.ok, b)) :=
  ⟨(st (fun d => { pl 3 ((win0 1 d).set (fPAIR_MIRW_STS_STATE 0) mirTarget) with mir := { d.mir with apply := [bare 1] } })).acc, _, _, 0, bare 1, _, by decide, by decide, rfl, pair_of (by decide +kernel), pair_of (by decide +kernel)⟩

theorem met_MirrorCopiesComplete_0 : ∃ (s : State) (w : WinId), (s.dev.linkSt = 3) ∧ (s.dev.mirSt w.toNat = mirCopy) :=
  ⟨st (fun d => pl 3 (mirrored mirCopy d)), 0, by decide, by decide⟩

theorem met_MirrorCopiesComplete_1 : ∃ (a : Acc) (w : Nat) (g : Nat), (a.dev.nextCopy w = some g) ∧ (a.dev.lineOut (a.dev.backedMpa w (a.dev.winBase w + g * 256) / 64) = true) :=
  ⟨(st (fun d => { (mirrored mirCopy d).set (fPAIR_MIRW_STS_FULL 0) 1 with mch := { d.mch with out := [0] } })).acc, 0, 0, by decide, by decide⟩

theorem met_MirrorCopiesComplete_2 : ∃ (s : State) (q : Req) (t : List Req), (s.dev.mir.waits = q :: t) ∧ ((s.dev.mirFull && s.dev.mirLive q.win) = false) :=
  ⟨st (fun d => { d with mir := { d.mir with waits := [rq .invNT] } }), rq .invNT, [], rfl, by decide⟩

theorem met_MirrorCopiesComplete_3 : ∃ (s : State) (h : Head) (w : WinId), (s.dev.cfgOnly h.toNat = false) ∧ (s.dev.winValid w.toNat = false ∨ s.dev.winMirrored w.toNat = false) :=
  ⟨State.reset, 31, 255, by decide, .inl (by decide)⟩

theorem met_MirrorCopiesComplete_4 : ∃ (s : State) (h : Head) (w : WinId), (s.dev.cfgOnly h.toNat = false) ∧ (s.dev.winValid w.toNat = true) ∧ (s.dev.winMirrored w.toNat = true) ∧ (s.dev.mirSt w.toNat ≠ mirInsync) :=
  ⟨st (mirrored mirSolo), 31, 0, by decide, by decide, by decide, by decide⟩

theorem met_MirrorCopiesComplete_5 : ∃ (s : State) (h : Head) (w : WinId), (s.dev.cfgOnly h.toNat = false) ∧ (s.dev.winValid w.toNat = true) ∧ (s.dev.winMirrored w.toNat = true) ∧ (s.dev.mirSt w.toNat = mirInsync) ∧ (∀ m ∈ s.dev.mir.unacked, m.win ≠ w.toNat) :=
  ⟨st (mirrored mirInsync), 31, 0, by decide, by decide, by decide, by decide, by decide⟩

theorem met_MirrorCopiesComplete_6 : ∃ (s : State) (w : WinId) (f : Nat × Nat × Nat) (rest : List (Nat × Nat × Nat)), (takeFirst (fun f => f.2.1 == w.toNat) s.dev.mir.fences = some (f, rest)) :=
  ⟨st (fun d => { d with mir := { d.mir with fences := [(0, 255, 0)] } }), 255, (0, 255, 0), [], by decide⟩

theorem met_MirrorCopiesComplete_7 : ∃ (s : State) (sl : Nat) (w : Nat) (g0 : Nat) (g : Nat) (t : List (Nat × Nat × Nat)), (s.dev.pin.mainUp = true) ∧ (s.dev.mir.rebuild = (sl, w, g0) :: t) ∧ (s.dev.onSlot sl w g0 = some g) ∧ (s.dev.linkSt = 3) ∧ (s.dev.rebuildReads (s.dev.winBase w / 64 + 4 * g) = false) ∧ (s.dev.granFree w g = true) ∧ (s.dev.partnerCurrent w g = true) :=
  ⟨st (fun d => { pl 3 (mirrored mirInsync d) with pin := { d.pin with mainUp := true }, mir := { d.mir with rebuild := [(0, 0, 8190)] } }), 0, 0, 8190, 8190, [], by decide, by decide, by decide, by decide, by decide, by decide, by decide⟩

theorem met_SidebandCommandsComplete_0 : ∃ (s : State) (m : SidebandMsg) (n : Nat) (d : Dev), (d = ({ s.dev with mir := { s.dev.mir with sbFlags := m.flags.toNat } } : Dev).setFlag fPAIR_MIR_STS_SB_ALIVE true) ∧ (1 ≤ n) ∧ (n ≤ 5) ∧ (m.crc.toNat = crc16 ([n, m.flags.toNat] ++ toBytes 4 m.arg.toNat)) :=
  ⟨State.reset, sbm 5 7, 5, ({ State.reset.dev with mir := { State.reset.dev.mir with sbFlags := 0 } } : Dev).setFlag fPAIR_MIR_STS_SB_ALIVE true, rfl, by decide, by decide, by decide +kernel⟩

theorem met_SidebandCommandsComplete_1 : ∃ (m : SidebandMsg), (m.crc.toNat ≠ crc16 ([1, m.flags.toNat] ++ toBytes 4 m.arg.toNat)) :=
  ⟨{ sbm 1 0 with crc := ~~~ (sbm 1 0).crc }, by decide +kernel⟩

theorem met_SidebandCommandsComplete_2 : ∃ (s : State) (t : Nat) (p : Nat) (bg : Option Nat), (s.dev.mir.claim = some (t, p, bg)) :=
  ⟨st (fun d => { d with mir := { d.mir with claim := some (7, 7, none) } }), 7, 7, none, by decide⟩

theorem met_JobCommandsComplete_0 : ∃ (s : State) (h : Head) (q : BitVec 4) (n : BitVec 32), ((s.dev.portOf h.toNat).up = true) ∧ ((s.dev.portOf h.toNat).cxl = true) ∧ (cntDiff n.toNat (s.dev.get (fJDB_HEAD_COUNT h.toNat q.toNat)) ≤ s.dev.dqSize h.toNat q.toNat) :=
  ⟨st (linked 31), 31, 15, 1, by decide, by decide, by decide⟩

theorem met_JobCommandsComplete_1 : ∃ (s : State) (h : Head) (q : BitVec 4) (n : BitVec 32), ((s.dev.portOf h.toNat).up = true) ∧ ((s.dev.portOf h.toNat).cxl = true) ∧ (s.dev.dqSize h.toNat q.toNat < cntDiff n.toNat (s.dev.get (fJDB_HEAD_COUNT h.toNat q.toNat))) :=
  ⟨st (linked 31), 31, 15, 2, by decide, by decide, by decide⟩

theorem met_JobCommandsComplete_2 : ∃ (s : State) (h : Head) (q : BitVec 4) (n : BitVec 32), ((s.dev.portOf h.toNat).up = true) ∧ ((s.dev.portOf h.toNat).cxl = true) ∧ (cntDiff (s.dev.get (fJDB_CQTAIL_COUNT h.toNat q.toNat)) n.toNat ≤ s.dev.cqSize h.toNat q.toNat) :=
  ⟨st (fun d => (linked 31 d).set (fJDB_CQTAIL_COUNT 31 15) 1), 31, 15, 0, by decide, by decide, by decide⟩

theorem met_JobCommandsComplete_3 : ∃ (s : State) (h : Head) (q : BitVec 4) (ctl : BitVec 32), ((s.dev.portOf h.toNat).up = true) ∧ ((s.dev.portOf h.toNat).cxl = true) ∧ (ctl.getLsbD 0 = true) ∧ (s.dev.get (fJDB_STS_STATE h.toNat q.toNat) = 0) :=
  ⟨st (linked 31), 31, 15, 1, by decide, by decide, by decide, by decide⟩

theorem met_JobCommandsComplete_4 : ∃ (d : Dev) (h : Nat) (q : Nat) (ctl : Nat), (h < 32) ∧ (q < 16) ∧ ((((d.set (fJDB_CTL_QLOG h q) (ctl / 4 % 32)).set (fJDB_CTL_CLOG h q) (ctl / 128 % 32)).set (fJDB_CTL_VEC h q) (ctl / 4096 % 64)).queueOk h q = true) :=
  ⟨win0 1 State.reset.dev, 0, 15, BitVec.toNat (0x211#32), by decide, by decide, by decide⟩

theorem met_JobCommandsComplete_5 : ∃ (s : State) (h : Head) (q : BitVec 4), ((s.dev.portOf h.toNat).up = true) ∧ ((s.dev.portOf h.toNat).cxl = true) ∧ (s.dev.get (fJDB_STS_STATE h.toNat q.toNat) = 1) ∧ (s.dev.get (fJDB_STS_CAUSE h.toNat q.toNat) = 0) ∧ (s.dev.jobsOf h.toNat q.toNat ≠ []) :=
  ⟨st (fun d => { queue 1 d with job := { d.job with jobs := [job1 1] } }), 31, 15, by decide, by decide, by decide, by decide, by decide⟩

theorem met_JobCommandsComplete_6 : ∃ (s : State) (h : Head) (q : BitVec 4), ((s.dev.portOf h.toNat).up = true) ∧ ((s.dev.portOf h.toNat).cxl = true) ∧ (s.dev.get (fJDB_STS_STATE h.toNat q.toNat) = 2) ∧ (s.dev.resumable h.toNat q.toNat = true) :=
  ⟨st (queue 2), 31, 15, by decide, by decide, by decide, by decide⟩

theorem met_JobCommandsComplete_7 : ∃ (s : State) (h : Head) (q : BitVec 4), (s.dev.mayFetch h.toNat q.toNat = true) :=
  ⟨st (fun d => (queue 1 d).set (fJDB_TAIL_COUNT 31 15) 1), 31, 15, by decide⟩

theorem met_JobCommandsComplete_8 : ∃ (s : State) (h : Head) (q : BitVec 4), (s.dev.jobsRun = true) ∧ (s.dev.job.fetching.contains (h.toNat * 16 + q.toNat) = true) :=
  ⟨st (fun d => { d with job := { d.job with fetching := [511] } }), 31, 15, by decide, by decide⟩

theorem met_JobCommandsComplete_9 : ∃ (s : State) (sl : BitVec 3), (s.dev.jobsRun = true) ∧ (s.dev.sliceFree sl.toNat = true) :=
  ⟨st (fls [(fJOB_CAP_PRESENT, 255), (fJOB_CTL_SLICE_EN, 255), (fPWR_DOM_STS_ON, 2 ^ 40)]), 7, by decide, by decide⟩

theorem met_JobCommandsComplete_10 : ∃ (s : State) (sl : BitVec 3) (j : JobE), (s.dev.jobsRun = true) ∧ (s.dev.job.jobs.find? (fun j => j.slice == sl.toNat && j.place == 1) = some j) ∧ (j.ready = true) ∧ (j.todo = []) :=
  ⟨st (fun d => { d with job := { d.job with jobs := [{ job1 1 with ready := true }] } }), 0, { job1 1 with ready := true }, by decide, by decide, by decide, by decide⟩

theorem met_JobCommandsComplete_11 : ∃ (s : State), (s.dev.halted = false) ∧ (s.dev.fatal = false) :=
  ⟨State.reset, by decide, by decide⟩

theorem met_JobCommandsComplete_12 : ∃ (s : State) (c : Pkt), (Admits s.dev rowSliceEn c) ∧ ((c.at_ 0 1 &&& s.dev.present) = c.at_ 0 1) :=
  ⟨st (fun d => fl fJOB_CAP_PRESENT 255 (ready d)), pk [255, 0, 0, 0], admits_of (by decide) (by decide) (by decide) rfl (by decide) (by decide) (by decide) (by decide) (by decide), by decide⟩

theorem met_JobCommandsComplete_13 : ∃ (s : State) (c : Pkt), (Admits s.dev rowQueueClass c) ∧ (c.at_ 0 1 < 32) ∧ (c.at_ 1 1 < 16) ∧ (c.at_ 2 1 < 8) :=
  ⟨st ready, pk [31, 15, 7, 0], admits_of (by decide) (by decide) (by decide) rfl (by decide) (by decide) (by decide) (by decide) (by decide), by decide, by decide, by decide⟩

theorem met_JobCommandsComplete_14 : ∃ (a : Acc) (b : Acc) (h : Nat) (q : Nat) (xs : List PLine), (a.dev.get (fJDB_STS_STATE h q) = 1) ∧ (tfind a.dev.job.halting (h * 16 + q) = none) ∧ (a.dev.jobRange h { lo := a.dev.dqAddr h q (a.dev.get (fJDB_HEAD_COUNT h q)), len := 128, wr := false } = none) ∧ (a.dev.rangeMoves { lo := a.dev.dqAddr h q (a.dev.get (fJDB_HEAD_COUNT h q)), len := 128, wr := false } = false) ∧ (a.readLines (.fetch h q) (a.dev.queueClass (h * 16 + q)) (rangeLines (a.dev.dqAddr h q (a.dev.get (fJDB_HEAD_COUNT h q))) 128) = (some xs, b)) ∧ (firstPoison (rangeLines (a.dev.dqAddr h q (a.dev.get (fJDB_HEAD_COUNT h q))) 128) xs = none) :=
  ⟨(st (fun d => { win0 1 ((linked 0 d).set (fJDB_STS_STATE 0 0) 1) with home := { d.home with lbuf := [(0, { data := 0 }), (1, { data := 0 })] } })).acc, (Acc.readLines ((st (fun d => { win0 1 ((linked 0 d).set (fJDB_STS_STATE 0 0) 1) with home := { d.home with lbuf := [(0, { data := 0 }), (1, { data := 0 })] } })).acc) (.fetch 0 0) 0 [0, 1]).2, 0, 0, [(0, 0), (0, 0)], by decide, by decide, by decide, by decide, Prod.ext (by decide +kernel) rfl, by decide⟩

theorem met_JobCommandsComplete_15 : ∃ (d : Dev) (j : JobE), (j.isRecon = false) ∧ (d.jobRanges j.head j.allRanges = none) :=
  ⟨State.reset.dev, job1 1, by decide, by decide⟩

theorem met_JobCommandsComplete_16 : ∃ (d : Dev) (j : JobE) (st : Nat) (lo : Nat) (slot : Nat), (j.isRecon = false) ∧ (d.jobRanges j.head j.allRanges = some (st, lo, slot)) :=
  ⟨State.reset.dev, { job1 1 with desc := [0, 0, 0, 0, 1] ++ List.replicate 15 0 ++ [64, 0, 0, 0] ++ List.replicate 104 0 }, stAddrFault, 0, 255, by decide, by decide⟩

theorem met_JobCommandsComplete_17 : ∃ (d : Dev) (j : JobE), (tfind d.job.halting (j.head * 16 + j.queue) = none) :=
  ⟨State.reset.dev, job1 1, by decide⟩

theorem met_QosCommandsComplete_0 : ∃ (s : State) (c : Pkt) (f : Nat), (Admits s.dev rowQosClassmap c) ∧ (c.at_ 0 1 < 32) ∧ (s.dev.formed (c.at_ 0 1) = some f) :=
  ⟨st ready, pk [28, 0, 0, 0, 255, 255, 255, 0], 2, admits_of (by decide) (by decide) (by decide) rfl (by decide) (by decide) (by decide) (by decide) (by decide), by decide, by decide⟩

theorem met_QosCommandsComplete_1 : ∃ (s : State) (c : Pkt), (Admits s.dev rowQosClass c) ∧ (s.dev.classBad c = none) :=
  ⟨st (fun d => fl fMCH_POP_STS_RESULT 1 (ready d)), pk ([7, 0, 15, 0, 224, 0, 0, 0] ++ List.replicate 64 0), admits_of (by decide) (by decide) (by decide) rfl (by decide) (by decide) (by decide) (by decide) (by decide), by decide +kernel⟩

theorem met_QosCommandsComplete_2 : ∃ (s : State) (c : Pkt), (Admits s.dev rowQosPort c) ∧ (s.dev.portBad c = none) ∧ (c.at_ 1 1 = 0) :=
  ⟨st (fun d => fl fMCH_POP_STS_RESULT 1 (ready d)), pk [31, 0, 0, 0, 0, 0, 0, 0, 0, 0, 0, 0], admits_of (by decide) (by decide) (by decide) rfl (by decide) (by decide) (by decide) (by decide) (by decide), by decide +kernel, by decide⟩

theorem met_FirmwareCommandsComplete_0 : ∃ (s : State) (c : Pkt), (Admits s.dev rowFwTransfer c) ∧ (c.at_ 0 4 = 0) ∧ ((c.payload.drop 4).length ≤ 2 ^ 23) :=
  ⟨st ready, pk [0, 0, 0, 0, 7], admits_of (by decide) (by decide) (by decide) rfl (by decide) (by decide) (by decide) (by decide) (by decide), by decide, by decide⟩

theorem met_FirmwareCommandsComplete_1 : ∃ (s : State) (c : Pkt), (Admits s.dev rowFwTransfer c) ∧ (c.at_ 0 4 ≠ 0) ∧ (c.at_ 0 4 = (s.dev.img s.dev.idleSlot).bytes.length) ∧ (c.at_ 0 4 + (c.payload.drop 4).length ≤ 2 ^ 23) :=
  ⟨st (fun d => { ready d with flash := { d.flash with slotA := { bytes := [7] }, slotB := { bytes := [7] } } }), pk [1, 0, 0, 0, 7], admits_of (by decide) (by decide) (by decide) rfl (by decide) (by decide) (by decide) (by decide) (by decide), by decide, by decide, by decide⟩

theorem met_FirmwareCommandsComplete_2 : ∃ (s : State) (c : Pkt), (Admits s.dev rowFwActivate c) ∧ (c.at_ 0 1 ≤ 1) ∧ (c.at_ 0 1 = s.dev.get fMGT_STS_SLOT) :=
  ⟨st (fun d => (ready d).set fMGT_STS_SLOT 1), pk [1, 0, 0, 0], admits_of (by decide) (by decide) (by decide) rfl (by decide) (by decide) (by decide) (by decide) (by decide), by decide, by decide⟩

theorem met_FirmwareCommandsComplete_3 : ∃ (s : State) (c : Pkt), (Admits s.dev rowFwActivate c) ∧ (c.at_ 0 1 ≤ 1) ∧ (c.at_ 0 1 ≠ s.dev.get fMGT_STS_SLOT) ∧ ((s.dev.img (c.at_ 0 1)).complete = true) :=
  ⟨st (fun d => { ready d with flash := { d.flash with slotB := { complete := true } } }), pk [1, 0, 0, 0], admits_of (by decide) (by decide) (by decide) rfl (by decide) (by decide) (by decide) (by decide) (by decide), by decide, by decide, by decide⟩

theorem met_FirmwareCommandsComplete_4 : ∃ (s : State) (c : Pkt), (Admits s.dev rowFwInfo c) :=
  ⟨st ready, pk [], admits_of (by decide) (by decide) (by decide) rfl (by decide) (by decide) (by decide) (by decide) (by decide)⟩

theorem met_FirmwareCommandsComplete_5 : ∃ (s : State) (c : Pkt), (Admits s.dev rowLogRead c) ∧ (1 ≤ c.at_ 4 2) ∧ (c.at_ 4 2 ≤ 64) ∧ (trCode c.tr = 0) ∧ (s.dev.logFrom (c.at_ 0 4) (c.at_ 4 2) = []) :=
  ⟨st ready, pkm [0, 0, 0, 0, 64, 0, 0, 0], admits_mb (by decide) (by decide) (by decide) (by decide) rfl (by decide) (by decide) (by decide) (by decide) (by decide), by decide, by decide, by decide, by decide⟩

theorem met_FirmwareCommandsComplete_6 : ∃ (s : State) (c : Pkt), (Admits s.dev rowLinkConfig c) ∧ (s.dev.linkBad c = none) :=
  ⟨st ready, pk (List.replicate 8 2 ++ List.replicate 32 12), admits_of (by decide) (by decide) (by decide) rfl (by decide) (by decide) (by decide) (by decide) (by decide), by decide⟩

theorem met_AdministrationCommandsComplete_0 : ∃ (s : State) (c : Pkt) (r : Bool × Dev), (Admits s.dev rowCsrGrant c) ∧ (r = (s.dev.wrPair rTOP_CSR_WRGRANT rTOP_CSR_WRGRANT_C (c.at_ 0 4)).readBack [(rTOP_CSR_WRGRANT, rTOP_CSR_WRGRANT_C)]) :=
  ⟨st ready, pk (pairW [0x80000001]), _, admits_of (by decide) (by decide) (by decide) rfl (by decide) (by decide) (by decide) (by decide) (by decide), rfl⟩

theorem met_AdministrationCommandsComplete_1 : ∃ (s : State) (c : Pkt) (r : Bool × Dev), (Admits s.dev rowCmdGrant c) ∧ (r = (s.dev.wrPair rMGT_CMD_GRANT rMGT_CMD_GRANT_C (c.at_ 0 4)).readBack [(rMGT_CMD_GRANT, rMGT_CMD_GRANT_C)]) :=
  ⟨st ready, pk (pairW [0x80000001]), _, admits_of (by decide) (by decide) (by decide) rfl (by decide) (by decide) (by decide) (by decide) (by decide), rfl⟩

theorem met_AdministrationCommandsComplete_2 : ∃ (s : State) (c : Pkt) (a : RegAt), (Admits s.dev rowRegWrite c) ∧ (c.plen.toNat = 12) ∧ (accessOk (c.at_ 0 4) 4 = some a) ∧ (regAt (c.at_ 0 4) = some a) ∧ (a.r.width = 32) ∧ ((c.at_ 8 4 &&& a.cmdBits) = c.at_ 8 4) ∧ (s.dev.unitOff a.key = false) :=
  ⟨st ready, pk (le4 0x500000 ++ le4 0 ++ le4 0), _, admits_of (by decide) (by decide) (by decide) rfl (by decide) (by decide) (by decide) (by decide) (by decide), by decide, rfl, rfl, by decide, by decide, by decide⟩

theorem met_AdministrationCommandsComplete_3 : ∃ (s : State) (c : Pkt), (Admits s.dev rowRegRead c) ∧ (c.at_ 0 4 % 4 = 0) ∧ (c.at_ 4 2 = 1) ∧ (c.at_ 0 4 + 4 ≤ 2 ^ 26) :=
  ⟨st ready, pk (le4 0x3fffffc ++ [1, 0, 0, 0]), admits_of (by decide) (by decide) (by decide) rfl (by decide) (by decide) (by decide) (by decide) (by decide), by decide, by decide, by decide⟩

theorem met_AdministrationCommandsComplete_4 : ∃ (s : State) (i : Nat) (b : BgCmd), (tfind s.dev.mgt.bg i = some b) ∧ (b.done = true) :=
  ⟨st (fun d => { d with mgt := { d.mgt with bg := [(3, { op := 0xC000, tr := 1, who := 0, tag := 0, arg := [], fg := false, done := true })] } }), 3, { op := 0xC000, tr := 1, who := 0, tag := 0, arg := [], fg := false, done := true }, by decide, by decide⟩

theorem met_AdministrationCommandsComplete_5 : ∃ (s : State) (c : Pkt) (op : BitVec 16) (opc : BitVec 16), (op.toNat + opc.toNat ≠ 0xffff) ∧ (trCode c.tr ≠ 0) ∧ (s.dev.deaf false c = false) :=
  ⟨State.reset, pk [], 0, 0, by decide, by decide, by decide⟩

theorem met_AdministrationCommandsComplete_6 : ∃ (s : State) (c : Pkt) (op : BitVec 16) (opc : BitVec 16), (op.toNat + opc.toNat = 0xffff) ∧ (trCode c.tr ≠ 0) ∧ (s.dev.deaf false c = false) ∧ (cmdRow op.toNat = none) :=
  ⟨State.reset, pk [], 0xffff, 0, by decide, by decide, by decide, by decide⟩

theorem met_AdministrationCommandsComplete_7 : ∃ (a : Acc) (r : CmdRow) (c : Pkt), (a.dev.deaf (r.cls == .q) c = false) ∧ (trCode c.tr = 0 → c.mailboxLen.toNat = 16 + c.plen.toNat) ∧ (a.dev.queues c = true) :=
  ⟨(st (fun d => { d with mgt := { d.mgt with cmdq := [{ op := 0xC802, pkt := pk [] }] } })).acc, rowFwInfo, { pk [] with tag := 1 }, by decide, by decide, by decide⟩

theorem met_FaultCommandsComplete_0 : ∃ (s : State) (c : Pkt) (k : Nat) (r : Bool × Dev), (Admits s.dev rowFltReact c) ∧ (srcMaxSev (c.at_ 0 2) ≠ 0) ∧ (reactOk (srcMaxSev (c.at_ 0 2)) (c.at_ 2 1) = true) ∧ (k = c.at_ 0 2 / 16) ∧ (r = (s.dev.wrPair (rFLT_REACT k) (rFLT_REACT_C k) (wordPut (s.dev.rd (rFLT_REACT k)) (2 * (c.at_ 0 2 % 16)) 2 (c.at_ 2 1))).readBack [(rFLT_REACT k, rFLT_REACT_C k)]) :=
  ⟨st ready, pk (le4 1 ++ le4 0xfffffffe), 0, _, admits_of (by decide) (by decide) (by decide) rfl (by decide) (by decide) (by decide) (by decide) (by decide), by decide, by decide, by decide, rfl⟩

theorem met_FaultCommandsComplete_1 : ∃ (s : State) (c : Pkt) (r : Bool × Dev), (Admits s.dev rowFltGlobal c) ∧ (10 ≤ c.at_ 0 3) ∧ (c.at_ 0 3 ≤ 100000) ∧ (1 ≤ c.at_ 3 1) ∧ (c.at_ 3 1 ≤ 5) ∧ (r = (s.dev.wrPair rFLT_GLOBAL rFLT_GLOBAL_C (c.at_ 0 3 + c.at_ 3 1 * 2 ^ 17)).readBack [(rFLT_GLOBAL, rFLT_GLOBAL_C)]) :=
  ⟨st ready, pk (le4 (100000 + 5 * 2 ^ 24) ++ le4 (0xffffffff - (100000 + 5 * 2 ^ 24))), _, admits_of (by decide) (by decide) (by decide) rfl (by decide) (by decide) (by decide) (by decide) (by decide), by decide, by decide, by decide, by decide, rfl⟩

theorem met_FaultCommandsComplete_2 : ∃ (s : State) (c : Pkt) (k : Nat), (Admits s.dev rowFltClear c) ∧ (s.dev.recAt (c.at_ 0 8) = some k) :=
  ⟨st (fun d => recd 63 1 0 (ready d)), pk [1, 0, 0, 0, 0, 0, 0, 0], 63, admits_of (by decide) (by decide) (by decide) rfl (by decide) (by decide) (by decide) (by decide) (by decide), by decide +kernel⟩

theorem met_FaultCommandsComplete_3 : ∃ (s : State) (c : Pkt), (Admits s.dev rowBasicExit c) ∧ (∀ k < 64, s.dev.recValid k = true → 3 ≤ s.dev.recSev k → s.dev.flag (fFLT_REC_CTL_ESCALATED k) = false) :=
  ⟨st (fun d => recd 63 2 0 (ready d)), pk [], admits_of (by decide) (by decide) (by decide) rfl (by decide) (by decide) (by decide) (by decide) (by decide), by decide +kernel⟩

theorem met_FaultCommandsComplete_4 : ∃ (s : State) (c : Pkt), (Admits s.dev rowInjectUnlock c) ∧ (1 ≤ c.at_ 0 4) ∧ (c.at_ 0 4 ≤ 600) :=
  ⟨st (fun d => sess (ready d)), pks (le4 600), admits_of (by decide) (by decide) (by decide) rfl (by decide) (by decide) (by decide) (by decide) (by decide), by decide, by decide⟩

theorem met_FaultCommandsComplete_5 : ∃ (s : State), (s.dev.flag fMGT_STS_INJ_UNLOCK = true) :=
  ⟨st (fl fMGT_STS_INJ_UNLOCK 1), by decide⟩

theorem met_FaultCommandsComplete_6 : ∃ (s : State) (c : Pkt), (Admits s.dev rowInject c) ∧ (s.dev.injBad c = none) ∧ (c.at_ 0 1 ≠ 1) :=
  ⟨st (fun d => fl fMGT_STS_INJ_UNLOCK 1 (ready d)), pk ([3, 255, 0, 0] ++ le4 (src 35 15) ++ le4 0), admits_of (by decide) (by decide) (by decide) rfl (by decide) (by decide) (by decide) (by decide) (by decide), by decide, by decide⟩

theorem met_FaultCommandsComplete_7 : ∃ (s : State) (c : Pkt), (Admits s.dev rowInject c) ∧ (s.dev.injBad c = none) ∧ (c.at_ 0 1 = 1) :=
  ⟨st (fun d => fl fMGT_STS_INJ_UNLOCK 1 (chans ((ready d).set fWIN_GEOM_AWIDTH 32))), pk ([1, 2, 0, 0] ++ le4 64 ++ le4 0), admits_of (by decide) (by decide) (by decide) rfl (by decide) (by decide) (by decide) (by decide) (by decide), by decide, by decide⟩

theorem met_FaultEventsComplete_0 : ∃ (s : State) (w : Writer) (k : BitVec 6), (s.dev.allows w (rFLT_REC_CTL k.toNat)) ∧ (s.dev.recValid k.toNat = true) ∧ (s.dev.recSev k.toNat ≠ 1) :=
  ⟨st (recd 63 2 0), .firmware, 63, allows_fw (by decide), by decide, by decide⟩

theorem met_FaultEventsComplete_1 : ∃ (s : State) (k : BitVec 6), (s.dev.fwUp = true) ∧ (s.dev.recValid k.toNat = true) ∧ (s.dev.flt.toLog.contains k.toNat = true) ∧ (s.dev.recSrc k.toNat ≠ src 8 0) :=
  ⟨st (fun d => { fw (recd 63 2 0 d) with flt := { d.flt with toLog := [63] } }), 63, by decide, by decide, by decide, by decide⟩

theorem met_FaultEventsComplete_2 : ∃ (s : State) (k : BitVec 6), (s.dev.recValid k.toNat = true) ∧ (s.dev.recAcked k.toNat = false) ∧ (s.dev.recReact k.toNat = 2) ∧ (3 ≤ s.dev.recSev k.toNat) ∧ (s.dev.flag (fFLT_REC_CTL_ESCALATED k.toNat) = false) :=
  ⟨st (recd 63 3 2), 63, by decide, by decide, by decide, by decide, by decide⟩

theorem met_FaultEventsComplete_3 : ∃ (s : State), (s.dev.basic = true) ∧ (s.dev.flt.basicStep = 1) :=
  ⟨st (fun d => ({ d with flt := { d.flt with basicStep := 1 } } : Dev).set fFLT_STS_BASIC 1), by decide, by decide⟩

theorem met_FaultEventsComplete_4 : ∃ (s : State) (ch : Chan) (failed : BitVec 8), (s.dev.dramOn = true) ∧ (∀ r ∈ s.dev.probeRanks ch.val, failed.getLsbD r = false) :=
  ⟨st chans, 0, 0xfe, by decide, by decide⟩

theorem met_FaultEventsComplete_5 : ∃ (s : State) (n : Nat), (s.dev.dramOn = true) ∧ (1 ≤ n) ∧ (n ≤ 2) :=
  ⟨st chans, 2, by decide, by decide, by decide⟩

theorem met_FaultEventsComplete_6 : ∃ (k : Fin 20), (k.val < 9 ∨ 14 < k.val) :=
  ⟨15, .inr (by decide)⟩

theorem met_ManagementEventsComplete_0 : ∃ (s : State), (s.dev.pin.mgmtUp = true) :=
  ⟨st mainUp, by decide⟩

theorem met_ManagementEventsComplete_1 : ∃ (s : State) (page : BitVec 7) (d : Dev), (s.dev.pin.mgmtUp = true) ∧ (s.dev.mgt.fwRun = true) ∧ (s.dev.pageGood page.toNat = true) ∧ (s.dev.fetchSoon page.toNat = false) ∧ (d = (s.dev.tcmInj 0 2 (fun e => e / 512 == page.toNat)).2.pageRewrite page.toNat) :=
  ⟨st (fun d => { (fw (mainUp d)).wr rMGT_PHT (ofBytes (sha256 [])) with flash := { d.flash with slotA := { bytes := (List.replicate 28 0 ++ [1, 0, 0, 0] ++ List.replicate 16352 0 ++ (sha256 []).map (BitVec.ofNat 8)) } } }), 0, _, by decide, by decide, by decide +kernel, by decide, rfl⟩

theorem met_ManagementEventsComplete_2 : ∃ (s : State) (page : BitVec 7) (ok : Bool), (s.dev.pin.mgmtUp = true) ∧ (s.dev.mgt.fwRun = true) ∧ (ok = false ∨ s.dev.pageGood page.toNat = false ∨ s.dev.fetchSoon page.toNat = true) :=
  ⟨st (fun d => fw (mainUp d)), 127, false, by decide, by decide, .inl rfl⟩

theorem met_ManagementEventsComplete_3 : ∃ (s : State), (s.dev.pin.mgmtUp = true) :=
  ⟨st mainUp, by decide⟩

theorem met_ManagementEventsComplete_4 : ∃ (s : State), (s.dev.pin.mgmtUp = true) :=
  ⟨st mainUp, by decide⟩

theorem met_ManagementEventsComplete_6 : ∃ (s : State), (s.dev.mgt.fwRun = true ∨ s.dev.mgt.restart = true) :=
  ⟨st fw, .inl rfl⟩

theorem met_ManagementEventsComplete_7 : ∃ (s : State), (s.dev.unconfirmed = true) :=
  ⟨st (fun d => { mainUp d with flash := { d.flash with sel := { d.flash.sel with try_ := true } } }), by decide⟩

theorem met_ManagementEventsComplete_8 : ∃ (s : State), (s.dev.fwUp = true) ∧ (s.dev.mgt.activatePending = true) :=
  ⟨st (fun d => { fw d with mgt := { (fw d).mgt with activatePending := true } }), by decide, by decide⟩

theorem met_BootCommandsComplete_0 : ∃ (s : State), (s.dev.mgmtReady = true) :=
  ⟨st (fun d => { d with pin := { d.pin with sysRst := false, mainEn := true } }), by decide⟩

theorem met_BootCommandsComplete_1 : ∃ (s : State), (s.dev.pin.mgmtUp = true) ∧ (s.dev.mgt.romDone = true) ∧ (s.dev.mgt.fwRun = false) ∧ (s.dev.pin.mainUp = true) :=
  ⟨st (fun d => { mainUp d with mgt := { d.mgt with romDone := true } }), by decide, by decide, by decide, by decide⟩

theorem met_BootCommandsComplete_2 : ∃ (s : State), (s.dev.bootable = true) ∧ (s.dev.bootDone.get fMGT_STS_MODE ≠ 2) :=
  ⟨st (fun d => (fw d).set fMCH_POP_STS_RESULT 3), by decide, by decide +kernel⟩

theorem met_BootCommandsComplete_3 : ∃ (s : State), (s.dev.mgt.restart = true) ∧ (s.dev.mgt.booted = true) :=
  ⟨st (fun d => { d with mgt := { d.mgt with restart := true, booted := true } }), by decide, by decide⟩

theorem met_BootCommandsComplete_5 : ∃ (s : State), (s.dev.fwUp = true) :=
  ⟨st fw, by decide⟩

theorem met_BootCommandsComplete_6 : ∃ (d : Dev), (8 ≤ d.mgt.sessions.length) :=
  ⟨{ State.reset.dev with mgt := { State.reset.dev.mgt with sessions := (List.range 8).map (fun i => ⟨i, .smbus 0, true, true, true⟩) } }, by decide⟩

theorem met_BootCommandsComplete_8 : ∃ (s : State), (s.dev.fwUp = true) :=
  ⟨st fw, by decide⟩

theorem met_BootCommandsComplete_9 : ∃ (s : State), (s.dev.fwUp = true) :=
  ⟨st fw, by decide⟩

theorem met_ResetCommandsComplete_0 : ∃ (s : State), (s.dev.pin.aon = true) :=
  ⟨State.reset, by decide⟩

theorem met_ResetCommandsComplete_1 : ∃ (s : State), (s.dev.pin.aon = true) ∧ (s.dev.pin.sysRst = true) :=
  ⟨State.reset, by decide, by decide⟩

theorem met_ResetCommandsComplete_2 : ∃ (s : State), (s.dev.pin.aon = true) ∧ (s.dev.pin.sysRst = false) ∧ (s.dev.pin.mainEn = false) ∧ (s.dev.pin.mainFault = false) ∧ (s.dev.get fPWR_SLEEP_STS_STATE ≠ 3) :=
  ⟨st (fun d => { d with pin := { d.pin with sysRst := false } }), by decide, by decide, by decide, by decide, by decide⟩

theorem met_ResetCommandsComplete_3 : ∃ (s : State), (s.dev.pin.mainEn = true) ∧ (s.dev.pin.mainOk = false) :=
  ⟨st (fun d => { d with pin := { d.pin with mainEn := true } }), by decide, by decide⟩

theorem met_ResetCommandsComplete_4 : ∃ (s : State), (s.dev.pin.mainOk = true) ∧ (s.dev.pin.mainUp = false) ∧ (s.dev.pwr.exiting = false) :=
  ⟨st (fun d => { d with pin := { d.pin with mainOk := true } }), by decide, by decide, by decide⟩

theorem met_ResetCommandsComplete_5 : ∃ (s : State), (s.dev.pin.mainEn = true) ∧ (s.dev.pin.mainOk = true) :=
  ⟨st (fun d => { d with pin := { d.pin with mainEn := true, mainOk := true } }), by decide, by decide⟩

theorem met_ResetCommandsComplete_6 : ∃ (s : State), (s.dev.pin.aon = false) :=
  ⟨st (fun d => { d with pin := { d.pin with aon := false } }), by decide⟩

theorem met_ResetCommandsComplete_8 : ∃ (s : State), (s.dev.pin.aon = true) ∧ (s.dev.pin.sysRst = false) ∧ (s.dev.pin.mainFault = false) ∧ (s.dev.pin.warm = 0) :=
  ⟨st (fun d => { d with pin := { d.pin with sysRst := false } }), by decide, by decide, by decide, by decide⟩

theorem met_ResetCommandsComplete_9 : ∃ (s : State), (s.dev.pin.warm = 1) :=
  ⟨st (fun d => { d with pin := { d.pin with warm := 1 } }), by decide⟩

theorem met_ResetCommandsComplete_10 : ∃ (s : State), (s.dev.pin.warm = 2) :=
  ⟨st (fun d => { d with pin := { d.pin with warm := 2 } }), by decide⟩

theorem met_ResetCommandsComplete_11 : ∃ (s : State), (s.dev.pwr.exiting = true) ∧ (s.dev.pwr.exitFrom = 1) ∧ (s.dev.pin.warm ≠ 3) :=
  ⟨st (fun d => { d with pwr := { d.pwr with exiting := true, exitFrom := 1 } }), by decide, by decide, by decide⟩

theorem met_TelemetryCommandsComplete_0 : ∃ (s : State) (h : Head) (u : Fin 44), (s.dev.allows (.head h) (rPMU_U_CLAIM u.val)) ∧ (s.dev.get (fPMU_U_CLAIM_HOLDER u.val) = 63) :=
  ⟨st (fl fPMU_GSTS_ON (2 ^ 43)), 31, 43, ⟨by decide, (regAt _).get (by decide), (Option.some_get _).symm, mayWrite_of (.inr (by decide)) (by decide), by decide⟩, by decide⟩

theorem met_TelemetryCommandsComplete_1 : ∃ (s : State) (h : Head) (u : Fin 44), (s.dev.allows (.head h) (rPMU_U_CLAIM u.val)) ∧ (s.dev.get (fPMU_U_CLAIM_HOLDER u.val) ≠ 63) ∧ (s.dev.get (fPMU_U_CLAIM_HOLDER u.val) ≠ h.toNat) :=
  ⟨st (fls [(fPMU_GSTS_ON, 2 ^ 43), (fPMU_U_CLAIM_HOLDER 43, 0)]), 31, 43, ⟨by decide, (regAt _).get (by decide), (Option.some_get _).symm, mayWrite_of (.inr (by decide)) (by decide), by decide⟩, by decide, by decide⟩

theorem met_TelemetryCommandsComplete_2 : ∃ (s : State) (n : BitVec 3), (s.dev.allows .firmware (rRING_CLAIM n.toNat)) :=
  ⟨State.reset, 7, allows_fw (by decide)⟩

theorem met_TelemetryCommandsComplete_3 : ∃ (s : State) (u : Fin 44) (k : BitVec 3), (s.dev.pmuUsed u.val k.toNat = true) ∧ (k.toNat % 2 = 1) ∧ (s.dev.flag (fPMU_U_EVSEL_OVF_IRQ u.val k.toNat) = false) :=
  ⟨st (fls [(fPMU_GSTS_ON, 2 ^ 43), (fPMU_GCTL_RUN, 1), (fPMU_U_CTL_EN 43, 1), (fPMU_U_EVSEL_EVENT 43 7, 1)]), 43, 7, by decide, by decide, by decide⟩

theorem met_TelemetryCommandsComplete_4 : ∃ (s : State) (w : Writer) (u : Fin 44), (s.dev.allows w (rPMU_U_CTL u.val)) :=
  ⟨st (fl fPMU_GSTS_ON (2 ^ 43)), .firmware, 43, allows_fw (by decide)⟩

theorem met_TelemetryCommandsComplete_6 : ∃ (s : State) (w : Writer), (s.dev.allows w rPMU_GCTL) :=
  ⟨State.reset, .firmware, allows_fw (by decide)⟩

theorem met_TelemetryCommandsComplete_7 : ∃ (s : State) (w : Writer) (n : BitVec 3), (s.dev.unheard w = false) ∧ (s.dev.get (fRING_CLAIM_HOLDER n.toNat) = holderOf w) ∧ (s.dev.flag (fRING_CTL_XEN n.toNat) = false) ∧ (s.dev.ringOcc n.toNat ≠ 0) :=
  ⟨st (fls [(fRING_CLAIM_HOLDER 7, 31), (fRING_PTR_WR 7, 1)]), .head 31, 7, by decide, by decide, by decide, by decide⟩

theorem met_TelemetryCommandsComplete_8 : ∃ (s : State) (w : Writer) (n : BitVec 3), (s.dev.unheard w = false) ∧ (s.dev.get (fRING_CLAIM_HOLDER n.toNat) ≠ holderOf w ∨ s.dev.ringOcc n.toNat = 0) :=
  ⟨State.reset, .head 31, 7, by decide, .inl (by decide)⟩

theorem met_TelemetryCommandsComplete_9 : ∃ (s : State) (w : Writer) (n : BitVec 3), (s.dev.allows w (rRING_PTR n.toNat)) ∧ (s.dev.flag (fRING_CTL_XEN n.toNat) = false) ∧ (s.dev.get (fRING_CLAIM_HOLDER n.toNat) = holderOf w) :=
  ⟨st (fl (fRING_CLAIM_HOLDER 7) 32), .firmware, 7, allows_fw (by decide), by decide, by decide⟩

theorem met_TelemetryCommandsComplete_10 : ∃ (s : State) (w : Writer) (n : BitVec 3) (ctl : BitVec 32), (s.dev.allows w (rRING_CTL n.toNat)) ∧ (ctl.getLsbD 0 = false) :=
  ⟨State.reset, .firmware, 7, 0, allows_fw (by decide), by decide⟩

theorem met_TelemetryCommandsComplete_11 : ∃ (s : State) (n : BitVec 3), (s.dev.flag (fRING_CTL_XEN n.toNat) = true) :=
  ⟨st (fl (fRING_CTL_XEN 7) 1), 7, by decide⟩

theorem met_RegisterCommandsComplete_0 : ∃ (s : State) (h : Head) (off : BitVec 26) (size : Nat) (a : RegAt), (s.dev.cfgOnly h.toNat = false) ∧ (accessOk off.toNat size = some a) ∧ (s.dev.mayWrite h.toNat a = (true, s.dev)) ∧ (s.dev.unitOff a.key = false) :=
  ⟨State.reset, 31, BitVec.ofNat 26 (rJDB_DQBASE 31 15), 8, (accessOk (BitVec.ofNat 26 (rJDB_DQBASE 31 15)).toNat 8).get (by decide), by decide, (Option.some_get _).symm, mayWrite_of (.inl (by decide)) (by decide), by decide⟩

theorem met_RegisterCommandsComplete_1 : ∃ (s : State) (h : Head) (off : BitVec 26) (size : Nat), (s.dev.cfgOnly h.toNat = false) ∧ (accessOk off.toNat size = none) :=
  ⟨State.reset, 31, 0x3ffffff, 1, by decide, by decide⟩

theorem met_RegisterCommandsComplete_2 : ∃ (s : State) (h : Head) (off : BitVec 26) (size : Nat), (s.dev.cfgOnly h.toNat = false) ∧ (readIllegal h.toNat off.toNat size = true) :=
  ⟨State.reset, 31, 0x2000018, 8, by decide, by decide⟩

/-- The 32 pairs of each row from pair 32 k on match at reset. -/
def PairsMatch (k : Nat) : Prop :=
  ∀ p ∈ pairMap, ∀ i < 32, 32 * k + i < p.n → State.reset.dev.pairMatch (p.reg + (32 * k + i) * p.s) (p.regC + (32 * k + i) * p.s) = true

theorem reset_pairs_0 : PairsMatch 0 := by unfold PairsMatch; decide +kernel
theorem reset_pairs_1 : PairsMatch 1 := by unfold PairsMatch; decide +kernel
theorem reset_pairs_2 : PairsMatch 2 := by unfold PairsMatch; decide +kernel
theorem reset_pairs_3 : PairsMatch 3 := by unfold PairsMatch; decide +kernel
theorem reset_pairs_4 : PairsMatch 4 := by unfold PairsMatch; decide +kernel
theorem reset_pairs_5 : PairsMatch 5 := by unfold PairsMatch; decide +kernel
theorem reset_pairs_6 : PairsMatch 6 := by unfold PairsMatch; decide +kernel
theorem reset_pairs_7 : PairsMatch 7 := by unfold PairsMatch; decide +kernel

theorem reset_pairs : ∀ p ∈ pairMap, ∀ i < p.n, State.reset.dev.pairMatch (p.reg + i * p.s) (p.regC + i * p.s) = true := by
  intro p hp i hi
  have hn : ∀ p ∈ pairMap, p.n ≤ 256 := by decide
  have hb : i / 32 < 8 := by have := hn p hp; omega
  have h : ∀ k < 8, PairsMatch k := fun
    | 0, _ => reset_pairs_0 | 1, _ => reset_pairs_1 | 2, _ => reset_pairs_2 | 3, _ => reset_pairs_3
    | 4, _ => reset_pairs_4 | 5, _ => reset_pairs_5 | 6, _ => reset_pairs_6 | 7, _ => reset_pairs_7
  have e : 32 * (i / 32) + i % 32 = i := by omega
  have := h (i / 32) hb p hp (i % 32) (by omega)
  rw [e] at this
  exact this hi

theorem met_RegisterCommandsComplete_3 : ∃ (s : State), (∀ p ∈ pairMap, ∀ i < p.n, s.dev.pairUse (p.reg + i * p.s) (p.regC + i * p.s) = (true, s.dev)) :=
  ⟨State.reset, fun p hp i hi => pairUse_of rfl (reset_pairs p hp i hi)⟩

theorem met_StepRunsFront_0 : ∃ (s : State) (c : Instr) (rest : List Instr), (s.pending = c :: rest) :=
  ⟨{ State.reset with pending := [.capabilityRise] }, .capabilityRise, [], rfl⟩

theorem met_IdleStepPassesTime_0 : ∃ (s : State), (s.pending = []) ∧ (s.idle.dev.nextPkt = none) :=
  ⟨State.reset, rfl, by decide +kernel⟩

theorem met_IdleStepPassesTime_1 : ∃ (s : State) (t : State) (q : QPkt) (i : Instr), (s.pending = []) ∧ (s.idle.dev.nextPkt = some q) ∧ (cmdInstr q = some i) ∧ (exec i { s.idle with dev := s.idle.dev.taking q } = .next t) :=
  ⟨st (fun d => { d with mgt := { d.mgt with cmdq := [{ op := 0xC802, pkt := pk [] }] } }), _, { op := 0xC802, pkt := pk [] }, .fwInfo (pk []), rfl, by decide +kernel, rfl, rfl⟩

theorem met_StepKeepsInvariant_0 : ∃ (s : State) (t : State), (s.Inv) ∧ (step s = .next t) :=
  ⟨State.reset, _, ⟨by decide, by decide, by decide⟩, reset_step⟩

theorem met_FusesOnlyBurn_0 : ∃ (s : State) (t : State), (s.Inv) ∧ (step s = .next t) :=
  ⟨State.reset, _, ⟨by decide, by decide, by decide⟩, reset_step⟩

theorem met_CommandFrame_0 : ∃ (c : Instr) (s : State) (t : State), (exec c s = .next t) :=
  ⟨.capabilityRise, State.reset, _, rfl⟩

theorem met_SettleOfCalm_0 : ∃ (d : Dev), (d.calm = true) :=
  ⟨State.reset.dev, by decide⟩

theorem met_SettleOfCalm_1 : ∃ (d : Dev), (d.calm = true) :=
  ⟨State.reset.dev, by decide⟩

theorem met_SettleOfCalm_2 : ∃ (d : Dev), (d.sec.haltPend = none) ∧ (d.flt.escFatal = false) ∧ (d.flt.escBasic = false) ∧ (d.pwr.sleepReq = none) :=
  ⟨State.reset.dev, by decide, by decide, by decide, by decide⟩

theorem met_RegisterFrame_0 : ∃ (s : State) (t : State) (c : Instr), (s.dev.calm = true) ∧ (exec c s = .next t) :=
  ⟨State.reset, _, .linkL1Entry 31, by decide, rfl⟩

theorem met_InitializationZeroes_0 : ∃ (s : State) (t : State), (s.dev.mch.trained = true) ∧ (s.dev.mch.initDone = false) ∧ (s.dev.mgt.bootKind = 0) ∧ (s.dev.quarCalm = true) ∧ (exec .initializationComplete s = .next t) :=
  ⟨st chans, _, by decide, by decide, by decide, by decide, rfl⟩

theorem met_HomeSliceFold_1 : ∃ (i : Nat), (i < 64) :=
  ⟨63, by decide⟩

theorem met_FreshAckAndCredit_0 : ∃ (d : Dev) (ack : Nat) (n : Nat), (n = (ack + 4096 - d.get fPAIR_SEQ_ACKED) % 4096) :=
  ⟨{ fl fPAIR_SEQ_ACKED 4095 State.reset.dev with pair := { State.reset.dev.pair with outst := [⟨0, 0, 0, []⟩] } }, 0, 1, by decide⟩

theorem met_FreshAckAndCredit_1 : ∃ (d : Dev) (v : Nat) (tot : Nat) (n : Nat), (v < 4) ∧ (n = (tot + 4096 - cnt d.pair.ret v) % 4096) :=
  ⟨State.reset.dev, 3, 4095, 4095, by decide, by decide⟩

theorem met_FreshAckAndCredit_2 : ∃ (d : Dev) (h : FrameHdr), (d.pair.rxAny = false) ∧ (d.applyAck h.ack = none) :=
  ⟨fl fPAIR_SEQ_ACKED 0 State.reset.dev, hdrOf (2 ^ 15), by decide, by decide⟩

theorem met_FreshAckAndCredit_3 : ∃ (d : Dev) (e : Dev) (h : FrameHdr), (d.pair.rxAny = false) ∧ (d.applyAck h.ack = some e) ∧ (e.framing = true) ∧ (e.applyCredit h.crvc h.crtot = none) :=
  ⟨pl 3 (fl fPAIR_SEQ_ACKED 4095 State.reset.dev), pl 3 (fl fPAIR_SEQ_ACKED 4095 State.reset.dev), hdrOf (4095 * 2 ^ 15 + 4095 * 2 ^ 29), by decide, applyAck_zero (by decide), by decide, by decide⟩

theorem met_DoorbellPages_0 : ∃ (h : Nat) (q : Nat) (r : Nat), (h < 32) ∧ (q < 16) ∧ (r ∈ [rJDB_TAIL h q, rJDB_HEAD h q, rJDB_CQHEAD h q, rJDB_CQTAIL h q, rJDB_CTL h q, rJDB_DQBASE h q, rJDB_CQBASE h q, rJDB_STS h q, rJDB_HALTINFO h q]) :=
  ⟨31, 15, rJDB_HALTINFO 31 15, by decide, by decide, by decide⟩

theorem met_DoorbellPages_1 : ∃ (s : State) (h : Head) (off : BitVec 26), (s.dev.cfgOnly h.toNat = false) ∧ (0x2000000 ≤ off.toNat) ∧ ((off.toNat - 0x2000000) / 0x100000 ≠ h.toNat ∨ regAt off.toNat = none) :=
  ⟨State.reset, 0, 0x3ffffff, by decide, by decide, .inl (by decide)⟩

theorem met_CheckOnlyChangesNothing_0 : ∃ (d : Dev) (r : CmdRow) (c : Pkt), (c.flags = 1) ∧ (d.deaf (r.cls == .q) c = false) ∧ (trCode c.tr = 0 → c.mailboxLen.toNat = 16 + c.plen.toNat) ∧ (d.queues c = false) :=
  ⟨State.reset.dev, rowPwrLimits, { pkm [] with flags := 1 }, by decide, by decide, by decide, by decide⟩

theorem met_ManagementRestartCauses_0 : ∃ (s : State), (s.dev.pin.mgmtUp = true) ∧ (s.dev.get fMGT_STS_MODE ≠ 2) :=
  ⟨st mainUp, by decide, by decide⟩

theorem met_ManagementRestartCauses_1 : ∃ (s : State), (s.dev.mgt.fwRun = true ∨ s.dev.mgt.restart = true) :=
  ⟨st fw, .inl rfl⟩

theorem met_LineCodecRoundTrip_0 : ∃ (d : Dev) (v : Nat) (hdr : Nat) (p : List Nat), (v < 2 ^ 512) ∧ (d.packLine v = some (hdr, p)) :=
  ⟨State.reset.dev, 2 ^ 512 - 1, 0x01, [255, 255, 255, 255], by decide +kernel, by decide +kernel⟩

theorem met_FrameBodyRoundTrip_0 : ∃ (v : Nat) (l : List PMsg), (∀ m ∈ l, m.mtype < 64 ∧ mlenOk v m.mtype (m.bytes.length - 2) = true) ∧ ((l.flatMap PMsg.bytes).length ≤ 240) :=
  ⟨3, [{ mtype := 0x30, payload := List.replicate 8 0 }], by decide, by decide⟩

theorem met_LocationRoundTrip_0 : ∃ (d : Dev) (x : Loc), (d.get fWIN_GEOM_RANKB ≤ 2) ∧ (d.get fWIN_GEOM_DIMMB ≤ 1) ∧ (d.get fWIN_GEOM_ROWB ≤ 17) ∧ (d.get fWIN_GEOM_AWIDTH = 19 + d.get fWIN_GEOM_RANKB + d.get fWIN_GEOM_DIMMB + d.get fWIN_GEOM_ROWB) ∧ (∀ k < 6, d.maskOk k = true) ∧ (x.chan < 24) ∧ (x.sub < 2) ∧ (x.rank < 2 ^ d.get fWIN_GEOM_RANKB) ∧ (x.dimm < 2 ^ d.get fWIN_GEOM_DIMMB) ∧ (x.bg < 8) ∧ (x.bank < 4) ∧ (x.row < 2 ^ d.get fWIN_GEOM_ROWB) ∧ (x.col < 128) :=
  ⟨fls [(fWIN_GEOM_RANKB, 2), (fWIN_GEOM_DIMMB, 1), (fWIN_GEOM_ROWB, 17), (fWIN_GEOM_AWIDTH, 39)] State.reset.dev, ⟨23, 1, 1, 3, 7, 3, 131071, 127⟩, by decide, by decide, by decide, by decide, by decide, by decide, by decide, by decide, by decide, by decide, by decide, by decide, by decide⟩

theorem met_SharedCommitRefused_0 : ∃ (s : State) (p : Head) (n : BitVec 5) (g : DecoderImage) (w : Nat), ((s.dev.portOf p.toNat).up = true) ∧ ((s.dev.portOf p.toNat).cxl = true) ∧ (tfind (s.dev.decs p.toNat) n.toNat = none) ∧ (w ∈ s.dev.decWins (s.dev.decoderOf p.toNat n.toNat g)) ∧ (s.dev.winShared w = true) ∧ (s.dev.get (fPDV_PORT_STS_FLIT p.toNat) = 0 ∨ s.dev.bit fHOME_DEAD_HEAD p.toNat = true) :=
  ⟨st (fun d => linked 0 (win0 9 d)), 0, 0, { base := 0, size := 1, skip := 0, ways := 1, granLog := 8, bi := true, lock := false }, 0, by decide, by decide, by decide, by decide, by decide, .inl (by decide)⟩

theorem met_WindowTableWrites_0 : ∃ (s : State) (h : Head) (n : Nat) (k : Nat) (off : BitVec 26), (s.dev.cfgOnly h.toNat = false) ∧ (n < 256) ∧ (k < 6) ∧ (off.toNat = 0x501000 + n * 0x40 + k * 4 ∨ off.toNat = 0x501020 + n * 0x40 + k * 4) :=
  ⟨State.reset, 0, 255, 5, BitVec.ofNat 26 (0x501000 + 255 * 0x40 + 5 * 4), by decide, by decide, by decide, .inl (by decide)⟩

theorem met_GcmFailures_0 : ∃ (d : Dev) (f : FrameIn) (ph : RxPhase) (k : PKey) (c : Nat) (t : List Nat), (f.fecOk = true) ∧ (d.frameKey (inHdr f) = some (ph, k, c)) ∧ (k.verifies c f.bytes = false) ∧ (t = d.pair.gcmTimes.filter (fun x => d.now < x + 1000000) ++ [d.now]) :=
  ⟨keyed 2 State.reset.dev, ⟨true, badBytes⟩, .cur, setupKey, 1, [0], by decide, keyed_frameKey _ (by decide +kernel), bad_fails, by decide⟩

end Sys2Proof.Tests
end

section
/-! Register accesses by heads (00_scope.md R6, 01_architecture.md R28 to R30): which accesses break the rules, and the doorbell pages. -/

namespace Sys2Proof.Machine

/-! ### The register at an offset -/

theorem RegD.at?_eq_some_r {r : RegD} {k : Nat} {a : RegAt} (h : r.at? k = some a) : a.r = r := by
  simp only [RegD.at?, Option.ite_none_left_eq_some, Option.ite_none_right_eq_some, Option.some.injEq] at h
  obtain ⟨-, -, rfl⟩ := h
  rfl

/-- A register of the map is of the block at its offset (Table 1.8). -/
theorem regAt_mem_blockRegs {k : Nat} {a : RegAt} (h : regAt k = some a) : a.r ∈ blockRegs k := by
  obtain ⟨r, hr, ha⟩ := List.exists_of_findSome?_eq_some h
  rwa [RegD.at?_eq_some_r ha]

/-- Table 1.8: the job doorbells take the 32 MiB from 0x200_0000. -/
theorem blockRegs_doorbell {k : Nat} (hlo : 0x2000000 ≤ k) (hhi : k < 2 ^ 26) : blockRegs k = regJdb := by
  have h32 : 32 ≤ k / 0x100000 := by omega
  have h64 : k / 0x100000 < 64 := by omega
  simp [blockRegs, show ¬ k / 0x100000 < 8 by omega, show ¬ k / 0x100000 < 14 by omega, Nat.not_lt.2 h32, h64]

theorem regJdb_width_le {r : RegD} (h : r ∈ regJdb) : r.width ≤ 64 :=
  (show ∀ r ∈ regJdb, r.width ≤ 64 by decide) r h

/-! ### Accesses that break the rules (R6) -/

/-- What an access that R6 allows meets: the register at the offset, which stands at that offset itself unless it is wider than 64 bits. -/
theorem accessOk_eq_some {off size : Nat} {a : RegAt} (h : accessOk off size = some a) :
    regAt off = some a ∧ off < 2 ^ 26 ∧ (64 < a.r.width ∨ a.key = off) := by
  unfold accessOk at h
  split at h
  case h_1 b hb =>
    obtain ⟨⟨-, -, hoff, hkey⟩, ⟨⟩⟩ := Option.ite_none_right_eq_some.1 h
    exact ⟨hb, hoff, hkey⟩
  case h_2 => cases h

theorem accessOk_of_regAt_none {off : Nat} (size : Nat) (h : regAt off = none) : accessOk off size = none :=
  Option.eq_none_iff_forall_ne_some.2 fun _ ha => by
    rw [(accessOk_eq_some ha).1] at h
    cases h

/-- An access to the doorbell region that R6 allows is to a register that stands at its offset. -/
theorem accessOk_doorbell_key {off size : Nat} {a : RegAt} (h : accessOk off size = some a) (hlo : 0x2000000 ≤ off) : a.key = off := by
  obtain ⟨hreg, hhi, hkey⟩ := accessOk_eq_some h
  have hmem : a.r ∈ regJdb := blockRegs_doorbell hlo hhi ▸ regAt_mem_blockRegs hreg
  exact hkey.resolve_left (Nat.not_lt.2 (regJdb_width_le hmem))

/-- R29: in the doorbell region the right to write is the head's own, and no grant is looked up. -/
theorem Dev.mayWrite_doorbell (d : Dev) (h : Nat) {a : RegAt} (hlo : 0x2000000 ≤ a.key) :
    d.mayWrite h a = ((a.key - 0x2000000) / 0x100000 == h, d) := by
  simp [Dev.mayWrite, hlo]

/-! ### What an access that breaks the rules does (R6) -/

theorem Dev.headWrite_of_not_accessOk {d : Dev} {h off size : Nat} (v : Nat) (w : Writer) (hc : d.cfgOnly h = false)
    (ha : accessOk off size = none) : d.headWrite h off size v w = d.accessFault h off := by
  simp [Dev.headWrite, hc, ha]

theorem Dev.headWrite_of_not_mayWrite {d e : Dev} {h off size : Nat} (v : Nat) (w : Writer) {a : RegAt} (hc : d.cfgOnly h = false)
    (ha : accessOk off size = some a) (hm : d.mayWrite h a = (false, e)) : d.headWrite h off size v w = e.accessFault h off := by
  simp [Dev.headWrite, hc, ha, hm]

theorem exec_registerWrite_eq (h : Head) (off : BitVec 26) (size : Nat) (v : BitVec 64) (s : State) :
    exec (.registerWrite h off size v) s = .next (s.after (s.dev.headWrite h.toNat off.toNat size v.toNat (.head h))) := rfl

theorem exec_illegalCsrRead_eq (h : Head) (off : BitVec 26) (size : Nat) (s : State) :
    exec (.illegalCsrRead h off size) s = .next (s.after (s.dev.when (!s.dev.cfgOnly h.toNat && readIllegal h.toNat off.toNat size)
      (fun d => (d.accessFault h.toNat off.toNat).emit (.csrValue h.toNat 0)))) := rfl

theorem exec_illegalCsrRead_of_readIllegal {s : State} {h : Head} {off : BitVec 26} {size : Nat} (hc : s.dev.cfgOnly h.toNat = false)
    (hr : readIllegal h.toNat off.toNat size = true) :
    exec (.illegalCsrRead h off size) s = .next (s.after ((s.dev.accessFault h.toNat off.toNat).emit (.csrValue h.toNat 0))) := by
  rw [exec_illegalCsrRead_eq, Dev.when_of_true _ _ _ (by simp [hc, hr])]

/-! ### Doorbell pages (R29) -/

/-- An offset of the doorbell region that is no register of head h: it stands in another head's pages, or in the unused part of its own. -/
def NotOwnDoorbell (h off : Nat) : Prop :=
  0x2000000 ≤ off ∧ ((off - 0x2000000) / 0x100000 ≠ h ∨ regAt off = none)

/-- What R6 allows at such an offset is a register at that offset in another head's pages. -/
theorem NotOwnDoorbell.of_accessOk {h off size : Nat} {a : RegAt} (hn : NotOwnDoorbell h off) (ha : accessOk off size = some a) :
    a.key = off ∧ (off - 0x2000000) / 0x100000 ≠ h := by
  obtain ⟨hlo, hother | hunused⟩ := hn
  · exact ⟨accessOk_doorbell_key ha hlo, hother⟩
  · rw [accessOk_of_regAt_none size hunused] at ha
    cases ha

theorem NotOwnDoorbell.readIllegal {h off : Nat} (hn : NotOwnDoorbell h off) (size : Nat) : readIllegal h off size = true := by
  cases ha : accessOk off size with
  | none => simp [Machine.readIllegal, ha]
  | some a =>
    obtain ⟨hkey, hother⟩ := hn.of_accessOk ha
    simp [Machine.readIllegal, ha, hkey, hn.1, hother]

theorem NotOwnDoorbell.headWrite {d : Dev} {h off : Nat} (hn : NotOwnDoorbell h off) (size v : Nat) (w : Writer)
    (hc : d.cfgOnly h = false) : d.headWrite h off size v w = d.accessFault h off := by
  cases ha : accessOk off size with
  | none => exact Dev.headWrite_of_not_accessOk v w hc ha
  | some a =>
    obtain ⟨hkey, hother⟩ := hn.of_accessOk ha
    refine Dev.headWrite_of_not_mayWrite v w hc ha ?_
    rw [d.mayWrite_doorbell h (hkey ▸ hn.1), hkey, beq_false_of_ne hother]

/-- The registers of queue q of head h stand in its page. -/
theorem doorbellRegs_in_page {h q r : Nat} (hr : r ∈ [rJDB_TAIL h q, rJDB_HEAD h q, rJDB_CQHEAD h q, rJDB_CQTAIL h q, rJDB_CTL h q,
      rJDB_DQBASE h q, rJDB_CQBASE h q, rJDB_STS h q, rJDB_HALTINFO h q]) :
    0x2000000 + h * 0x100000 + q * 0x1000 ≤ r ∧ r < 0x2000000 + h * 0x100000 + q * 0x1000 + 0x1000 := by
  simp only [rJDB_TAIL, rJDB_HEAD, rJDB_CQHEAD, rJDB_CQTAIL, rJDB_CTL, rJDB_DQBASE, rJDB_CQBASE, rJDB_STS, rJDB_HALTINFO,
    List.mem_cons, List.not_mem_nil, or_false] at hr
  omega

/-- Settles O52: an access that R6 allows in the doorbell region is to a register at that very offset, so the head whose page it is can be
read off the offset; an access to no register breaks R6 itself, and one to another head's page R29. -/
theorem doorbellPages : Obligations.DoorbellPages := by
  unfold Obligations.DoorbellPages
  refine ⟨fun _ _ _ _ _ hr => doorbellRegs_in_page hr, fun s h off size v hc hlo hn => ?_⟩
  have hnot : NotOwnDoorbell h.toNat off.toNat := ⟨hlo, hn⟩
  refine ⟨exec_illegalCsrRead_of_readIllegal hc (hnot.readIllegal size), ?_⟩
  rw [exec_registerWrite_eq, hnot.headWrite size v.toNat (.head h) hc]

end Sys2Proof.Machine
end

section
/-! The commit of an HDM decoder (02_host_links.md R41 to R45, 04_coherence.md R109): what refuses it, and what a refusal leaves as it was. -/

namespace Sys2Proof.Machine

/-! ### Registers of the port DVSEC stand above BAR2 -/

/-- A field of BAR2 keeps its value under a write to the port DVSEC. -/
theorem Dev.get_set_of_portReg (d : Dev) {f g : Fld} (v : Nat) (hf : 2 ^ 27 ≤ f.reg) (hg : g.reg < 2 ^ 27) : (d.set f v).get g = d.get g :=
  d.get_set_of_ne v (by omega)

/-- The words of the 256 window entries stand in BAR2. -/
theorem rWIN_ENT_lt_portReg {n r : Nat} (hn : n < 256) (hr : r ∈ [rWIN_ENT_W0 n, rWIN_ENT_W1 n, rWIN_ENT_W2 n]) : r < 2 ^ 27 := by
  simp only [rWIN_ENT_W0, rWIN_ENT_W1, rWIN_ENT_W2, List.mem_cons, List.not_mem_nil, or_false] at hr
  omega

theorem rPDV_ALIAS_CTL_portReg (p n : Nat) : 2 ^ 27 ≤ rPDV_ALIAS_CTL p n := by
  unfold rPDV_ALIAS_CTL
  omega

section
variable (d : Dev) {f : Fld} (v : Nat) (hf : 2 ^ 27 ≤ f.reg) {n : Nat} (hn : n < 256)
include hf

include hn in
theorem Dev.winValid_set_of_portReg : (d.set f v).winValid n = d.winValid n :=
  congrArg (· != 0) (d.get_set_of_portReg v hf (rWIN_ENT_lt_portReg hn (by simp [fWIN_ENT_W0_VALID])))

include hn in
theorem Dev.winShared_set_of_portReg : (d.set f v).winShared n = d.winShared n :=
  congrArg (· != 0) (d.get_set_of_portReg v hf (rWIN_ENT_lt_portReg hn (by simp [fWIN_ENT_W0_SHARED])))

include hn in
theorem Dev.winBase_set_of_portReg : (d.set f v).winBase n = d.winBase n :=
  congrArg (· * unit2M) (d.get_set_of_portReg v hf (rWIN_ENT_lt_portReg hn (by simp [fWIN_ENT_W1_BASE])))

include hn in
theorem Dev.winSize_set_of_portReg : (d.set f v).winSize n = d.winSize n :=
  congrArg (· * unit2M) (d.get_set_of_portReg v hf (rWIN_ENT_lt_portReg hn (by simp [fWIN_ENT_W2_SIZE])))

theorem Dev.windows_set_of_portReg : (d.set f v).windows = d.windows :=
  List.filter_congr fun _ hw => d.winValid_set_of_portReg v hf (List.mem_range.1 hw)

end

theorem Dev.lt_of_mem_windows {d : Dev} {w : Nat} (h : w ∈ d.windows) : w < 256 :=
  List.mem_range.1 (List.mem_of_mem_filter h)

theorem Dev.lt_of_mem_decWins {d : Dev} {c : Decoder} {w : Nat} (h : w ∈ d.decWins c) : w < 256 :=
  Dev.lt_of_mem_windows (List.mem_of_mem_filter h)

/-- A write to the port DVSEC leaves the windows that a decoder covers. -/
theorem Dev.decWins_set_of_portReg (d : Dev) {f : Fld} (v : Nat) (hf : 2 ^ 27 ≤ f.reg) (c : Decoder) :
    (d.set f v).decWins c = d.decWins c := by
  unfold Dev.decWins
  rw [d.windows_set_of_portReg v hf]
  refine List.filter_congr fun w hw => ?_
  have hlt : w < 256 := Dev.lt_of_mem_windows hw
  rw [d.winBase_set_of_portReg v hf hlt, d.winSize_set_of_portReg v hf hlt]

/-! ### The commit -/

theorem exec_decoderCommit_eq (p : Head) (n : BitVec 5) (g : DecoderImage) (s : State) :
    exec (.decoderCommit p n g) s = .next (s.after (s.dev.when ((s.dev.portOf p.toNat).up && !s.dev.cfgOnly p.toNat)
      (fun d => d.commitDecoder p.toNat n.toNat g))) := rfl

theorem exec_decoderCommit_of_cxl {s : State} {p : Head} (n : BitVec 5) (g : DecoderImage) (hup : (s.dev.portOf p.toNat).up = true)
    (hcxl : (s.dev.portOf p.toNat).cxl = true) :
    exec (.decoderCommit p n g) s = .next (s.after (s.dev.commitDecoder p.toNat n.toNat g)) := by
  rw [exec_decoderCommit_eq, Dev.when_of_true _ _ _ (by simp [Dev.cfgOnly, hup, hcxl])]

/-- R43 to R45: a commit that the alias rules or another case refuse sets Error Not Committed, and nothing else of the port. -/
theorem Dev.portOf_commitDecoder_of_refused {d : Dev} {p n : Nat} {g : DecoderImage} (hfree : tfind (d.decs p) n = none)
    (hbad : d.aliasOk p n (d.decoderOf p n g) = true →
      (d.setFlag (fPDV_ALIAS_CTL_ERR p n) false).commitBad p n (d.decoderOf p n g) = true) :
    (d.commitDecoder p n g).portOf p = { d.portOf p with decErr := (d.portOf p).decErr ||| 2 ^ n } := by
  cases hok : d.aliasOk p n (d.decoderOf p n g) with
  | false => simp [Dev.commitDecoder, hfree, hok, Dev.portOf_updPort]
  | true => simp [Dev.commitDecoder, hfree, hok, hbad hok, Dev.portOf_updPort]

/-- R41, R109: the head p may have no decoder over a SHARED window: its link runs in 68B flit mode, or its HOME_DEAD bit is set. -/
def Dev.BarredFromShared (d : Dev) (p : Nat) : Prop :=
  d.get (fPDV_PORT_STS_FLIT p) = 0 ∨ d.bit fHOME_DEAD_HEAD p = true

/-- PDV_ALIAS_CTLn.ERR is bit 6 of its register, FLIT starts at bit 18 of its own, and HOME_DEAD stands in BAR2. -/
theorem Dev.BarredFromShared.setFlag_aliasErr {d : Dev} {p : Nat} (h : d.BarredFromShared p) (q n : Nat) (b : Bool) :
    (d.setFlag (fPDV_ALIAS_CTL_ERR q n) b).BarredFromShared p := by
  have hflit : (d.setFlag (fPDV_ALIAS_CTL_ERR q n) b).get (fPDV_PORT_STS_FLIT p) = d.get (fPDV_PORT_STS_FLIT p) :=
    d.get_set_of_disjoint _ (.inr (show 6 + 1 ≤ 18 by decide))
  have hdead : (d.setFlag (fPDV_ALIAS_CTL_ERR q n) b).get fHOME_DEAD_HEAD = d.get fHOME_DEAD_HEAD :=
    d.get_set_of_portReg _ (rPDV_ALIAS_CTL_portReg q n) (by decide)
  unfold Dev.BarredFromShared Dev.bit
  rwa [hflit, hdead]

theorem Dev.commitBad_of_shared {d : Dev} {p : Nat} (n : Nat) {c : Decoder} {w : Nat} (hw : w ∈ d.decWins c) (hs : d.winShared w = true)
    (hbar : d.BarredFromShared p) : d.commitBad p n c = true := by
  have hany : (d.decWins c).any d.winShared = true := List.any_eq_true.2 ⟨w, hw, hs⟩
  obtain hflit | hdead := hbar
  · simp [Dev.commitBad, hany, hflit]
  · simp [Dev.commitBad, hany, hdead]

/-- Settles O58: the alias error that a commit writes first touches neither the window table nor what bars the head from SHARED windows, so
the commit meets the case of R41 and R109 whatever the alias rules say. -/
theorem sharedCommitRefused : Obligations.SharedCommitRefused := by
  unfold Obligations.SharedCommitRefused
  intro s p n g w hup hcxl hfree hw hs hbar
  have hreg : 2 ^ 27 ≤ (fPDV_ALIAS_CTL_ERR p.toNat n.toNat).reg := rPDV_ALIAS_CTL_portReg _ _
  have hport := Dev.portOf_commitDecoder_of_refused (g := g) hfree fun _ =>
    Dev.commitBad_of_shared n.toNat ((s.dev.decWins_set_of_portReg _ hreg _).symm ▸ hw)
      ((s.dev.winShared_set_of_portReg _ hreg (Dev.lt_of_mem_decWins hw)).trans hs)
      (Dev.BarredFromShared.setFlag_aliasErr hbar p.toNat n.toNat false)
  refine ⟨_, exec_decoderCommit_of_cxl n g hup hcxl, ?_, ?_⟩
  · rw [hport]
  · rw [hport]
    simp [Nat.testBit_or]

end Sys2Proof.Machine
end

section
/-! The window table (03_windows.md R63, R64): which register stands at an offset, and a head's accesses to the words of the entries and to
their complement partners. -/

namespace Sys2Proof.Machine

/-! ### The register at an offset -/

/-- What a row of the map answers at an offset: with a stride of 0, an index is 0 and the remainder the offset itself. -/
theorem RegD.at?_eq_some_iff {r : RegD} {k : Nat} {a : RegAt} :
    r.at? k = some a ↔ r.base ≤ k ∧ (k - r.base) / r.s1 < r.n1 ∧ (k - r.base) % r.s1 / r.s2 < r.n2 ∧
      (k - r.base) % r.s1 % r.s2 < r.width / 8 ∧ a = ⟨r, (k - r.base) / r.s1, (k - r.base) % r.s1 / r.s2⟩ := by
  have hdiv (x s : Nat) : (if s = 0 then 0 else x / s) = x / s := by split <;> simp_all
  have hmod (x s : Nat) : (if s = 0 then x else x % s) = x % s := by split <;> simp_all
  simp only [RegD.at?, hdiv, hmod, Option.ite_none_left_eq_some, Option.ite_none_right_eq_some, Option.some.injEq, Bool.and_eq_true,
    decide_eq_true_eq, Nat.not_lt, and_assoc, eq_comm (a := a)]

/-- The bytes of the register that a row answers at an offset hold that offset. -/
theorem RegD.key_le_of_at? {r : RegD} {k : Nat} {a : RegAt} (h : r.at? k = some a) : a.key ≤ k ∧ k < a.key + r.width / 8 := by
  obtain ⟨hbase, -, -, hx, rfl⟩ := RegD.at?_eq_some_iff.1 h
  have h1 := Nat.div_add_mod' (k - r.base) r.s1
  have h2 := Nat.div_add_mod' ((k - r.base) % r.s1) r.s2
  simp only [RegAt.key]
  omega

/-- Table 1.8: WIN takes the 1 MiB from 0x050_0000. -/
theorem blockRegs_window {k : Nat} (hlo : 0x500000 ≤ k) (hhi : k < 0x600000) : blockRegs k = regWin := by
  simp [blockRegs, show k / 0x100000 = 5 by omega]

/-! ### The words of the window table (R63) -/

/-- The offset of a word of a window-table entry, or of the complement partner of one (R63). -/
def WindowWord (off : Nat) : Prop :=
  ∃ n < 256, ∃ k < 6, ∃ b ∈ [0x501000, 0x501020], off = b + n * 0x40 + k * 4

theorem WindowWord.bounds {off : Nat} (hw : WindowWord off) : 0x501000 ≤ off ∧ off < 0x520000 ∧ off % 4 = 0 := by
  obtain ⟨n, hn, k, hk, b, hb, rfl⟩ := hw
  simp only [List.mem_cons, List.not_mem_nil, or_false] at hb
  omega

/-- R63: the map has a row of 256 words for each of the words W0 to W5, and one for the partners of each. -/
theorem exists_regWin_row : ∀ b ∈ [0x501000, 0x501020], ∀ k < 6, ∃ r ∈ regWin,
    r.base = b + k * 4 ∧ r.n1 = 256 ∧ r.s1 = 0x40 ∧ r.n2 = 1 ∧ r.s2 = 0 ∧ r.width = 32 := by
  decide

theorem WindowWord.exists_regAt {off : Nat} (hw : WindowWord off) : ∃ a, regAt off = some a := by
  obtain ⟨hlo, hhi, -⟩ := hw.bounds
  obtain ⟨n, hn, k, hk, b, hb, rfl⟩ := hw
  obtain ⟨r, hr, hbase, hn1, hs1, hn2, hs2, hwidth⟩ := exists_regWin_row b hb k hk
  rw [regAt, blockRegs_window (by omega) (by omega), ← Option.isSome_iff_exists, List.findSome?_isSome_iff]
  refine ⟨r, hr, Option.isSome_iff_exists.2 ⟨_, RegD.at?_eq_some_iff.2 ⟨by omega, ?_, ?_, ?_, rfl⟩⟩⟩ <;>
    simp only [hbase, hn1, hs1, hn2, hs2, hwidth] <;> omega

/-- The registers of WIN stand at multiples of 4, and those that are not one word of 32 bits stand below the window table. -/
theorem regWin_aligned : ∀ r ∈ regWin, 4 ∣ r.base ∧ 4 ∣ r.s1 ∧ 4 ∣ r.s2 ∧
    (r.width = 32 ∨ r.s1 = 0 ∧ r.s2 = 0 ∧ r.base + r.width / 8 ≤ 0x501000) := by
  decide

theorem RegAt.dvd_key {m : Nat} {a : RegAt} (hbase : m ∣ a.r.base) (hs1 : m ∣ a.r.s1) (hs2 : m ∣ a.r.s2) : m ∣ a.key :=
  (hbase.add (hs1.mul_left a.i)).add (hs2.mul_left a.j)

/-- A register that answers at a word of the window table is one word, and stands at that offset. -/
theorem WindowWord.regAt_eq_some {off : Nat} (hw : WindowWord off) {a : RegAt} (ha : regAt off = some a) :
    a.r.width = 32 ∧ a.key = off := by
  obtain ⟨hlo, hhi, hmod⟩ := hw.bounds
  obtain ⟨r, hr, hat⟩ := List.exists_of_findSome?_eq_some ha
  rw [blockRegs_window (by omega) (by omega)] at hr
  obtain rfl := RegD.at?_eq_some_r hat
  have hkey := RegD.key_le_of_at? hat
  obtain ⟨hbase, hs1, hs2, hword | ⟨hs1z, hs2z, hend⟩⟩ := regWin_aligned a.r hr
  · have hdvd := RegAt.dvd_key hbase hs1 hs2
    omega
  · have hbelow : a.key = a.r.base := by simp [RegAt.key, hs1z, hs2z]
    omega

/-- R6: an access of 4 bytes to such a word has the width and the alignment of a register that stands there. -/
theorem WindowWord.accessOk {off : Nat} (hw : WindowWord off) : ∃ a, accessOk off 4 = some a ∧ a.key = off := by
  obtain ⟨a, ha⟩ := hw.exists_regAt
  obtain ⟨hwidth, hkey⟩ := hw.regAt_eq_some ha
  obtain ⟨-, hhi, hmod⟩ := hw.bounds
  refine ⟨a, ?_, hkey⟩
  simpa [Machine.accessOk, ha, hwidth, hkey, hmod] using (show off < 2 ^ 26 by omega)

/-! ### A head's accesses to them (R64) -/

/-- R64: the right to write in the window table is no head's, and no grant is looked up. -/
theorem Dev.mayWrite_windowTable (d : Dev) (h : Nat) {a : RegAt} (hlo : 0x501000 ≤ a.key) (hhi : a.key < 0x520000) :
    d.mayWrite h a = (false, d) := by
  simp [Dev.mayWrite, hlo, hhi, show ¬ 0x2000000 ≤ a.key by omega, show ¬ 0x1008000 ≤ a.key by omega,
    show ¬ 0x1000000 ≤ a.key by omega]

theorem WindowWord.headWrite {d : Dev} {h off : Nat} (hw : WindowWord off) (size v : Nat) (w : Writer)
    (hc : d.cfgOnly h = false) : d.headWrite h off size v w = d.accessFault h off := by
  obtain ⟨hlo, hhi, -⟩ := hw.bounds
  cases ha : Machine.accessOk off size with
  | none => exact Dev.headWrite_of_not_accessOk v w hc ha
  | some a =>
    obtain ⟨-, hkey⟩ := hw.regAt_eq_some (accessOk_eq_some ha).1
    exact Dev.headWrite_of_not_mayWrite v w hc ha (d.mayWrite_windowTable h (hkey ▸ hlo) (hkey ▸ hhi))

theorem WindowWord.readIllegal {off : Nat} (hw : WindowWord off) (h : Nat) : readIllegal h off 4 = false := by
  obtain ⟨a, ha, hkey⟩ := hw.accessOk
  obtain ⟨-, hhi, -⟩ := hw.bounds
  simp [Machine.readIllegal, ha, hkey, show ¬ 0x2000000 ≤ off by omega]

theorem exec_illegalCsrRead_of_legal {s : State} {h : Head} {off : BitVec 26} {size : Nat} (hr : readIllegal h.toNat off.toNat size = false) :
    exec (.illegalCsrRead h off size) s = .next (s.after s.dev) := by
  rw [exec_illegalCsrRead_eq, Dev.when_of_false _ _ _ (by simp [hr])]

/-- Settles O59: a register that answers at such an offset stands at that very offset, within the range that no head may write, and a write
that R6 refuses already has the same outcome; a row of the map answers at every such offset, so a read of 4 bytes breaks no rule. -/
theorem windowTableWrites : Obligations.WindowTableWrites := by
  unfold Obligations.WindowTableWrites
  intro s h n k size off v hc hn hk hoff
  have hw : WindowWord off.toNat := by
    obtain hoff | hoff := hoff
    · exact ⟨n, hn, k, hk, 0x501000, by simp, hoff⟩
    · exact ⟨n, hn, k, hk, 0x501020, by simp, hoff⟩
  refine ⟨?_, hw.readIllegal h.toNat, exec_illegalCsrRead_of_legal (hw.readIllegal h.toNat)⟩
  rw [exec_registerWrite_eq, hw.headWrite size v.toNat (.head h) hc]

end Sys2Proof.Machine
end

section
/-! Home slices (04_coherence.md R84): the XOR fold of a number's digits, and the slice of a page and of its lines. -/

namespace Sys2Proof.Machine

/-! ### The XOR fold -/

theorem xorFold_succ (w n v : Nat) : xorFold w (n + 1) v = v % 2 ^ w ^^^ xorFold w n (v / 2 ^ w) := rfl

/-- The fold of n + 1 digits takes digit n to the fold of the n below it. -/
theorem xorFold_succ_last (w n v : Nat) : xorFold w (n + 1) v = xorFold w n v ^^^ v >>> (w * n) % 2 ^ w := by
  induction n generalizing v with
  | zero => simp [xorFold]
  | succ n ih =>
    have hdigit : (v / 2 ^ w) >>> (w * n) = v >>> (w * (n + 1)) := by
      rw [← Nat.shiftRight_eq_div_pow, ← Nat.shiftRight_add, Nat.mul_succ, Nat.add_comm]
    rw [xorFold_succ, ih, hdigit, ← Nat.xor_assoc, ← xorFold_succ]

/-- The fold is the XOR over the digits from the lowest up, each cut out by a shift and a mask. -/
theorem xorFold_eq_foldl (w n v : Nat) :
    xorFold w n v = (List.range n).foldl (fun s i => s ^^^ (v >>> (w * i) &&& 2 ^ w - 1)) 0 := by
  induction n with
  | zero => rfl
  | succ n ih => simp [xorFold_succ_last, ih, List.range_succ]

theorem xorFold_lt (w n v : Nat) : xorFold w n v < 2 ^ w := by
  induction n generalizing v with
  | zero => exact Nat.two_pow_pos w
  | succ n ih => exact Nat.xor_lt_two_pow (Nat.mod_lt _ (Nat.two_pow_pos w)) (ih _)

/-! ### The slice of a page -/

theorem pageSlice_lt (pg : Nat) : pageSlice pg < 16 :=
  xorFold_lt 4 9 pg

/-- The page of a DPA is the DPA without its low 12 bits. -/
theorem lineSlice_of_dpa (dpa : Nat) : lineSlice (dpa / 64) = pageSlice (dpa >>> 12) := by
  rw [lineSlice, Nat.div_div_eq_div_mul, Nat.shiftRight_eq_div_pow]

theorem lineSlice_of_page (pg : Nat) {i : Nat} (hi : i < 64) : lineSlice (pg * 64 + i) = pageSlice pg := by
  rw [lineSlice, show (pg * 64 + i) / 64 = pg by omega]

/-- Settles O50: the model's fold takes the digits off the low end, the statement's cuts digit i out of the page number in place
(`xorFold_eq_foldl`); the 64 lines of a page have one page number, and a fold of 4-bit digits has 4 bits. -/
theorem homeSliceFold : Obligations.HomeSliceFold := by
  unfold Obligations.HomeSliceFold
  refine ⟨fun dpa _ => ?_, fun pg _ hi => lineSlice_of_page pg hi, fun dl => pageSlice_lt (dl / 64)⟩
  rw [lineSlice_of_dpa]
  exact xorFold_eq_foldl 4 9 (dpa >>> 12)

end Sys2Proof.Machine
end

section
/-! GCM failures (07_encryption_integrity.md R194): a frame that FEC delivers under a held key, and what a failed check leaves. -/

namespace Sys2Proof.Machine

/-! ### A frame that fails its check (R239) -/

/-- A frame under a held key that does not verify does nothing but count as a GCM failure. -/
theorem Dev.frameIn_of_not_verifies {d : Dev} {f : FrameIn} {ph : RxPhase} {k : PKey} {c : Nat} (hfec : f.fecOk = true)
    (hkey : d.frameKey (inHdr f) = some (ph, k, c)) (hbad : k.verifies c f.bytes = false) : d.frameIn f = d.gcmFail := by
  simp [Dev.frameIn, hfec, hkey, hbad]

/-! ### The failures of the last millisecond (R194) -/

section
variable {d : Dev} {t : List Nat} (ht : t = d.pair.gcmTimes.filter (fun x => d.now < x + 1000000) ++ [d.now])
include ht

/-- Short of the eighth failure within 1 ms, a failure is counted and its time kept. -/
theorem Dev.gcmFail_of_lt (hlt : t.length < 8) :
    d.gcmFail = { d.bumpSat fSEC_PAIR_STS_GCMFAIL 1 with pair := { d.pair with gcmTimes := t } } := by
  subst ht
  exact if_neg (Nat.not_le.2 hlt)

/-- The eighth failure within 1 ms raises source 31's detail 14 as severity U, takes the link down for cause 5 (Table 9.7), and starts the
count of the millisecond again. -/
theorem Dev.gcmFail_of_le (hle : 8 ≤ t.length) :
    d.gcmFail = (Dev.raise { d.bumpSat fSEC_PAIR_STS_GCMFAIL 1 with pair := { d.pair with gcmTimes := [] } }
      { src := src 31 14, sev := 3, code := 194 }).linkDown 5 := by
  subst ht
  exact if_pos hle

end

/-- Settles O60: a frame that fails its check reaches the device as the failure alone (`Dev.frameIn_of_not_verifies`); the count in the
register leaves the kept times and the clock as they are, so the failures of the last millisecond decide between the two outcomes. -/
theorem gcmFailures : Obligations.GcmFailures := by
  unfold Obligations.GcmFailures
  intro d f ph k c t hfec hkey hbad ht
  rw [Dev.frameIn_of_not_verifies hfec hkey hbad]
  exact ⟨Dev.gcmFail_of_lt ht, fun hle => ⟨194, Dev.gcmFail_of_le ht hle⟩⟩

end Sys2Proof.Machine
end

section
/-! Fresh link fields (09_pair_link.md R240 to R242): what a fresh ACK releases, what a fresh credit total returns, and the protocol error of
one that gives back more than is out. -/

namespace Sys2Proof.Machine

/-! ### A fresh ACK (R241) -/

section
variable {d : Dev} {ack n : Nat} (hn : n = (ack + 4096 - d.get fPAIR_SEQ_ACKED) % 4096)
include hn

theorem Dev.applyAck_eq_none (hlt : d.pair.outst.length < n) : d.applyAck ack = none := by
  subst hn
  exact if_pos hlt

theorem Dev.applyAck_of_eq_zero (h0 : n = 0) : d.applyAck ack = some d := by
  simp [Dev.applyAck, ← hn, h0]

/-- Where no SLEEP_ACK waits for the last frame (R251), an ACK that releases frames changes ACKED, OUTSTANDING and the pair link's own state
alone. -/
theorem Dev.applyAck_of_pos (hpos : 0 < n) (hle : n ≤ d.pair.outst.length) (hsleep : d.pair.sleepAcked = false) :
    ∃ p, d.applyAck ack = some { (d.set fPAIR_SEQ_ACKED ack).drop fPAIR_SEQ_OUTSTANDING n with pair := p } ∧
      p.outst = d.pair.outst.drop n := by
  rw [Dev.applyAck, ← hn]
  dsimp only
  rw [if_neg (Nat.not_lt.2 hle), if_neg hpos.ne', if_neg (by simp [Dev.drop, hsleep])]
  exact ⟨_, rfl, rfl⟩

end

/-- ACKED and OUTSTANDING are bits 23:12 and 35:24 of PAIR_SEQ. -/
theorem Dev.get_drop_outstanding_acked (d : Dev) (n : Nat) : (d.drop fPAIR_SEQ_OUTSTANDING n).get fPAIR_SEQ_ACKED = d.get fPAIR_SEQ_ACKED :=
  d.get_set_of_disjoint _ (.inl (show 12 + 12 ≤ 24 by decide))

theorem Dev.get_set_acked {d : Dev} {ack : Nat} (hack : ack < 4096) : (d.set fPAIR_SEQ_ACKED ack).get fPAIR_SEQ_ACKED = ack :=
  (d.get_set_self fPAIR_SEQ_ACKED ack).trans (Nat.mod_eq_of_lt hack)

/-! ### A fresh credit total (R242) -/

theorem Dev.get_with_pair (d : Dev) (p : PairS) (f : Fld) : ({ d with pair := p } : Dev).get f = d.get f := rfl

theorem cnt_setCnt_self (t : Tbl Nat) (r v : Nat) : cnt (setCnt t r v) r = v :=
  tget_tset_self _ t r v

theorem Dev.get_bump_self (d : Dev) (f : Fld) (n : Nat) : (d.bump f n).get f = (d.get f + n) % 2 ^ f.w :=
  d.get_set_self f _

section
variable {d : Dev} {v tot n : Nat} (hn : n = (tot + 4096 - cnt d.pair.ret v) % 4096)
include hn

theorem Dev.applyCredit_eq_none (hlt : d.get (fPAIR_VC_LIMIT v) - d.get (fPAIR_VC_AVAIL v) < n) : d.applyCredit v tot = none := by
  subst hn
  exact if_pos hlt

/-- A total that returns no more credits than are taken is kept as the last applied, and AVAIL takes the credits. -/
theorem Dev.applyCredit_of_le (hle : n ≤ d.get (fPAIR_VC_LIMIT v) - d.get (fPAIR_VC_AVAIL v)) :
    d.applyCredit v tot = some (({ d with pair := { d.pair with ret := setCnt d.pair.ret v tot } }).bump (fPAIR_VC_AVAIL v) n) := by
  subst hn
  exact if_neg (Nat.not_lt.2 hle)

end

/-! ### The link fields of a verified frame (R239, R240) -/

/-- R240: a frame whose link fields count: the first of the phase that follows, or one of the current phase that is its first or whose count
is above H. -/
def Dev.FreshFrame (d : Dev) (ph : RxPhase) (c : Nat) : Prop :=
  ph = .new ∨ ph = .cur ∧ (!d.pair.rxAny || decide (d.pair.rxH < c)) = true

theorem Dev.FreshFrame.of_rxAny_false {d : Dev} (hrx : d.pair.rxAny = false) (c : Nat) : d.FreshFrame .cur c :=
  .inr ⟨rfl, by simp [hrx]⟩

/-- A fresh frame with an ACK that breaks R241 takes the link down as a protocol error (Table 9.7). -/
theorem Dev.FreshFrame.verified_of_applyAck_eq_none {d : Dev} {ph : RxPhase} {c : Nat} (hf : d.FreshFrame ph c) {h : FrameHdr} (body : List Byte)
    (hack : d.applyAck h.ack = none) : d.verified h body ph c = d.linkDown 4 := by
  rw [Dev.verified, if_pos (show _ ∨ _ from hf), hack]

/-- A fresh frame with a credit total that breaks R242 takes the link down as a protocol error, its ACK applied (Table 9.7). -/
theorem Dev.FreshFrame.verified_of_applyCredit_eq_none {d e : Dev} {ph : RxPhase} {c : Nat} (hf : d.FreshFrame ph c) {h : FrameHdr}
    (body : List Byte) (hack : d.applyAck h.ack = some e) (hframing : e.framing = true) (hcr : e.applyCredit h.crvc h.crtot = none) :
    d.verified h body ph c = e.linkDown 4 := by
  simp only [Dev.verified, if_pos (show _ ∨ _ from hf), hack, hframing, hcr, Bool.not_true, Bool.false_eq_true, if_false]

/-- Settles O51: the count that an ACK or a credit total gives back decides each outcome, and the registers it writes are read back; the
first frame of a phase is fresh, so a protocol error in its link fields takes the link down. -/
theorem freshAckAndCredit : Obligations.FreshAckAndCredit := by
  unfold Obligations.FreshAckAndCredit
  refine ⟨fun d ack n hn => ⟨Dev.applyAck_eq_none hn, Dev.applyAck_of_eq_zero hn, fun hpos hle hsleep hack => ?_⟩,
    fun d v tot n _ hn => ⟨Dev.applyCredit_eq_none hn, fun hle => ?_⟩,
    fun d h body c hrx hack => (Dev.FreshFrame.of_rxAny_false hrx c).verified_of_applyAck_eq_none body hack,
    fun d e h body c hrx hack hframing hcr =>
      (Dev.FreshFrame.of_rxAny_false hrx c).verified_of_applyCredit_eq_none body hack hframing hcr⟩
  · obtain ⟨p, hd, houtst⟩ := Dev.applyAck_of_pos hn hpos hle hsleep
    refine ⟨_, hd, houtst, ?_⟩
    rw [Dev.get_with_pair, Dev.get_drop_outstanding_acked, Dev.get_set_acked hack]
  · refine ⟨_, Dev.applyCredit_of_le hn hle, ?_, cnt_setCnt_self d.pair.ret v tot⟩
    rw [Dev.get_bump_self, Dev.get_with_pair]

end Sys2Proof.Machine
end

section
/-! A management restart and its causes (14_management.md R342 to R344, R351): what the replies of a restart leave of the management
processor, and the commands that restart it. -/

namespace Sys2Proof.Machine

/-! ### What keeps the management processor's status -/

/-- e has the management state of d and its MGT_STS. -/
def Dev.KeepsMgtSts (d e : Dev) : Prop := e.mgt = d.mgt ∧ e.rd rMGT_STS = d.rd rMGT_STS

theorem Dev.KeepsMgtSts.refl (d : Dev) : d.KeepsMgtSts d := ⟨rfl, rfl⟩

theorem Dev.KeepsMgtSts.trans {d e f : Dev} (h : d.KeepsMgtSts e) (g : e.KeepsMgtSts f) : d.KeepsMgtSts f :=
  ⟨g.1.trans h.1, g.2.trans h.2⟩

theorem Dev.KeepsMgtSts.foldl {α : Type} {f : Dev → α → Dev} (h : ∀ d x, Dev.KeepsMgtSts d (f d x)) (l : List α) (d : Dev) :
    d.KeepsMgtSts (l.foldl f d) := by
  induction l generalizing d with
  | nil => exact .refl d
  | cons x l ih => exact (h d x).trans (ih (f d x))

/-- A field of MGT_STS reads as before. -/
theorem Dev.KeepsMgtSts.get_eq {d e : Dev} (h : d.KeepsMgtSts e) {f : Fld} (hf : f.reg = rMGT_STS) : e.get f = d.get f := by
  unfold Dev.get
  rw [hf, h.2]

theorem Dev.keepsMgtSts_set (d : Dev) {f : Fld} (v : Nat) (hf : f.reg < rMGT_STS) : d.KeepsMgtSts (d.set f v) :=
  ⟨d.set_mgt f v, d.rd_set_of_ne f v (Nat.ne_of_gt hf)⟩

theorem Dev.keepsMgtSts_emit (d : Dev) (o : Out) : d.KeepsMgtSts (d.emit o) := ⟨d.emit_mgt o, d.rd_emit o rMGT_STS⟩

theorem Dev.keepsMgtSts_with_rings (d : Dev) (r : Tbl RingS) : d.KeepsMgtSts { d with rings := r } := ⟨rfl, rfl⟩

/-- The counters and controls of the monitor units stand below MGT_STS. -/
theorem Dev.Counts.keepsMgtSts {d e : Dev} {u : Nat} (h : d.Counts u e) (hu : u < 44) : d.KeepsMgtSts e := by
  obtain ⟨⟨c, o, rfl⟩, hrd⟩ := h
  refine ⟨rfl, hrd rMGT_STS ?_ fun k hk => ?_⟩
  · simp only [rMGT_STS, rPMU_U_CTL]; omega
  · simp only [rMGT_STS, rPMU_U_CNT]; omega

/-! ### Notice rings (R431 to R435) -/

/-- The pointers and status of the eight rings stand below MGT_STS. -/
theorem ringRegs_lt_mgtSts {n r : Nat} (hn : n < 8) (hr : r ∈ [rRING_PTR n, rRING_STS n]) : r < rMGT_STS := by
  simp only [rRING_PTR, rRING_STS, List.mem_cons, List.not_mem_nil, or_false] at hr
  simp only [rMGT_STS]
  omega

/-- The data window of the last ring ends where MGT_STS stands. -/
theorem ringWindows_lt_mgtSts {n i r : Nat} (hn : n < 8) (hi : i < 8192) (hr : r ∈ [rRING_DATAWIN n i, rRING_TAGWIN n i]) :
    r < rMGT_STS := by
  simp only [rRING_DATAWIN, rRING_TAGWIN, List.mem_cons, List.not_mem_nil, or_false] at hr
  simp only [rMGT_STS]
  omega

section
variable (d : Dev) {n : Nat} (hn : n < 8)
include hn

theorem Dev.keepsMgtSts_set_ring {f : Fld} (v : Nat) (hf : f.reg ∈ [rRING_PTR n, rRING_STS n]) : d.KeepsMgtSts (d.set f v) :=
  d.keepsMgtSts_set v (ringRegs_lt_mgtSts hn hf)

theorem Dev.keepsMgtSts_set_dataWord (i v : Nat) : d.KeepsMgtSts (d.set (fRING_DATAWIN_WORD n (i % 8192)) v) :=
  d.keepsMgtSts_set v (ringWindows_lt_mgtSts hn (Nat.mod_lt i (by decide)) (by simp [fRING_DATAWIN_WORD]))

theorem Dev.keepsMgtSts_set_tag (i v : Nat) : d.KeepsMgtSts (d.set (fRING_TAGWIN_TAG n (i % 8192)) v) :=
  d.keepsMgtSts_set v (ringWindows_lt_mgtSts hn (Nat.mod_lt i (by decide)) (by simp [fRING_TAGWIN_TAG]))

theorem Dev.keepsMgtSts_ringWrite (l : List (Nat × Nat)) : d.KeepsMgtSts (d.ringWrite n l) := by
  induction l generalizing d with
  | nil => exact .refl d
  | cons e l ih =>
    have hentry := (d.keepsMgtSts_set_dataWord hn (d.get (fRING_PTR_WR n)) e.1).trans
      (Dev.keepsMgtSts_set_tag _ hn (d.get (fRING_PTR_WR n)) e.2)
    exact (hentry.trans (Dev.keepsMgtSts_set_ring _ hn _ (by simp [fRING_PTR_WR]))).trans (ih _)

theorem Dev.keepsMgtSts_ringSettle (before : Nat) : d.KeepsMgtSts (d.ringSettle n before) := by
  unfold Dev.ringSettle
  have hocc := d.keepsMgtSts_set_ring hn (f := fRING_PTR_OCC n) (d.ringOcc n) (by simp [fRING_PTR_OCC])
  dsimp only
  split
  · have hlvl := hocc.trans (Dev.keepsMgtSts_set_ring _ hn (f := fRING_STS_LVL n) true.toNat (by simp [fRING_STS_LVL]))
    split
    · exact hlvl.trans (Dev.keepsMgtSts_emit _ _)
    · exact hlvl.trans (Dev.keepsMgtSts_emit _ _)
  · exact hocc

theorem Dev.keepsMgtSts_ringDrop (kind : Nat) : d.KeepsMgtSts (d.ringDrop n kind) := by
  unfold Dev.ringDrop
  have hdrops : d.KeepsMgtSts (d.bumpSat (fRING_STS_DROPS n) 1) := d.keepsMgtSts_set_ring hn _ (by simp [fRING_STS_DROPS])
  refine (hdrops.trans ((Dev.counts_pmu _ 43 0x7C 0 8 1).keepsMgtSts (by decide))).trans ?_
  dsimp only
  split
  · exact Dev.keepsMgtSts_set_dataWord _ hn _ _
  · split
    · exact (Dev.keepsMgtSts_ringWrite _ hn _).trans (Dev.keepsMgtSts_ringSettle _ hn _)
    · exact Dev.keepsMgtSts_with_rings _ _

theorem Dev.keepsMgtSts_ringPut (kind : Nat) (words : List Nat) : d.KeepsMgtSts (d.ringPut n kind words) := by
  unfold Dev.ringPut
  dsimp only
  split
  · exact .refl d
  · split
    · exact (d.keepsMgtSts_ringWrite hn _).trans (Dev.keepsMgtSts_ringSettle _ hn _)
    · exact d.keepsMgtSts_ringDrop hn kind

end

/-! ### Replies (R325, R357, R432) -/

theorem Dev.keepsMgtSts_logPut (d : Dev) (kind sev source data : Nat) : d.KeepsMgtSts (d.logPut kind sev source data) := by
  unfold Dev.logPut
  split
  · exact ⟨rfl, rfl⟩
  · exact ⟨rfl, rfl⟩

theorem Dev.keepsMgtSts_logCmd (d : Dev) (b : BgCmd) (status detail : Nat) : d.KeepsMgtSts (d.logCmd b status detail) := by
  unfold Dev.logCmd
  split
  · split
    · exact d.keepsMgtSts_logPut _ _ _ _
    · exact .refl d
  · exact .refl d

/-- RING_GCTL.CMD_RING is three bits wide, so it names one of the eight rings. -/
theorem Dev.keepsMgtSts_cmdDone (d : Dev) (b : BgCmd) (hdr : List Byte) : d.KeepsMgtSts (d.cmdDone b hdr) := by
  unfold Dev.cmdDone
  split
  · exact d.keepsMgtSts_ringPut (wordField_lt (d.rd rRING_GCTL) 0 3) _ _
  · exact .refl d

theorem Dev.keepsMgtSts_sendReply (d : Dev) (b : BgCmd) (status rflags detail : Nat) (body : List Byte) :
    d.KeepsMgtSts (d.sendReply b status rflags detail body) := by
  unfold Dev.sendReply
  refine (d.keepsMgtSts_logCmd b status detail).trans ?_
  dsimp only
  split
  · exact .refl _
  · refine .trans ?_ ((Dev.keepsMgtSts_emit _ _).trans (Dev.keepsMgtSts_cmdDone _ _ _))
    split
    · exact Dev.keepsMgtSts_emit _ _
    · exact .refl _

/-! ### The restart (R344) -/

/-- A device e in restart has MGT_STS written as R344 says, and the replies that follow leave it so. -/
theorem Dev.exists_keepsMgtSts_mgtRestart (d : Dev) : ∃ e : Dev, e.mgt.restart = true ∧
    (((e.setFlag fMGT_STS_READY false).set fMGT_STS_MODE 1).bumpSat fMGT_STS_RESTARTS 1).KeepsMgtSts d.mgtRestart :=
  ⟨_, rfl, Dev.KeepsMgtSts.foldl (fun e (x : BgCmd × Nat) => e.keepsMgtSts_sendReply x.1 stNotReady x.2 noDetail []) _ _⟩

theorem Dev.mgtRestart_not_ready (d : Dev) : d.mgtRestart.flag fMGT_STS_READY = false := by
  obtain ⟨e, -, hkeep⟩ := d.exists_keepsMgtSts_mgtRestart
  calc d.mgtRestart.flag fMGT_STS_READY
      = (((e.setFlag fMGT_STS_READY false).set fMGT_STS_MODE 1).bumpSat fMGT_STS_RESTARTS 1).flag fMGT_STS_READY :=
        congrArg (· != 0) (hkeep.get_eq rfl)
    _ = ((e.setFlag fMGT_STS_READY false).set fMGT_STS_MODE 1).flag fMGT_STS_READY := Dev.flag_set_of_disjoint _ _ (.inl (by decide))
    _ = (e.setFlag fMGT_STS_READY false).flag fMGT_STS_READY := Dev.flag_set_of_disjoint _ _ (.inl (by decide))
    _ = false := e.flag_setFlag_self fMGT_STS_READY false rfl

theorem Dev.mgtRestart_mode (d : Dev) : d.mgtRestart.get fMGT_STS_MODE = 1 := by
  obtain ⟨e, -, hkeep⟩ := d.exists_keepsMgtSts_mgtRestart
  calc d.mgtRestart.get fMGT_STS_MODE
      = (((e.setFlag fMGT_STS_READY false).set fMGT_STS_MODE 1).bumpSat fMGT_STS_RESTARTS 1).get fMGT_STS_MODE := hkeep.get_eq rfl
    _ = ((e.setFlag fMGT_STS_READY false).set fMGT_STS_MODE 1).get fMGT_STS_MODE := Dev.get_set_of_disjoint _ _ (.inl (by decide))
    _ = 1 := Dev.get_set_self _ _ _

theorem Dev.mgtRestart_restart (d : Dev) : d.mgtRestart.mgt.restart = true := by
  obtain ⟨e, hrestart, hkeep⟩ := d.exists_keepsMgtSts_mgtRestart
  rw [hkeep.1]
  simpa using hrestart

/-! ### Its causes (R343, R351) -/

/-- R458: an injected TCM error that shows leaves only the pending injections changed. -/
theorem Dev.exists_tcmInj_eq (d : Dev) (i bits : Nat) (p : Nat → Bool) :
    ∃ l, (d.tcmInj i bits p).2 = { d with flt := { d.flt with inj := l } } := by
  unfold Dev.tcmInj
  split
  · exact ⟨_, rfl⟩
  · exact ⟨d.flt.inj, rfl⟩

/-- Outside RECOVERY an uncorrectable error of TCM k is counted and recorded, and the restart follows. -/
theorem Dev.exists_tcmFail_eq {d : Dev} (k : Nat) (p : Nat → Bool) (hmode : d.get fMGT_STS_MODE ≠ 2) :
    ∃ (i : Bool) (l : List Inj), d.tcmFail k p = ((Dev.bumpSat { d with flt := { d.flt with inj := l } } fMGT_TCM_STS_UE 1).raise
      { src := src 39 k, sev := 3, code := 342 + (k + 1) / 2, inj := i }).mgtRestart := by
  obtain ⟨l, hl⟩ := d.exists_tcmInj_eq k 2 p
  refine ⟨(d.tcmInj k 2 p).1, l, ?_⟩
  simp only [Dev.tcmFail, if_neg hmode, hl]

theorem exec_dataTcmError_eq (s : State) :
    exec .dataTcmError s = .next (s.after (s.dev.when s.dev.pin.mgmtUp (fun d => d.tcmFail 1 (fun _ => true)))) := rfl

theorem exec_watchdogExpiry_eq (s : State) :
    exec .watchdogExpiry s = .next (s.after (s.dev.when (s.dev.mgt.fwRun || s.dev.mgt.restart) Dev.watchdog)) := rfl

/-- The watchdog's record, then the fallback from an image that is not confirmed, then the restart. -/
theorem Dev.watchdog_eq (d : Dev) {e : Dev} (he : e = d.raise { src := src 39 2, sev := 3, code := 343 }) :
    d.watchdog = if e.unconfirmed then e.fellBack.mgtRestart else e.mgtRestart := by
  subst he
  exact apply_ite Dev.mgtRestart _ _ _

/-- Settles O54: the data TCM error and the watchdog run into `Dev.mgtRestart` behind their record (`Dev.exists_tcmFail_eq`,
`Dev.watchdog_eq`), and the NOT_READY replies of the restart touch neither MGT_STS nor the restart that is under way. -/
theorem managementRestartCauses : Obligations.ManagementRestartCauses := by
  unfold Obligations.ManagementRestartCauses
  refine ⟨fun s hup hmode => ?_, fun s hruns => ?_, fun d => ⟨d.mgtRestart_not_ready, d.mgtRestart_mode, d.mgtRestart_restart⟩⟩
  · obtain ⟨i, l, hfail⟩ := Dev.exists_tcmFail_eq 1 (fun _ => true) hmode
    refine ⟨343, i, l, ?_⟩
    rw [exec_dataTcmError_eq, Dev.when_of_true _ _ _ hup, hfail]
  · refine ⟨343, _, rfl, ?_⟩
    rw [exec_watchdogExpiry_eq, Dev.when_of_true _ _ _ (by simpa using hruns), Dev.watchdog_eq _ rfl]

end Sys2Proof.Machine
end

section
/-! Commands as a whole (95_what_each_step_holds.md): what each can touch beyond the device, and what a step therefore keeps of DRAM, of the
OTP and of the queue. -/

namespace Sys2Proof.Machine

/-! ### The OTP counters (R352, R405) -/

/-- The counters stand within their fuses. -/
def Otp.InFuses (o : Otp) : Prop := o.rollback ≤ 64 ∧ o.ledger ≤ 64

/-- From o within its fuses to p within its own, no counter falls. -/
def Otp.Burns (o p : Otp) : Prop := o.InFuses → p.InFuses ∧ o.rollback ≤ p.rollback ∧ o.ledger ≤ p.ledger

theorem Otp.Burns.refl (o : Otp) : o.Burns o := fun h => ⟨h, le_rfl, le_rfl⟩

/-- R405: the ledger burns its next fuse, and stands at 64 when none is left. -/
theorem Dev.burns_burnLedger (d : Dev) (o : Otp) : o.Burns (d.burnLedger o).2 := by
  unfold Dev.burnLedger
  split
  · rintro ⟨hr, hl⟩
    exact ⟨⟨hr, min_le_right _ _⟩, le_rfl, le_min (Nat.le_succ _) hl⟩
  · exact .refl o

/-- Of what the boot ROM does, the ledger alone burns a fuse. -/
theorem Dev.romBoot_snd (d : Dev) (o : Otp) :
    (d.romBoot o).2 = (({ d with pin := { d.pin with mgmtUp := true } } : Dev).burnLedger o).2 := by
  unfold Dev.romBoot
  exact (apply_ite Prod.snd _ _ _).trans (ite_self _)

/-- R351: the device once its image is confirmed. -/
def Dev.confirmed (d : Dev) : Dev :=
  let s := d.flash.sel
  if s.try_ then
    { d.setFlag fMGT_STS_FALLBACK false with flash := { d.flash with sel := { s with
        try_ := false, confirmed := s.confirmed.filter (· != s.active) ++ [s.active] } } }
  else d

/-- The SVN of the image that runs, as far as there are fuses for it. -/
def Dev.svn (d : Dev) : Nat := min (imgAt (d.img (d.get fMGT_STS_SLOT)).bytes 12 4) 64

/-- The image that runs asks with RAISE_SVN that the anti-rollback counter follow its SVN. -/
def Dev.raisesSvn (d : Dev) : Bool := (imgAt (d.img (d.get fMGT_STS_SLOT)).bytes 9 1).testBit 0

/-- R352: the rollback counter rises to the SVN of an image with RAISE_SVN. -/
theorem Dev.confirm_snd (d : Dev) (o : Otp) :
    (d.confirm o).2 = if d.confirmed.raisesSvn && decide (o.rollback < d.confirmed.svn) then { o with rollback := d.confirmed.svn } else o :=
  apply_ite Prod.snd _ _ _

theorem Dev.burns_confirm (d : Dev) (o : Otp) : o.Burns (d.confirm o).2 := by
  rw [Dev.confirm_snd]
  split
  · rename_i h
    have hlt : o.rollback < d.confirmed.svn := of_decide_eq_true (Bool.and_eq_true_iff.1 h).2
    exact fun hin => ⟨⟨min_le_right _ _, hin.2⟩, hlt.le, le_rfl⟩
  · exact .refl o

/-! ### How a command touches the state -/

/-- t follows s by a command that may store where `stores` says so, and may burn fuses where `burns` says so. -/
structure Follows (stores burns : Bool) (s t : State) : Prop where
  pending : t.pending = s.pending
  dram : ∃ l, t.dram = s.dram.commit l ∧ (stores = false → l = [])
  otp : s.otp.Burns t.otp
  otpStays : burns = false → t.otp = s.otp

/-- The command answers a state that follows. -/
def Result.Follows (stores burns : Bool) (s : State) (r : Result) : Prop := ∃ t, r = .next t ∧ Machine.Follows stores burns s t

theorem onDev_follows (stores burns : Bool) (f : Dev → Dev) (s : State) : Result.Follows stores burns s (onDev f s) :=
  ⟨_, rfl, rfl, ⟨[], rfl, fun _ => rfl⟩, .refl _, fun _ => rfl⟩

theorem run_follows (stores burns : Bool) (f : Dev → Dev) (s : State) : Result.Follows stores burns s (run f s) :=
  onDev_follows stores burns _ s

theorem runAcc_follows (burns : Bool) (f : Acc → Acc) (s : State) : Result.Follows true burns s (runAcc f s) :=
  ⟨_, rfl, rfl, ⟨_, rfl, nofun⟩, .refl _, fun _ => rfl⟩

/-- A command that reads the OTP and leaves it. -/
theorem onOtp_follows (stores burns : Bool) (f : Dev → Otp → Dev) (s : State) :
    Result.Follows stores burns s (onOtp (fun d o => (f d o, o)) s) :=
  ⟨_, rfl, rfl, ⟨[], rfl, fun _ => rfl⟩, .refl _, fun _ => rfl⟩

/-- A boot or a restart that completes: the heads' restoration stores, the image's confirmation burns. -/
theorem readyStep_follows (c : Dev → Bool) (f : Dev → Otp → Dev) (kind : Nat) (s : State) :
    Result.Follows true true s (readyStep c f kind s) := by
  unfold readyStep
  split
  · dsimp only
    split
    · exact ⟨_, rfl, rfl, ⟨[], rfl, nofun⟩, .refl _, nofun⟩
    · exact ⟨_, rfl, rfl, ⟨_, rfl, nofun⟩, Dev.burns_confirm _ _, nofun⟩
  · exact onDev_follows true true Dev.settle s

theorem execMgmtResetRelease_follows (s : State) : Result.Follows false true s (execMgmtResetRelease s) := by
  refine ⟨_, rfl, rfl, ⟨[], rfl, fun _ => rfl⟩, ?_, nofun⟩
  show s.otp.Burns (ite _ _ _ : Dev × Otp).2
  split
  · exact s.dev.romBoot_snd s.otp ▸ Dev.burns_burnLedger _ _
  · exact .refl _

theorem execManagementRestartDone_follows (s : State) : Result.Follows true true s (execManagementRestartDone s) := by
  unfold execManagementRestartDone
  split
  · exact onOtp_follows true true (fun d o => (d.restartInBoot o).settle) s
  · exact readyStep_follows _ _ _ s

/-- Every command answers a state, which follows as `mayStore` and `mayBurn` say. -/
theorem exec_follows (c : Instr) (s : State) : Result.Follows (mayStore c) (mayBurn c) s (exec c s) := by
  unfold exec
  cases hs : mayStore c
  · cases c
    case mgmtResetRelease => exact execMgmtResetRelease_follows s
    case fwActivate | fwInfo | spdmRequest | coldReset | mainPwrgdFall | aonPowerOn | warmReset => exact onOtp_follows _ _ _ s
    case aonPowerLoss => exact onDev_follows _ _ _ s
    all_goals cases hs
    all_goals exact run_follows _ _ _ s
  · cases c
    case bootComplete => exact readyStep_follows _ _ _ s
    case managementRestartDone => exact execManagementRestartDone_follows s
    all_goals cases hs
    all_goals exact runAcc_follows _ _ s

/-! ### Every command answers, and what a step keeps -/

theorem State.Inv.inFuses {s : State} (h : s.Inv) : s.otp.InFuses := h.2

theorem Follows.inv {stores burns : Bool} {s t : State} (h : Follows stores burns s t) (hs : s.Inv) : t.Inv := by
  obtain ⟨l, hl, -⟩ := h.dram
  exact ⟨hl ▸ s.dram.wf_commit l hs.1, (h.otp hs.inFuses).1⟩

theorem State.idle_pending (s : State) : s.idle.pending = s.pending := by
  rw [State.idle]

/-- The step of an idle block follows: device time touches the device alone, and so does what surrounds a packet's command. -/
theorem takePkt_follows (s : State) : ∃ stores burns, Result.Follows stores burns s s.takePkt := by
  unfold State.takePkt
  split
  · exact ⟨false, false, onDev_follows _ _ id s⟩
  · rename_i q hq
    split
    · exact ⟨false, false, onDev_follows false false (fun d => ({ s with dev := d.taking q } : State).taken.dev) s⟩
    · rename_i i hi
      obtain ⟨t, ht, h⟩ := exec_follows i { s with dev := s.dev.taking q }
      rw [ht]
      exact ⟨mayStore i, mayBurn i, t.taken, rfl, h.pending, h.dram, h.otp, h.otpStays⟩

/-- What a step does with the state but for the queue's front. -/
theorem step_follows (s : State) : ∃ stores burns, Result.Follows stores burns { s with pending := s.pending.tail } (step s) := by
  unfold step
  split
  · rename_i hnil
    obtain ⟨stores, burns, t, ht, h⟩ := takePkt_follows s.idle
    have hpending : s.pending = s.pending.tail := by rw [hnil, List.tail_nil]
    exact ⟨stores, burns, t, ht, (h.pending.trans s.idle_pending).trans hpending, h.dram, h.otp, h.otpStays⟩
  · rename_i c rest hcons
    rw [hcons]
    exact ⟨_, _, exec_follows c { s with pending := rest }⟩

/-- Settles O40: each command is one of the lifts `run`, `runAcc`, `onOtp` and `onDev`, or the end of a boot or restart, and all of them
answer (`exec_follows`). -/
theorem everyCommandAnswers : Obligations.EveryCommandAnswers := by
  unfold Obligations.EveryCommandAnswers
  intro c s
  obtain ⟨t, ht, -⟩ := exec_follows c s
  exact ⟨t, ht⟩

/-- Settles O41. -/
theorem stepRunsFront : Obligations.StepRunsFront := by
  unfold Obligations.StepRunsFront
  intro s c rest h
  rw [step, h]

/-- Settles O44: what a step stores keeps the canonical form, and a counter that it burns stays within its fuses. -/
theorem stepKeepsInvariant : Obligations.StepKeepsInvariant := by
  unfold Obligations.StepKeepsInvariant
  intro s t hinv hstep
  obtain ⟨stores, burns, t', ht, h⟩ := step_follows s
  cases hstep.symm.trans ht
  exact h.inv hinv

/-- Settles O45. -/
theorem fusesOnlyBurn : Obligations.FusesOnlyBurn := by
  unfold Obligations.FusesOnlyBurn
  intro s t hinv hstep
  obtain ⟨stores, burns, t', ht, h⟩ := step_follows s
  cases hstep.symm.trans ht
  exact (h.otp hinv.inFuses).2

/-- Settles O46. -/
theorem commandFrame : Obligations.CommandFrame := by
  unfold Obligations.CommandFrame
  intro c s t hexec
  obtain ⟨t', ht, h⟩ := exec_follows c s
  cases hexec.symm.trans ht
  obtain ⟨l, hl, hnone⟩ := h.dram
  refine ⟨h.pending, fun hs => ?_, h.otpStays⟩
  have hdram : t.dram = s.dram := by rw [hl, hnone hs, Mem.commit]
  exact ⟨hdram, fun a => by rw [hdram]⟩

end Sys2Proof.Machine
end

section
/-! The line codec (08_compression_tiering.md R195 to R198): each pattern of Table 8.1 gives back the line it packed. -/

namespace Sys2Proof.Machine

/-! ### Bytes of a number -/

@[simp] theorem length_toBytes (n v : Nat) : (toBytes n v).length = n := by
  induction n generalizing v with
  | zero => rfl
  | succ n ih => simp [toBytes, ih]

theorem ofBytes_toBytes (n v : Nat) : ofBytes (toBytes n v) = v % 2 ^ (8 * n) := by
  induction n generalizing v with
  | zero => simp [toBytes, ofBytes, Nat.mod_one]
  | succ n ih =>
    rw [toBytes, ofBytes, ih, show 8 * (n + 1) = 8 + 8 * n by ring, pow_add, Nat.mod_mul]
    rfl

theorem ofBytes_toBytes_of_lt {n v : Nat} (h : v < 2 ^ (8 * n)) : ofBytes (toBytes n v) = v := by
  rw [ofBytes_toBytes, Nat.mod_eq_of_lt h]

/-- A number is the sum of its digits of w bits, each at its place. -/
theorem foldl_digits (w m v : Nat) :
    (List.range m).foldl (fun a i => a + v / 2 ^ (w * i) % 2 ^ w * 2 ^ (w * i)) 0 = v % 2 ^ (w * m) := by
  induction m with
  | zero => simp [Nat.mod_one]
  | succ m ih =>
    rw [List.range_succ, List.foldl_append, ih, Nat.mul_succ, pow_add, Nat.mod_mul]
    simp [Nat.mul_comm]

/-- Of chunks of k bytes in a row, the j-th. -/
theorem take_drop_flatMap {α : Type} {k : Nat} {f : α → List Nat} (hf : ∀ x, (f x).length = k) (xs : List α) (z : List Nat) {j : Nat}
    (hj : j < xs.length) : ((xs.flatMap f ++ z).drop (k * j)).take k = f xs[j] := by
  induction xs generalizing j with
  | nil => simp at hj
  | cons x xs ih =>
    rw [List.flatMap_cons, List.append_assoc]
    cases j with
    | zero => simp [← hf x]
    | succ j =>
      have hdrop : k * (j + 1) = (f x).length + k * j := by rw [hf]; ring
      rw [hdrop, List.drop_length_add_append]
      simpa using ih (by simpa using hj)

/-! ### The words of a line -/

theorem length_lineWords (n v : Nat) : (lineWords n v).length = 64 / n := by simp [lineWords]

theorem getElem_lineWords {n v i : Nat} (h : i < (lineWords n v).length) : (lineWords n v)[i] = v / 2 ^ (8 * n * i) % 2 ^ (8 * n) := by
  simp [lineWords]

theorem headD_lineWords {n : Nat} (v : Nat) (h : 0 < 64 / n) : (lineWords n v).headD 0 = v % 2 ^ (8 * n) := by
  obtain ⟨m, hm⟩ := Nat.exists_eq_succ_of_ne_zero h.ne'
  simp [lineWords, hm, List.range_succ_eq_map]

/-- Words of n bytes fill a line. -/
def Fills (n : Nat) : Prop := 8 * n * (64 / n) = 512

theorem Fills.pos {n : Nat} (h : Fills n) : 0 < 64 / n := Nat.pos_of_ne_zero fun h0 => by simp [Fills, h0] at h

/-- A line is the sum of its words, each at its place. -/
theorem Fills.foldl_words {n v : Nat} (hn : Fills n) (hv : v < 2 ^ 512) {f : Nat → Nat}
    (hf : ∀ i < 64 / n, f i = v / 2 ^ (8 * n * i) % 2 ^ (8 * n)) :
    (List.range (64 / n)).foldl (fun a i => a + f i * 2 ^ (8 * n * i)) 0 = v := by
  have hcongr := List.foldl_ext (fun a i => a + f i * 2 ^ (8 * n * i)) (fun a i => a + v / 2 ^ (8 * n * i) % 2 ^ (8 * n) * 2 ^ (8 * n * i)) 0
    (l := List.range (64 / n)) fun a i hi => by rw [hf i (List.mem_range.1 hi)]
  rw [hcongr, foldl_digits, hn, Nat.mod_eq_of_lt hv]

/-! ### Payloads in their 56 bytes -/

/-- A payload, padded with zeros to the 56 bytes that a packed line has for it. -/
def padded (p : List Nat) : List Nat := p ++ List.replicate (56 - p.length) 0

/-- R198: what follows the bytes that a pattern uses is zero. -/
theorem all_zero_drop_padded (p : List Nat) : ((padded p).drop p.length).all (· == 0) = true := by
  simp [padded]

theorem take_padded {p q : List Nat} {n : Nat} (h : p.length = n) : (padded (p ++ q)).take n = p := by
  simp [padded, ← h, List.append_assoc]

/-- The payload of the base-delta pattern of words of n and deltas of k bytes, and of a repeated word of n bytes. -/
theorem drop_padded {p q : List Nat} {n : Nat} (h : p.length = n) : ∃ z, (padded (p ++ q)).drop n = q ++ z :=
  ⟨List.replicate (56 - (p ++ q).length) 0, by simp [padded, ← h, List.append_assoc]⟩

/-- R198: a line is read where no byte after those that the pattern uses is set. -/
def ifClear (p : List Nat) (r : Nat × Nat) : Option Nat := if (p.drop r.2).all (· == 0) then some r.1 else none

theorem ifClear_padded (p : List Nat) (v : Nat) : ifClear (padded p) (v, p.length) = some v := if_pos (all_zero_drop_padded p)

/-! ### Repeated words -/

/-- The line whose words of n bytes all are the payload's. -/
theorem Fills.foldl_repeated {n v : Nat} (hn : Fills n) (hv : v < 2 ^ 512)
    (hall : (lineWords n v).all (· == (lineWords n v).headD 0) = true) :
    (List.range (64 / n)).foldl (fun a i => a + ofBytes ((padded (toBytes n ((lineWords n v).headD 0))).take n) * 2 ^ (8 * n * i)) 0 = v := by
  refine hn.foldl_words hv fun i hi => ?_
  have hlen : i < (lineWords n v).length := by rwa [length_lineWords]
  have hword : (lineWords n v)[i] = (lineWords n v).headD 0 := by
    simpa using List.all_eq_true.1 hall _ (List.getElem_mem hlen)
  have htake := take_padded (q := []) (length_toBytes n ((lineWords n v).headD 0))
  rw [List.append_nil] at htake
  rw [htake, ofBytes_toBytes, headD_lineWords v hn.pos, Nat.mod_mod, ← headD_lineWords v hn.pos, ← hword, getElem_lineWords]

theorem Fills.ifClear_repeated {n v : Nat} (hn : Fills n) (hv : v < 2 ^ 512)
    (hall : (lineWords n v).all (· == (lineWords n v).headD 0) = true) :
    ifClear (padded (toBytes n ((lineWords n v).headD 0))) ((List.range (64 / n)).foldl (fun a i =>
      a + ofBytes ((padded (toBytes n ((lineWords n v).headD 0))).take n) * 2 ^ (8 * n * i)) 0, n) = some v := by
  have hclear := ifClear_padded (toBytes n ((lineWords n v).headD 0)) v
  rw [length_toBytes] at hclear
  rw [hn.foldl_repeated hv hall, hclear]

/-! ### Base and deltas -/

/-- A delta that fits in k bytes gives its word back when it is extended. -/
theorem deltaExt_of_deltaFit {n k w0 w x : Nat} (hk : 0 < k) (hkn : k ≤ n) (hw0 : w0 < 2 ^ (8 * n)) (hw : w < 2 ^ (8 * n))
    (h : deltaFit n k w0 w = some x) : x < 2 ^ (8 * k) ∧ (w0 + deltaExt n k x) % 2 ^ (8 * n) = w := by
  have h2k : 2 ^ (8 * k) = 2 * 2 ^ (8 * k - 1) := by rw [← pow_succ']; congr 1; omega
  obtain ⟨m, hm⟩ : ∃ m, 2 ^ (8 * n) = 2 ^ (8 * k) * (m + 1) := by
    obtain ⟨m, hm⟩ := pow_dvd_pow 2 (Nat.mul_le_mul_left 8 hkn)
    exact ⟨m - 1, by rw [hm]; congr 1; have := Nat.two_pow_pos (8 * n); cases m <;> simp_all⟩
  have hK := Nat.two_pow_pos (8 * k - 1)
  unfold deltaFit at h
  unfold deltaExt
  generalize 2 ^ (8 * n) = N at *
  generalize 2 ^ (8 * k - 1) = K at *
  rw [h2k] at h hm ⊢
  generalize hdl : (w + N - w0) % N = dl at h
  have hback : (w0 + dl) % N = w := by
    rw [← hdl, Nat.add_mod_mod, show w0 + (w + N - w0) = w + N by omega, Nat.add_mod_right, Nat.mod_eq_of_lt hw]
  have hlt : dl < N := hdl ▸ Nat.mod_lt _ (by omega)
  dsimp only at h
  split at h
  · rename_i hpos
    cases h
    exact ⟨by omega, by rwa [if_pos hpos]⟩
  · split at h
    · rename_i hneg
      obtain ⟨y, hy⟩ := Nat.exists_eq_add_of_le (show 2 * K * m ≤ dl by rw [Nat.mul_succ] at hm; omega)
      rw [Nat.mul_succ] at hm
      cases h
      rw [hy, Nat.mul_add_mod, Nat.mod_eq_of_lt (by omega)]
      refine ⟨by omega, ?_⟩
      rw [if_neg (by omega), show y + N - 2 * K = dl by omega, hback]
    · cases h

/-- One more delta at the end of a payload, where all so far are representable. -/
def bdPut (n k w0 : Nat) (a : Option (List Nat)) (w : Nat) : Option (List Nat) :=
  match a, deltaFit n k w0 w with
  | some l, some x => some (l ++ toBytes k x)
  | _, _ => none

theorem bdEncode_eq (n k v : Nat) : bdEncode n k v =
    ((lineWords n v).drop 1).foldl (bdPut n k ((lineWords n v).headD 0)) (some (toBytes n ((lineWords n v).headD 0))) := rfl

theorem foldl_bdPut_none (n k w0 : Nat) (ws : List Nat) : ws.foldl (bdPut n k w0) none = none := by
  induction ws with
  | nil => rfl
  | cons w ws ih => exact ih

/-- The payload is the base and the deltas of the words after it. -/
theorem foldl_bdPut_some {n k w0 : Nat} {ws acc l : List Nat} (h : ws.foldl (bdPut n k w0) (some acc) = some l) :
    ∃ xs, List.Forall₂ (fun w x => deltaFit n k w0 w = some x) ws xs ∧ l = acc ++ xs.flatMap (toBytes k) := by
  induction ws generalizing acc with
  | nil => exact ⟨[], .nil, by simpa using h.symm⟩
  | cons w ws ih =>
    rw [List.foldl_cons] at h
    cases hx : deltaFit n k w0 w with
    | none =>
      simp only [bdPut, hx, foldl_bdPut_none] at h
      cases h
    | some x =>
      simp only [bdPut, hx] at h
      obtain ⟨xs, hxs, rfl⟩ := ih h
      exact ⟨x :: xs, .cons hx hxs, by simp⟩

/-- What a base-delta pattern uses of the 56 bytes, and what it reads there. -/
theorem bdDecode_bdEncode {n k v : Nat} {l : List Nat} (hn : Fills n) (hk : 0 < k) (hkn : k ≤ n) (hv : v < 2 ^ 512)
    (h : bdEncode n k v = some l) : l.length = n + k * (64 / n - 1) ∧ bdDecode n k (padded l) = v := by
  rw [bdEncode_eq] at h
  obtain ⟨xs, hxs, rfl⟩ := foldl_bdPut_some h
  generalize hw0 : (lineWords n v).headD 0 = w0 at *
  rw [headD_lineWords v hn.pos] at hw0
  have hw0lt : w0 < 2 ^ (8 * n) := hw0 ▸ Nat.mod_lt _ (Nat.two_pow_pos _)
  obtain ⟨hlen, hget⟩ := List.forall₂_iff_get.1 hxs
  rw [List.length_drop, length_lineWords] at hlen
  have hbytes : (xs.flatMap (toBytes k)).length = k * xs.length := by
    simp [List.length_flatMap, Nat.mul_comm]
  refine ⟨by rw [List.length_append, length_toBytes, hbytes, hlen], ?_⟩
  obtain ⟨z, hz⟩ := drop_padded (q := xs.flatMap (toBytes k)) (length_toBytes n w0)
  unfold bdDecode
  rw [take_padded (length_toBytes n w0), ofBytes_toBytes_of_lt hw0lt]
  refine hn.foldl_words hv fun i hi => ?_
  rcases i with _ | j
  · rw [if_pos rfl, ← hw0, Nat.mul_zero, pow_zero, Nat.div_one]
  · have hj : j < xs.length := by omega
    have hj' : j < ((lineWords n v).drop 1).length := by rw [List.length_drop, length_lineWords]; omega
    have hfit := hget j hj' hj
    rw [List.get_eq_getElem, List.get_eq_getElem, List.getElem_drop, getElem_lineWords, Nat.add_comm 1 j] at hfit
    obtain ⟨hx, hext⟩ := deltaExt_of_deltaFit hk hkn hw0lt (Nat.mod_lt _ (Nat.two_pow_pos _)) hfit
    rw [if_neg (Nat.succ_ne_zero j), Nat.add_sub_cancel, ← List.drop_drop, hz, take_drop_flatMap (length_toBytes k) xs z hj,
      ofBytes_toBytes_of_lt hx, hext]

/-! ### Frequent values -/

/-- The place of a word in the dictionary. -/
def fvHit (dict : List Nat) (w : Nat) : Option Nat := (List.range 8).find? (fun k => dict.getD k 0 == w)

theorem fvHit_eq_some {dict : List Nat} {w k : Nat} (h : fvHit dict w = some k) : k < 8 ∧ dict.getD k 0 = w := by
  have hmem := List.mem_of_find?_eq_some h
  have hval := List.find?_some h
  exact ⟨List.mem_range.1 hmem, by simpa using hval⟩

/-- What the payload lists of a word in full: its bytes, where the dictionary does not have it. -/
def fvLit (dict : List Nat) (w : Nat) : List Nat := if (fvHit dict w).isSome then [] else toBytes 4 w

/-- The mask's bits, and the indices, of words in a row. -/
def fvMask (dict ws : List Nat) : Nat := Nat.ofDigits 2 (ws.map (fun w => (fvHit dict w).isSome.toNat))
def fvIdx (dict ws : List Nat) : Nat := Nat.ofDigits 8 (ws.filterMap (fvHit dict))
def fvCount (dict ws : List Nat) : Nat := ws.countP (fun w => (fvHit dict w).isSome)

/-- Bytes of the indices of h words. -/
def fvIdxLen (h : Nat) : Nat := (3 * h + 7) / 8

/-- The payload that packs words in a row. -/
def fvPayload (dict ws : List Nat) : List Nat :=
  toBytes 2 (fvMask dict ws) ++ toBytes (fvIdxLen (fvCount dict ws)) (fvIdx dict ws) ++ ws.flatMap (fvLit dict)

theorem fvMask_eq_sum (dict ws : List Nat) :
    fvMask dict ws = ((ws.map (fvHit dict)).mapIdx (fun i x => if x.isSome then 2 ^ i else 0)).sum := by
  rw [fvMask, Nat.ofDigits_eq_sum_mapIdx]
  congr 1
  refine List.ext_getElem (by simp) fun i _ _ => ?_
  simp only [List.getElem_mapIdx, List.getElem_map]
  cases fvHit dict _ <;> simp

theorem fvIdx_eq_sum (dict ws : List Nat) :
    fvIdx dict ws = (((ws.map (fvHit dict)).filterMap id).mapIdx (fun j k => k * 2 ^ (3 * j))).sum := by
  rw [fvIdx, Nat.ofDigits_eq_sum_mapIdx, List.filterMap_map]
  simp only [pow_mul, Function.id_comp]
  rfl

theorem flatMap_zip_map {α β : Type} (f : α → Option β) (g : α × Option β → List Nat) (ws : List α) :
    (ws.zip (ws.map f)).flatMap g = ws.flatMap (fun w => g (w, f w)) := by
  induction ws with
  | nil => rfl
  | cons w ws ih => simp [ih]

/-- R197: a line packs where at least three of its words are frequent. -/
theorem fvEncode_eq (dict : List Nat) (v : Nat) :
    fvEncode dict v = if fvCount dict (lineWords 4 v) < 3 then none else some (fvPayload dict (lineWords 4 v)) := by
  have hcount : (((lineWords 4 v).map (fvHit dict)).filter Option.isSome).length = fvCount dict (lineWords 4 v) := by
    rw [fvCount, List.countP_eq_length_filter, List.filter_map, List.length_map]
    rfl
  unfold fvEncode
  rw [← hcount, fvPayload, fvMask_eq_sum, fvIdx_eq_sum, ← hcount]
  exact if_congr Iff.rfl rfl (congrArg some (congrArg _ (flatMap_zip_map _ _ _)))

/-- One word of an FV payload: the line so far, and how many words were frequent and how many were not. -/
def fvStep (dict : List Nat) (mask idx il : Nat) (p : List Nat) (a : Nat × Nat × Nat) (i : Nat) : Nat × Nat × Nat :=
  if mask.testBit i then (a.1 + dict.getD (idx / 2 ^ (3 * a.2.1) % 8) 0 * 2 ^ (32 * i), a.2.1 + 1, a.2.2)
  else (a.1 + ofBytes ((p.drop (2 + il + 4 * a.2.2)).take 4) * 2 ^ (32 * i), a.2.1, a.2.2 + 1)

theorem fvDecode_eq (dict p : List Nat) : fvDecode dict p =
    (((List.range 16).foldl (fvStep dict (ofBytes (p.take 2)) (ofBytes ((p.drop 2).take (fvIdxLen (popCount 16 (ofBytes (p.take 2))))))
      (fvIdxLen (popCount 16 (ofBytes (p.take 2)))) p) (0, 0, 0)).1,
    2 + fvIdxLen (popCount 16 (ofBytes (p.take 2))) + 4 * (16 - popCount 16 (ofBytes (p.take 2)))) := rfl

theorem testBit_of_ofDigits {mask i t : Nat} {b : Bool} (h : mask / 2 ^ i = b.toNat + 2 * t) :
    mask.testBit i = b ∧ mask / 2 ^ (i + 1) = t := by
  rw [Nat.testBit_eq_decide_div_mod_eq, h, pow_succ, ← Nat.div_div_eq_div_mul, h]
  cases b <;> simp only [Bool.toNat_true, Bool.toNat_false, decide_eq_true_eq, decide_eq_false_iff_not] <;> omega

/-- The rest of the words are read from the rest of the mask, of the indices and of the words in full. -/
theorem foldl_fvStep {dict : List Nat} {mask idx il : Nat} {p z : List Nat} (ws : List Nat) (hws : ∀ w ∈ ws, w < 2 ^ 32) {i a j m : Nat}
    (hmask : mask / 2 ^ i = fvMask dict ws) (hidx : idx / 2 ^ (3 * j) = fvIdx dict ws)
    (hlit : p.drop (2 + il + 4 * m) = ws.flatMap (fvLit dict) ++ z) :
    ((List.range' i ws.length).foldl (fvStep dict mask idx il p) (a, j, m)).1 = a + 2 ^ (32 * i) * Nat.ofDigits (2 ^ 32) ws := by
  induction ws generalizing i a j m with
  | nil => simp
  | cons w ws ih =>
    have hws' : ∀ x ∈ ws, x < 2 ^ 32 := fun x hx => hws x (List.mem_cons_of_mem w hx)
    rw [fvMask, List.map_cons, Nat.ofDigits_cons] at hmask
    obtain ⟨hbit, hmask'⟩ := testBit_of_ofDigits hmask
    rw [List.length_cons, List.range'_succ, List.foldl_cons, fvStep, hbit]
    cases hw : fvHit dict w with
    | some k =>
      obtain ⟨hk, hdict⟩ := fvHit_eq_some hw
      rw [fvIdx, List.filterMap_cons_some hw, Nat.ofDigits_cons] at hidx
      rw [List.flatMap_cons, fvLit, hw] at hlit
      have hidx' : idx / 2 ^ (3 * (j + 1)) = fvIdx dict ws := by
        rw [Nat.mul_succ, pow_add, ← Nat.div_div_eq_div_mul, hidx, fvIdx]
        omega
      simp only [Option.isSome_some, if_true]
      rw [ih hws' hmask' hidx' hlit, hidx, Nat.ofDigits_cons]
      simp only [Nat.add_mul_mod_self_left, Nat.mod_eq_of_lt hk, hdict]
      ring
    | none =>
      rw [fvIdx, List.filterMap_cons_none hw] at hidx
      rw [List.flatMap_cons, fvLit, hw] at hlit
      simp only [Option.isSome_none, Bool.false_eq_true, if_false] at hlit ⊢
      have hlit' : p.drop (2 + il + 4 * (m + 1)) = ws.flatMap (fvLit dict) ++ z := by
        rw [Nat.mul_succ, ← Nat.add_assoc, ← List.drop_drop, hlit, List.append_assoc]
        exact List.drop_left' (length_toBytes 4 w)
      rw [ih hws' hmask' hidx hlit', hlit, List.append_assoc, List.take_left' (length_toBytes 4 w),
        ofBytes_toBytes_of_lt (hws w List.mem_cons_self), Nat.ofDigits_cons]
      ring

/-- The mask has a bit for each frequent word. -/
theorem length_filter_testBit {dict : List Nat} {mask : Nat} (ws : List Nat) {i : Nat} (hmask : mask / 2 ^ i = fvMask dict ws) :
    ((List.range' i ws.length).filter (fun i => mask.testBit i)).length = fvCount dict ws := by
  induction ws generalizing i with
  | nil => rfl
  | cons w ws ih =>
    rw [fvMask, List.map_cons, Nat.ofDigits_cons] at hmask
    obtain ⟨hbit, hmask'⟩ := testBit_of_ofDigits hmask
    rw [List.length_cons, List.range'_succ, List.filter_cons, hbit, fvCount, List.countP_cons, ← fvCount, ← ih hmask']
    cases (fvHit dict w).isSome <;> simp

theorem fvMask_lt (dict ws : List Nat) : fvMask dict ws < 2 ^ ws.length := by
  have h := Nat.ofDigits_lt_base_pow_length (b := 2) (l := ws.map (fun w => (fvHit dict w).isSome.toNat)) (by decide) fun x hx => by
    obtain ⟨w, -, rfl⟩ := List.mem_map.1 hx
    exact Bool.toNat_lt _
  rwa [List.length_map] at h

theorem length_filterMap_fvHit (dict ws : List Nat) : (ws.filterMap (fvHit dict)).length = fvCount dict ws := by
  rw [fvCount, List.length_filterMap_eq_countP]

theorem fvIdx_lt (dict ws : List Nat) : fvIdx dict ws < 2 ^ (8 * fvIdxLen (fvCount dict ws)) := by
  have h := Nat.ofDigits_lt_base_pow_length (b := 8) (l := ws.filterMap (fvHit dict)) (by decide) fun k hk => by
    obtain ⟨w, -, hw⟩ := List.mem_filterMap.1 hk
    exact (fvHit_eq_some hw).1
  rw [length_filterMap_fvHit, show 8 = 2 ^ 3 by rfl, ← pow_mul] at h
  refine h.trans_le (Nat.pow_le_pow_right (by decide) ?_)
  unfold fvIdxLen
  omega

theorem length_flatMap_fvLit (dict ws : List Nat) : (ws.flatMap (fvLit dict)).length + 4 * fvCount dict ws = 4 * ws.length := by
  induction ws with
  | nil => rfl
  | cons w ws ih =>
    rw [List.flatMap_cons, List.length_append, fvCount, List.countP_cons, ← fvCount, fvLit, List.length_cons]
    split <;> simp only [List.length_nil, length_toBytes] <;> omega

/-- Three frequent words of the sixteen make room for their own mask and indices. -/
theorem length_fvPayload {dict ws : List Nat} (h16 : ws.length = 16) (h3 : ¬ fvCount dict ws < 3) :
    (fvPayload dict ws).length = 2 + fvIdxLen (fvCount dict ws) + 4 * (16 - fvCount dict ws) ∧ (fvPayload dict ws).length ≤ 56 := by
  have hlits := length_flatMap_fvLit dict ws
  have hlen : (fvPayload dict ws).length = 2 + fvIdxLen (fvCount dict ws) + (ws.flatMap (fvLit dict)).length := by
    simp [fvPayload, Nat.add_assoc]
  rw [hlen]
  unfold fvIdxLen
  constructor <;> omega

theorem ofDigits_lineWords {v : Nat} (hv : v < 2 ^ 512) : Nat.ofDigits (2 ^ 32) (lineWords 4 v) = v := by
  have h : ∀ m, Nat.ofDigits (2 ^ 32) ((List.range m).map (fun i => v / 2 ^ (32 * i) % 2 ^ 32)) = v % 2 ^ (32 * m) := by
    intro m
    induction m with
    | zero => simp [Nat.mod_one]
    | succ m ih =>
      rw [List.range_succ, List.map_append, Nat.ofDigits_append, ih, Nat.mul_succ, pow_add, Nat.mod_mul]
      simp [pow_mul]
  exact (h 16).trans (Nat.mod_eq_of_lt (by simpa only [Nat.reduceMul] using hv))

/-- What the FV pattern uses of the 56 bytes, and what it reads there. -/
theorem fvDecode_fvEncode {dict : List Nat} {v : Nat} {l : List Nat} (hv : v < 2 ^ 512) (h : fvEncode dict v = some l) :
    l.length ≤ 56 ∧ fvDecode dict (padded l) = (v, l.length) := by
  rw [fvEncode_eq] at h
  obtain ⟨h3, ⟨⟩⟩ := Option.ite_none_left_eq_some.1 h
  have hlen : (lineWords 4 v).length = 16 := length_lineWords 4 v
  obtain ⟨hplen, hfits⟩ := length_fvPayload hlen h3
  have hmask : ofBytes ((padded (fvPayload dict (lineWords 4 v))).take 2) = fvMask dict (lineWords 4 v) := by
    rw [fvPayload, List.append_assoc, take_padded (length_toBytes 2 _)]
    exact ofBytes_toBytes_of_lt ((fvMask_lt _ _).trans_eq (by rw [hlen]))
  have hcount : popCount 16 (fvMask dict (lineWords 4 v)) = fvCount dict (lineWords 4 v) := by
    have := length_filter_testBit (dict := dict) (mask := fvMask dict (lineWords 4 v)) (lineWords 4 v) (i := 0) (by simp)
    rwa [hlen, ← List.range_eq_range'] at this
  rw [fvDecode_eq, hmask, hcount]
  obtain ⟨z, hz⟩ := drop_padded (p := toBytes 2 (fvMask dict (lineWords 4 v)) ++ toBytes (fvIdxLen (fvCount dict (lineWords 4 v))) (fvIdx dict (lineWords 4 v)))
    (q := (lineWords 4 v).flatMap (fvLit dict)) (n := 2 + fvIdxLen (fvCount dict (lineWords 4 v))) (by simp)
  have hidx : ofBytes (((padded (fvPayload dict (lineWords 4 v))).drop 2).take (fvIdxLen (fvCount dict (lineWords 4 v)))) =
      fvIdx dict (lineWords 4 v) := by
    obtain ⟨y, hy⟩ := drop_padded (q := toBytes (fvIdxLen (fvCount dict (lineWords 4 v))) (fvIdx dict (lineWords 4 v)) ++
      (lineWords 4 v).flatMap (fvLit dict)) (length_toBytes 2 (fvMask dict (lineWords 4 v)))
    rw [fvPayload, List.append_assoc, hy, List.append_assoc, List.take_left' (length_toBytes _ _), ofBytes_toBytes_of_lt (fvIdx_lt _ _)]
  have hfold := foldl_fvStep (dict := dict) (p := padded (fvPayload dict (lineWords 4 v))) (z := z)
    (mask := fvMask dict (lineWords 4 v)) (idx := fvIdx dict (lineWords 4 v)) (il := fvIdxLen (fvCount dict (lineWords 4 v)))
    (i := 0) (a := 0) (j := 0) (m := 0) (lineWords 4 v)
    (fun w hw => by
      obtain ⟨i, -, rfl⟩ := List.mem_map.1 hw
      exact Nat.mod_lt _ (Nat.two_pow_pos _))
    (by simp) (by simp) hz
  rw [hlen, ← List.range_eq_range', ofDigits_lineWords hv, Nat.mul_zero, pow_zero, Nat.one_mul, Nat.zero_add] at hfold
  exact ⟨hfits, by rw [hidx, hfold, hplen]⟩

/-! ### The codec -/

/-- Table 8.1: the base-delta patterns have headers of their own, words that fill a line, and payloads within the 56 bytes. -/
theorem bdPatterns_spec : ∀ q ∈ bdPatterns, bdPatterns.find? (fun x => x.1 == q.1) = some q ∧ q.1 ∉ [0x00, 0x01, 0x02, 0x20] ∧
    8 * q.2.1 * (64 / q.2.1) = 512 ∧ 0 < q.2.2 ∧ q.2.2 ≤ q.2.1 ∧ q.2.1 + q.2.2 * (64 / q.2.1 - 1) ≤ 56 := by
  decide

theorem Dev.unpackLine_of_bdPattern (d : Dev) {q : Nat × Nat × Nat} (hq : q ∈ bdPatterns) (p : List Nat) :
    d.unpackLine q.1 p = ifClear p (bdDecode q.2.1 q.2.2 p, q.2.1 + q.2.2 * (64 / q.2.1 - 1)) := by
  obtain ⟨hfind, hhdr, -⟩ := bdPatterns_spec q hq
  simp only [List.mem_cons, List.not_mem_nil, or_false, not_or] at hhdr
  obtain ⟨h0, h1, h2, h3⟩ := hhdr
  simp only [Dev.unpackLine, h0, h1, h2, h3, hfind, if_false]
  rfl

/-- Settles O55: each pattern of Table 8.1 reads its own payload, and the payload's length is what the pattern uses. -/
theorem lineCodecRoundTrip : Obligations.LineCodecRoundTrip := by
  unfold Obligations.LineCodecRoundTrip
  intro d v hdr p hv hpack
  show p.length ≤ 56 ∧ d.unpackLine hdr (padded p) = some v
  unfold Dev.packLine at hpack
  dsimp only at hpack
  split at hpack
  case isTrue hzero =>
    cases hpack
    rw [Nat.mod_eq_of_lt hv] at hzero
    subst hzero
    exact ⟨by decide, ifClear_padded [] 0⟩
  split at hpack
  case isTrue hall =>
    cases hpack
    exact ⟨by simp, Fills.ifClear_repeated (n := 4) rfl hv hall⟩
  split at hpack
  case isTrue hall =>
    cases hpack
    exact ⟨by simp, Fills.ifClear_repeated (n := 8) rfl hv hall⟩
  split at hpack
  case h_1 r hfirst =>
    cases hpack
    obtain ⟨q, hq, hr⟩ := List.exists_of_findSome?_eq_some hfirst
    obtain ⟨l, hl, ⟨⟩⟩ := Option.map_eq_some_iff.1 hr
    obtain ⟨-, -, hfills, hk, hkn, hfit⟩ := bdPatterns_spec q hq
    obtain ⟨hlen, hdecode⟩ := bdDecode_bdEncode hfills hk hkn hv hl
    exact ⟨hlen ▸ hfit, by rw [d.unpackLine_of_bdPattern hq, hdecode, ← hlen, ifClear_padded]⟩
  case h_2 =>
    obtain ⟨l, hl, ⟨⟩⟩ := Option.map_eq_some_iff.1 hpack
    obtain ⟨hlen, hdecode⟩ := fvDecode_fvEncode hv hl
    refine ⟨hlen, ?_⟩
    show ifClear (padded p) (fvDecode d.dict (padded p)) = some v
    rw [hdecode, ifClear_padded]

end Sys2Proof.Machine
end

section
/-! Frame bodies of the pair link (09_pair_link.md R233, R234): what is read of a body is what was put into it. -/

namespace Sys2Proof.Machine

/-! ### Little-endian bytes -/

theorem map_toNat_leOf (n v : Nat) : (leOf n v).map BitVec.toNat = toBytes n v := by
  induction n generalizing v with
  | zero => rfl
  | succ n ih =>
    have h := ih (v / 256)
    simp only [leOf, List.map_map] at h
    simp [leOf, toBytes, h]

@[simp] theorem length_leOf (n v : Nat) : (leOf n v).length = n := by simp [leOf]

theorem leBytes_leOf_append {n v : Nat} (h : v < 2 ^ (8 * n)) (t : List Byte) : leBytes (leOf n v ++ t) 0 n = v := by
  rw [leBytes, List.drop_zero, List.take_left' (length_leOf n v), map_toNat_leOf, ofBytes_toBytes_of_lt h]

theorem ofBytes_of_all_zero {l : List Nat} (h : ∀ x ∈ l, x = 0) : ofBytes l = 0 := by
  induction l with
  | nil => rfl
  | cons b t ih => rw [ofBytes, h b List.mem_cons_self, ih fun x hx => h x (List.mem_cons_of_mem b hx)]

theorem leBytes_of_all_zero {b : List Byte} (h : b.all (· == 0) = true) (off n : Nat) : leBytes b off n = 0 := by
  refine ofBytes_of_all_zero fun x hx => ?_
  obtain ⟨y, hy, rfl⟩ := List.mem_map.1 hx
  have hmem : y ∈ b := List.mem_of_mem_drop (List.mem_of_mem_take hy)
  have hy0 : y = 0 := by simpa using List.all_eq_true.1 h y hmem
  rw [hy0]
  rfl

/-! ### One message -/

/-- What follows the header of a message on the wire: its payload, and behind that of an RTRD the number of R267. -/
def PMsg.wire (m : PMsg) : List Byte := if m.mtype = 0x30 then m.payload ++ leOf 4 m.num else m.payload

theorem PMsg.bytes_eq (m : PMsg) : m.bytes = leOf 2 (m.mtype + m.wire.length * 64) ++ m.wire := rfl

theorem PMsg.length_bytes (m : PMsg) : m.bytes.length = 2 + m.wire.length := by simp [m.bytes_eq]

theorem PMsg.drop_bytes (m : PMsg) : m.bytes.drop 2 = m.wire := by rw [m.bytes_eq, List.drop_left' (length_leOf 2 _)]

/-- A header of 0 starts the padding: no channel carries a type 0. -/
theorem mlenOk_zero (v n : Nat) : mlenOk v 0 n = false := by simp [mlenOk]

theorem parseBody_padding (v f : Nat) {b : List Byte} (h : b.all (· == 0) = true) : parseBody v f b = some [] := by
  cases f with
  | zero => exact if_pos h
  | succ f =>
    rw [parseBody]
    simp only [leBytes_of_all_zero h, h, Nat.zero_mod, or_true, if_true]

/-- A message at the head of a body is read, and then the rest. -/
theorem parseBody_bytes_append {v f : Nat} {m : PMsg} (t : List Byte) (hty : m.mtype < 64) (hok : mlenOk v m.mtype m.wire.length = true)
    (hlen : m.wire.length ≤ 238) :
    parseBody v (f + 1) (m.bytes ++ t) = (parseBody v f t).map (fun l => pmsg m.mtype m.wire :: l) := by
  have hhdr : leBytes (m.bytes ++ t) 0 2 = m.mtype + m.wire.length * 64 := by
    rw [m.bytes_eq, List.append_assoc]
    exact leBytes_leOf_append (by omega) _
  have hne : m.mtype ≠ 0 := fun h0 => by
    rw [h0, mlenOk_zero] at hok
    cases hok
  have htype : (m.mtype + m.wire.length * 64) % 64 = m.mtype := by omega
  have hsize : (m.mtype + m.wire.length * 64) / 64 = m.wire.length := by omega
  have hfits : ¬ ((m.bytes ++ t).length < 2 + m.wire.length) := by
    rw [List.length_append, m.length_bytes]
    omega
  have htake : ((m.bytes ++ t).drop 2).take m.wire.length = m.wire := by
    rw [List.drop_append_of_le_length (by rw [m.length_bytes]; omega), m.drop_bytes, List.take_left' rfl]
  rw [parseBody]
  simp only [hhdr, htype, hsize, htake]
  rw [if_neg (by omega), if_neg (not_or.2 ⟨hfits, by simp [hok]⟩), List.drop_left' m.length_bytes]

/-! ### A body -/

/-- The messages that a channel carries, in the lengths of Tables 9.5 and 10.2. -/
def Carried (v : Nat) (l : List PMsg) : Prop := ∀ m ∈ l, m.mtype < 64 ∧ mlenOk v m.mtype m.wire.length = true

theorem parseBody_flatMap {v f : Nat} {l : List PMsg} (hl : Carried v l) (hlen : (l.flatMap PMsg.bytes).length ≤ 240) (hf : l.length ≤ f)
    (k : Nat) : parseBody v f (l.flatMap PMsg.bytes ++ List.replicate k 0) = some (l.map (fun m => pmsg m.mtype m.wire)) := by
  induction l generalizing f with
  | nil => exact parseBody_padding v f (by simp)
  | cons m l ih =>
    obtain ⟨f, rfl⟩ := Nat.exists_eq_succ_of_ne_zero (Nat.ne_of_gt (Nat.lt_of_lt_of_le (Nat.succ_pos _) hf))
    obtain ⟨hty, hok⟩ := hl m List.mem_cons_self
    rw [List.flatMap_cons, List.length_append, m.length_bytes] at hlen
    rw [List.flatMap_cons, List.append_assoc, parseBody_bytes_append _ hty hok (by omega),
      ih (fun x hx => hl x (List.mem_cons_of_mem m hx)) (by omega) (Nat.le_of_succ_le_succ hf)]
    rfl

/-- Each message has two bytes at least. -/
theorem length_le_length_flatMap_bytes (l : List PMsg) : l.length ≤ (l.flatMap PMsg.bytes).length := by
  induction l with
  | nil => exact le_rfl
  | cons m l ih =>
    rw [List.flatMap_cons, List.length_append, List.length_cons, m.length_bytes]
    omega

/-- Settles O56: each message is read off the head of what is left (`parseBody_bytes_append`), and the zeros behind the last one are the
padding. -/
theorem frameBodyRoundTrip : Obligations.FrameBodyRoundTrip := by
  unfold Obligations.FrameBodyRoundTrip
  intro v l hl hlen
  have hcarried : Carried v l := fun m hm => by
    have h := hl m hm
    rwa [m.length_bytes, Nat.add_sub_cancel_left] at h
  simp only [PMsg.drop_bytes]
  exact parseBody_flatMap hcarried hlen ((length_le_length_flatMap_bytes l).trans hlen) _

end Sys2Proof.Machine
end

section
/-! Locations of DRAM (03_windows.md R80 to R82): the map from a location to its MPA inverts the channel formulas. -/

namespace Sys2Proof.Machine

/-! ### Channels (R80) -/

/-- The fold of a number below 8^n takes no more than its n digits. -/
theorem foldQ_of_lt {n q : Nat} (h : q < 8 ^ n) : foldQ (n + 1) q = foldQ n q := by
  induction n generalizing q with
  | zero =>
    obtain rfl : q = 0 := by simpa using h
    rfl
  | succ n ih =>
    rw [pow_succ'] at h
    exact congrArg (Nat.xor (q % 8)) (ih (Nat.div_lt_of_lt_mul h))

theorem foldQ_lt (n q : Nat) : foldQ n q < 8 := by
  induction n generalizing q with
  | zero => exact Nat.zero_lt_succ 7
  | succ n ih => exact Nat.xor_lt_two_pow (n := 3) (Nat.mod_lt _ (by decide)) (ih _)

/-- The MPA of channel ch and channel-local address a. -/
def mpaAt (ch a : Nat) : Nat := ((a / 256 * 8 + Nat.xor (ch % 8) (foldQ 12 (a / 256))) * 3 + ch / 8) * 256 + a % 256

theorem localOf_mpaAt (ch a : Nat) (hch : ch < 24) : localOf (mpaAt ch a) = a := by
  have hx : Nat.xor (ch % 8) (foldQ 12 (a / 256)) < 8 := Nat.xor_lt_two_pow (n := 3) (Nat.mod_lt _ (by decide)) (foldQ_lt _ _)
  unfold localOf mpaAt
  omega

/-- R80: the low digit of the quotient is the one that makes its fold the channel. -/
theorem chanOf_mpaAt {ch a : Nat} (hch : ch < 24) (ha : a < 2 ^ 41) : chanOf (mpaAt ch a) = ch := by
  have hx : Nat.xor (ch % 8) (foldQ 12 (a / 256)) < 8 := Nat.xor_lt_two_pow (n := 3) (Nat.mod_lt _ (by decide)) (foldQ_lt _ _)
  have hq : mpaAt ch a / 256 / 3 = a / 256 * 8 + Nat.xor (ch % 8) (foldQ 12 (a / 256)) := by unfold mpaAt; omega
  have hthird : mpaAt ch a / 256 % 3 = ch / 8 := by unfold mpaAt; omega
  have hfold : foldQ 12 (a / 256) = foldQ 11 (a / 256) := foldQ_of_lt (by omega)
  rw [hfold] at hx
  have hcancel : Nat.xor (Nat.xor (ch % 8) (foldQ 11 (a / 256))) (foldQ 11 (a / 256)) = ch % 8 := Nat.xor_xor_cancel_right _ _
  have hdigit : foldQ 12 (mpaAt ch a / 256 / 3) = ch % 8 := by
    rw [hq, hfold, foldQ, show (a / 256 * 8 + Nat.xor (ch % 8) (foldQ 11 (a / 256))) / 8 = a / 256 by omega,
      show (a / 256 * 8 + Nat.xor (ch % 8) (foldQ 11 (a / 256))) % 8 = Nat.xor (ch % 8) (foldQ 11 (a / 256)) by omega, hcancel]
  rw [chanOf, hdigit, hthird]
  omega

/-! ### Parity -/

theorem parityOf_zero (n : Nat) : parityOf n 0 = 0 := by
  induction n with
  | zero => rfl
  | succ n ih => simp [parityOf, ih]

theorem parityOf_lt (n v : Nat) : parityOf n v < 2 := by
  cases n with
  | zero => exact Nat.zero_lt_succ 1
  | succ n => exact Nat.mod_lt _ (by decide)

theorem parityOf_xor (n v w : Nat) : parityOf n (v ^^^ w) = (parityOf n v + parityOf n w) % 2 := by
  induction n generalizing v w with
  | zero => rfl
  | succ n ih =>
    have hbit : (v ^^^ w) % 2 = (v % 2 + w % 2) % 2 := by
      rw [← Nat.pow_one 2, Nat.xor_mod_two_pow, Nat.pow_one]
      rcases Nat.mod_two_eq_zero_or_one v with hv | hv <;> rcases Nat.mod_two_eq_zero_or_one w with hw | hw <;> rw [hv, hw] <;> rfl
    have hrest : (v ^^^ w) / 2 = v / 2 ^^^ w / 2 := by
      rw [← Nat.pow_one 2, Nat.xor_div_two_pow]
    rw [parityOf, hbit, hrest, ih, parityOf, parityOf]
    omega

theorem parityOf_two_pow {n k : Nat} (h : k < n) : parityOf n (2 ^ k) = 1 := by
  induction n generalizing k with
  | zero => omega
  | succ n ih =>
    cases k with
    | zero => simp [parityOf, parityOf_zero]
    | succ k =>
      have h1 : 2 ^ (k + 1) % 2 = 0 := by rw [pow_succ, Nat.mul_mod_left]
      have h2 : 2 ^ (k + 1) / 2 = 2 ^ k := by rw [pow_succ, Nat.mul_div_cancel _ (by decide)]
      rw [parityOf, h1, h2, ih (by omega)]

/-! ### The hashed bits (R82) -/

/-- Bits at the places from p on that stand in a mask k in place 13 + k alone, of a mask that the map lock accepts. -/
theorem Dev.mask_testBit {d : Dev} {k b : Nat} (hok : d.maskOk k = true) (hm : d.mask k ≠ 0) :
    (d.mask k).testBit (13 + k) = true ∧ ((d.mask k).testBit b = true → b = 13 + k ∨ 19 ≤ b) := by
  have hlt : d.mask k < 2 ^ 48 := by
    have h1 : d.get (fWIN_BANKHASH_LO_MASK_LO k) < 2 ^ 32 := wordField_lt _ _ _
    have h2 : d.get (fWIN_BANKHASH_HI_MASK_HI k) < 2 ^ 16 := wordField_lt _ _ _
    unfold Dev.mask
    omega
  simp only [Dev.maskOk, Bool.or_eq_true, beq_iff_eq, hm, false_or, Bool.and_eq_true, List.all_eq_true, decide_eq_true_eq] at hok
  obtain ⟨hown, hrest⟩ := hok
  refine ⟨hown, fun hb => ?_⟩
  have hb48 : b < 48 := by
    by_contra hge
    have := Nat.testBit_lt_two_pow (hlt.trans_le (Nat.pow_le_pow_right (by decide) (Nat.not_lt.1 hge)))
    rw [hb] at this
    cases this
  obtain rfl | hrow := hrest b (List.mem_filter.2 ⟨List.mem_range.2 hb48, hb⟩)
  · exact .inl rfl
  · exact .inr (by omega)

/-- The bit in place 13 + k that makes row k of Table 3.6 drive v, given the bits of the address from 19 on. -/
def Dev.hashIn (d : Dev) (k v hi : Nat) : Nat := if d.mask k = 0 then v else (v + parityOf 48 (hi &&& d.mask k)) % 2

theorem Dev.unhash_eq (d : Dev) (k v hi : Nat) : d.unhash k v hi = d.hashIn k v hi * 2 ^ (13 + k) := rfl

theorem Dev.hashIn_lt (d : Dev) (k hi : Nat) {v : Nat} (hv : v < 2) : d.hashIn k v hi < 2 := by
  unfold Dev.hashIn
  split
  · exact hv
  · exact Nat.mod_lt _ (by decide)

/-- Under a mask, an address differs from the one without its hashed bits in the mask's own bit alone. -/
theorem Dev.and_mask_eq {d : Dev} {k hi a : Nat} (hok : d.maskOk k = true) (hm : d.mask k ≠ 0) (hhigh : a / 2 ^ 19 = hi / 2 ^ 19)
    (hclear : hi / 2 ^ (13 + k) % 2 = 0) : a &&& d.mask k = (hi &&& d.mask k) ^^^ (a / 2 ^ (13 + k) % 2 * 2 ^ (13 + k)) := by
  refine Nat.eq_of_testBit_eq fun b => ?_
  obtain ⟨hown, -⟩ := d.mask_testBit (b := b) hok hm
  rw [Nat.testBit_and, Nat.testBit_xor, Nat.testBit_and]
  by_cases hb : b = 13 + k
  · subst hb
    rw [hown, Nat.testBit_eq_decide_div_mod_eq (x := hi), hclear, Nat.testBit_eq_decide_div_mod_eq,
      Nat.testBit_eq_decide_div_mod_eq, Nat.mul_div_cancel _ (Nat.two_pow_pos _), Nat.mod_mod]
    simp
  · have hout : (a / 2 ^ (13 + k) % 2 * 2 ^ (13 + k)).testBit b = false := by
      rcases Nat.mod_two_eq_zero_or_one (a / 2 ^ (13 + k)) with h | h
      · simp [h]
      · rw [h, Nat.one_mul, Nat.testBit_two_pow_of_ne (Ne.symm hb)]
    rw [hout, Bool.xor_false]
    cases hmb : (d.mask k).testBit b with
    | false => simp
    | true =>
      have h19 : 19 ≤ b := ((d.mask_testBit hok hm).2 hmb).resolve_left hb
      have hbit : ∀ y : Nat, y.testBit b = (y / 2 ^ 19).testBit (b - 19) := fun y => by
        rw [Nat.testBit_div_two_pow, Nat.sub_add_cancel h19]
      rw [hbit a, hbit hi, hhigh]

/-- R82: what the controller drives for row k is what the bit in place 13 + k was chosen for. -/
theorem Dev.hashBit_of_hashIn {d : Dev} {k v hi a : Nat} (hk : k < 6) (hok : d.maskOk k = true) (hv : v < 2) (hhigh : a / 2 ^ 19 = hi / 2 ^ 19)
    (hclear : hi / 2 ^ (13 + k) % 2 = 0) (hbit : a / 2 ^ (13 + k) % 2 = d.hashIn k v hi) : d.hashBit k a = v := by
  unfold Dev.hashBit
  by_cases hm : d.mask k = 0
  · rw [if_pos hm, hbit, Dev.hashIn, if_pos hm]
  · have hpar := parityOf_lt 48 (hi &&& d.mask k)
    have hsingle : ∀ u < 2, parityOf 48 (u * 2 ^ (13 + k)) = u := by
      intro u hu
      obtain rfl | rfl : u = 0 ∨ u = 1 := by omega
      · rw [Nat.zero_mul, parityOf_zero]
      · rw [Nat.one_mul, parityOf_two_pow (by omega)]
    rw [if_neg hm, Dev.and_mask_eq hok hm hhigh hclear, parityOf_xor, hbit, hsingle _ (d.hashIn_lt k hi hv), Dev.hashIn, if_neg hm]
    omega

/-! ### Locations -/

/-- The bits of an address from 19 on: the rank, the DIMM and the row of a location. -/
def Loc.high (x : Loc) (rb db : Nat) : Nat := x.rank + x.dimm * 2 ^ rb + x.row * 2 ^ (rb + db)

/-- The fields of the high bits are the location's, and they fill rb + db + wb bits. -/
theorem Loc.high_fields {x : Loc} {rb db wb : Nat} (hrank : x.rank < 2 ^ rb) (hdimm : x.dimm < 2 ^ db) (hrow : x.row < 2 ^ wb) :
    x.high rb db % 2 ^ rb = x.rank ∧ x.high rb db / 2 ^ rb % 2 ^ db = x.dimm ∧ x.high rb db / 2 ^ (rb + db) % 2 ^ wb = x.row ∧
    x.high rb db < 2 ^ (rb + db + wb) := by
  have hsplit : x.high rb db = x.rank + 2 ^ rb * (x.dimm + 2 ^ db * x.row) := by unfold Loc.high; rw [pow_add]; ring
  have hdiv : x.high rb db / 2 ^ rb = x.dimm + 2 ^ db * x.row := by
    rw [hsplit, Nat.add_mul_div_left _ _ (Nat.two_pow_pos rb), Nat.div_eq_of_lt hrank, Nat.zero_add]
  have hdiv' : x.high rb db / 2 ^ (rb + db) = x.row := by
    rw [pow_add, ← Nat.div_div_eq_div_mul, hdiv, Nat.add_mul_div_left _ _ (Nat.two_pow_pos db), Nat.div_eq_of_lt hdimm, Nat.zero_add]
  refine ⟨?_, ?_, ?_, ?_⟩
  · rw [hsplit, Nat.add_mul_mod_self_left, Nat.mod_eq_of_lt hrank]
  · rw [hdiv, Nat.add_mul_mod_self_left, Nat.mod_eq_of_lt hdimm]
  · rw [hdiv', Nat.mod_eq_of_lt hrow]
  · rw [pow_add, Nat.mul_comm]
    exact Nat.lt_mul_of_div_lt (hdiv'.trans_lt hrow) (Nat.two_pow_pos _)

/-- The channel-local address of a location. -/
def Dev.localAt (d : Dev) (x : Loc) : Nat :=
  let hi := x.col * 64 + x.high (d.get fWIN_GEOM_RANKB) (d.get fWIN_GEOM_DIMMB) * 2 ^ 19
  hi + d.hashIn 0 x.sub hi * 2 ^ 13 + d.hashIn 1 (x.bg % 2) hi * 2 ^ 14 + d.hashIn 2 (x.bg / 2 % 2) hi * 2 ^ 15 +
    d.hashIn 3 (x.bg / 4 % 2) hi * 2 ^ 16 + d.hashIn 4 (x.bank % 2) hi * 2 ^ 17 + d.hashIn 5 (x.bank / 2 % 2) hi * 2 ^ 18

theorem Dev.mpaOf_eq (d : Dev) (x : Loc) : d.mpaOf x = mpaAt x.chan (d.localAt x) := by
  have hhi : x.col * 64 + x.rank * 2 ^ 19 + x.dimm * 2 ^ (19 + d.get fWIN_GEOM_RANKB) +
      x.row * 2 ^ (19 + d.get fWIN_GEOM_RANKB + d.get fWIN_GEOM_DIMMB) =
      x.col * 64 + x.high (d.get fWIN_GEOM_RANKB) (d.get fWIN_GEOM_DIMMB) * 2 ^ 19 := by
    unfold Loc.high
    simp only [pow_add]
    ring
  unfold Dev.mpaOf
  dsimp only
  rw [hhi]
  rfl

/-- Settles O57: the channel digits of the MPA are chosen so that the fold is the channel (`chanOf_mpaAt`), and each hashed bit so that its
row drives the location's bit (`Dev.hashBit_of_hashIn`); a mask that the lock accepts has no other bit below the rank. -/
theorem locationRoundTrip : Obligations.LocationRoundTrip := by
  unfold Obligations.LocationRoundTrip
  intro d x hrb hdb hwb _ hok hchan hsub hrank hdimm hbg hbank hrow hcol
  rw [d.mpaOf_eq]
  obtain ⟨hrankF, hdimmF, hrowF, hhighlt⟩ := x.high_fields (db := d.get fWIN_GEOM_DIMMB) hrank hdimm hrow
  replace hhighlt := hhighlt.trans_le (Nat.pow_le_pow_right (by decide) (show _ ≤ 20 by omega))
  unfold Dev.locOf
  generalize ha : d.localAt x = a
  generalize hhi : x.col * 64 + x.high (d.get fWIN_GEOM_RANKB) (d.get fWIN_GEOM_DIMMB) * 2 ^ 19 = hi
  have ha' := ha
  unfold Dev.localAt at ha'
  dsimp only at ha'
  rw [hhi] at ha'
  have hbits := fun k v (hv : v < 2) => d.hashIn_lt k hi hv
  have h0 := hbits 0 x.sub hsub
  have h1 := hbits 1 (x.bg % 2) (by omega)
  have h2 := hbits 2 (x.bg / 2 % 2) (by omega)
  have h3 := hbits 3 (x.bg / 4 % 2) (by omega)
  have h4 := hbits 4 (x.bank % 2) (by omega)
  have h5 := hbits 5 (x.bank / 2 % 2) (by omega)
  have hhigh : a / 2 ^ 19 = hi / 2 ^ 19 := by omega
  have hhigh' : a / 2 ^ 19 = x.high (d.get fWIN_GEOM_RANKB) (d.get fWIN_GEOM_DIMMB) := by omega
  have hlt : a < 2 ^ 41 := by omega
  have hclear : ∀ k < 6, hi / 2 ^ (13 + k) % 2 = 0 := by
    intro k hk
    interval_cases k <;> omega
  have hash := fun k (hk : k < 6) v (hv : v < 2) hbit => Dev.hashBit_of_hashIn (v := v) hk (hok k hk) hv hhigh (hclear k hk) hbit
  rw [localOf_mpaAt _ _ hchan, chanOf_mpaAt hchan hlt]
  dsimp only
  rw [hash 0 (by decide) x.sub hsub (by omega), hash 1 (by decide) (x.bg % 2) (by omega) (by omega),
    hash 2 (by decide) (x.bg / 2 % 2) (by omega) (by omega), hash 3 (by decide) (x.bg / 4 % 2) (by omega) (by omega),
    hash 4 (by decide) (x.bank % 2) (by omega) (by omega), hash 5 (by decide) (x.bank / 2 % 2) (by omega) (by omega)]
  have hcolF : wordField a 6 7 = x.col := by unfold wordField; omega
  have hrowPlace : ∀ n m, a / 2 ^ (19 + n + m) = a / 2 ^ 19 / 2 ^ (n + m) := fun n m => by
    rw [Nat.div_div_eq_div_mul, ← pow_add, Nat.add_assoc]
  have hdimmPlace : ∀ n, a / 2 ^ (19 + n) = a / 2 ^ 19 / 2 ^ n := fun n => by rw [Nat.div_div_eq_div_mul, ← pow_add]
  rw [hcolF, wordField, wordField, wordField, hrowPlace, hdimmPlace, hhigh', hrankF, hdimmF, hrowF,
    show x.bg % 2 + 2 * (x.bg / 2 % 2) + 4 * (x.bg / 4 % 2) = x.bg by omega, show x.bank % 2 + 2 * (x.bank / 2 % 2) = x.bank by omega]

end Sys2Proof.Machine
end

section
/-! Command packets that are only checked (13_commands.md R329, R330). -/

namespace Sys2Proof.Machine

/-! ### The order of checks -/

/-- A packet reaches the command interface with the length that its mailbox names, and need not wait for its turn. -/
structure Looked (d : Dev) (r : CmdRow) (c : Pkt) : Prop where
  heard : d.deaf (r.cls == .q) c = false
  length : trCode c.tr = 0 → c.mailboxLen.toNat = 16 + c.plen.toNat
  turn : d.queues c = false

section
variable {d : Dev} {r : CmdRow} {c : Pkt} {check : Dev → Option (Nat × Nat)} {eff : Nat → Dev → CmdEnd × Dev} (h : Looked d r c)
include h

theorem Looked.length_ok : ¬ (trCode c.tr = 0 ∧ c.mailboxLen.toNat ≠ 16 + c.plen.toNat) := fun x => x.2 (h.length x.1)

/-- A refusal of the checks that all commands share is the reply. -/
theorem Looked.command_of_preCheck {e : Dev} {x : Nat × Nat} (hp : d.preCheck r c = (some x, e)) :
    d.command r c check eff = e.sendReply (e.cmdOf c r.op true []) x.1 (c.flags.toNat % 2) x.2 [] := by
  simp only [Dev.command, Acc.command, h.heard, h.turn, hp, if_neg h.length_ok, Bool.false_eq_true, if_false]
  rfl

/-- Behind them a refusal of the command's chapter is the reply. -/
theorem Looked.command_of_check {x : Nat × Nat} (hp : d.preCheck r c = (none, d)) (hx : check d = some x) :
    d.command r c check eff = d.sendReply (d.cmdOf c r.op true []) x.1 (c.flags.toNat % 2) x.2 [] := by
  simp only [Dev.command, Acc.command, h.heard, h.turn, hp, hx, if_neg h.length_ok, Bool.false_eq_true, if_false, Option.some_or]
  rfl

/-- R329: with CHECK_ONLY the reply follows where every check has passed. -/
theorem Looked.command_of_checkOnly (hflags : c.flags = 1) (hp : d.preCheck r c = (none, d)) (hbasic : r.basic = true → d.basic = false)
    (hx : check d = none) : d.command r c check eff = d.sendReply (d.cmdOf c r.op true []) 0 1 noDetail [] := by
  have hserves : (r.basic && d.basic) = false := by
    cases hb : r.basic
    · rfl
    · simp [hbasic hb]
  have hone : c.flags.toNat = 1 := by rw [hflags]; rfl
  simp only [Dev.command, Acc.command, h.heard, h.turn, hp, hx, hserves, hone, if_neg h.length_ok, Bool.false_eq_true, if_false, if_true,
    Option.none_or]
  rfl

omit h in
/-- With CHECK_ONLY the effect is not looked at. -/
theorem command_eq_of_checkOnly (hflags : c.flags = 1) (eff' : Nat → Dev → CmdEnd × Dev) :
    d.command r c check eff = d.command r c check eff' := by
  have hone : c.flags.toNat = 1 := by rw [hflags]; rfl
  simp only [Dev.command, Acc.command, hone, if_true]

end

/-! ### The flag alone -/

/-- The packet without CHECK_ONLY. -/
def acting (c : Pkt) : Pkt := { c with flags := 0 }

theorem Looked.acting {d : Dev} {r : CmdRow} {c : Pkt} (h : Looked d r c) : Looked d r (acting c) := ⟨h.heard, h.length, h.turn⟩

/-- CHECK_ONLY is a flag that every command may carry: no check sees it. -/
theorem Dev.preCheck_acting (d : Dev) (r : CmdRow) {c : Pkt} (hflags : c.flags = 1) : d.preCheck r (acting c) = d.preCheck r c := by
  have hhdr : d.hdrCheck r (acting c) = d.hdrCheck r c := by
    have h1 : ¬ 1 < c.flags.toNat := by rw [hflags]; decide
    have h0 : ¬ 1 < (acting c).flags.toNat := show ¬ 1 < (0 : BitVec 8).toNat by decide
    simp only [Dev.hdrCheck, if_neg h0, if_neg h1]
    rfl
  unfold Dev.preCheck
  rw [hhdr]
  rfl

/-- Settles O53: a refusal is the same reply with and without the flag but for CHECKED, which is the flag itself; where every check passes,
the reply stands before the effect. -/
theorem checkOnlyChangesNothing : Obligations.CheckOnlyChangesNothing := by
  unfold Obligations.CheckOnlyChangesNothing
  intro d r c check eff eff' hflags hheard hlength hturn
  have hlook : Looked d r c := ⟨hheard, hlength, hturn⟩
  have hact : d.preCheck r (acting c) = d.preCheck r c := d.preCheck_acting r hflags
  have hchecked : c.flags.toNat % 2 = 1 := by rw [hflags]; rfl
  refine ⟨fun x e hp => ⟨?_, ?_⟩, fun hp _ x hx => ⟨?_, ?_⟩, hlook.command_of_checkOnly hflags, command_eq_of_checkOnly hflags eff'⟩
  · rw [hlook.command_of_preCheck hp, hchecked]
  · exact hlook.acting.command_of_preCheck (hact.trans hp)
  · rw [hlook.command_of_check hp hx, hchecked]
  · exact hlook.acting.command_of_check (hact.trans hp) hx

end Sys2Proof.Machine
end


section
/-! What follows a command (16_power_thermal.md R388, R373): with no failed check, no escalation and no sleep request the target P-level
follows the slowest request, and the steps after it leave the registers alone. -/

namespace Sys2Proof.Machine

theorem Dev.get_congr {d e : Dev} (h : e.csr = d.csr) (f : Fld) : e.get f = d.get f := by
  unfold Dev.get Dev.rd
  rw [h]

theorem Dev.rd_congr {d e : Dev} (h : e.csr = d.csr) (k : Nat) : e.rd k = d.rd k := by
  unfold Dev.rd
  rw [h]

theorem Dev.flag_congr {d e : Dev} (h : e.csr = d.csr) (f : Fld) : e.flag f = d.flag f := by
  unfold Dev.flag
  rw [Dev.get_congr h]

theorem Dev.basic_congr {d e : Dev} (h : e.csr = d.csr) : e.basic = d.basic := Dev.flag_congr h _

theorem Dev.pTarget_congr {d e : Dev} (h : e.csr = d.csr) : e.pTarget = d.pTarget := by
  unfold Dev.pTarget
  rw [Dev.get_congr h, Dev.get_congr h, Dev.basic_congr h]

theorem Dev.get_lt (d : Dev) (f : Fld) : d.get f < 2 ^ f.w := wordField_lt _ _ _

/-! ### Nothing prompts more than the P-level -/

/-- No failed check, no escalation and no sleep request wait to follow the command. -/
structure Dev.Unprompted (d : Dev) : Prop where
  halt : d.sec.haltPend = none
  fatal : d.flt.escFatal = false
  basic : d.flt.escBasic = false
  sleep : d.pwr.sleepReq = none

/-- The target P-level stands at the slowest request (R388). -/
structure Dev.OnTarget (d : Dev) : Prop where
  basicReq : d.flag fPWR_PSTS_BASIC_REQ = d.basic
  target : d.get fPWR_PSTS_TARGET = d.pTarget

theorem Dev.unprompted_of_calm {d : Dev} (h : d.calm = true) : d.Unprompted := by
  simp only [Dev.calm, Bool.and_eq_true, Bool.not_eq_true', Option.isNone_iff_eq_none] at h
  obtain ⟨⟨⟨⟨⟨⟨⟨hhalt, hfatal⟩, hbasic⟩, -⟩, hsleep⟩, -⟩, -⟩, -⟩ := h
  exact ⟨hhalt, hfatal, hbasic, hsleep⟩

theorem Dev.onTarget_of_calm {d : Dev} (h : d.calm = true) : d.OnTarget := by
  simp only [Dev.calm, Bool.and_eq_true, beq_iff_eq] at h
  obtain ⟨⟨⟨-, hreq⟩, htarget⟩, -⟩ := h
  exact ⟨hreq, htarget⟩

theorem Dev.OnTarget.congr {d e : Dev} (h : d.OnTarget) (hc : e.csr = d.csr) : e.OnTarget :=
  ⟨by rw [Dev.flag_congr hc, Dev.basic_congr hc, h.basicReq], by rw [Dev.get_congr hc, Dev.pTarget_congr hc, h.target]⟩

/-! ### The steps of Dev.settle -/

theorem Dev.emit_ports_csr {α : Type} (c : α → Dev → Bool) (o : α → Dev → Out) (l : List α) (d : Dev) :
    (l.foldl (fun d x => if c x d then d.emit (o x d) else d) d).csr = d.csr ∧
    (l.foldl (fun d x => if c x d then d.emit (o x d) else d) d).pwr = d.pwr := by
  induction l generalizing d with
  | nil => exact ⟨rfl, rfl⟩
  | cons x l ih =>
    rw [List.foldl_cons]
    obtain ⟨hcsr, hpwr⟩ := ih (if c x d then d.emit (o x d) else d)
    rw [hcsr, hpwr]
    cases c x d
    · exact ⟨rfl, rfl⟩
    · exact ⟨rfl, rfl⟩

theorem Dev.ackConflicts_csr (d : Dev) : d.ackConflicts.csr = d.csr := (Dev.emit_ports_csr _ _ _ _).1

theorem Dev.ackConflicts_pwr (d : Dev) : d.ackConflicts.pwr = d.pwr := (Dev.emit_ports_csr _ _ _ _).2

theorem Dev.retarget_sleepReq (d : Dev) : d.retarget.pwr.sleepReq = d.pwr.sleepReq := by
  unfold Dev.retarget
  dsimp only
  split
  · rfl
  · split
    · rfl
    · rfl

theorem Dev.retarget_of_onTarget {d : Dev} (h : d.OnTarget) : d.retarget = d := if_pos ⟨h.basicReq, h.target⟩

theorem Dev.trySleep_of_none {d : Dev} (h : d.pwr.sleepReq = none) : d.trySleep = d := by
  unfold Dev.trySleep
  rw [h]

theorem Dev.flashSync_csr (d : Dev) : d.flashSync.csr = d.csr := by
  unfold Dev.flashSync
  split
  · rfl
  · rfl

theorem Dev.settle_of_unprompted {d : Dev} (h : d.Unprompted) : d.settle = d.ackConflicts.retarget.flashSync := by
  have hs : d.ackConflicts.retarget.pwr.sleepReq = none := by rw [Dev.retarget_sleepReq, Dev.ackConflicts_pwr, h.sleep]
  unfold Dev.settle
  rw [h.halt]
  simp only [h.fatal, h.basic, Bool.false_eq_true, if_false, Dev.trySleep_of_none hs]

/-- Of a device that nothing prompts and whose P-level is at its target no register changes after the command. -/
theorem Dev.settle_csr {d : Dev} (h : d.Unprompted) (ht : d.OnTarget) : d.settle.csr = d.csr := by
  rw [Dev.settle_of_unprompted h, Dev.flashSync_csr, Dev.retarget_of_onTarget (ht.congr d.ackConflicts_csr), Dev.ackConflicts_csr]

/-! ### The target (R388) -/

theorem Dev.pTarget_lt (d : Dev) : d.pTarget < 2 ^ 2 := by
  have hfw := d.get_lt fPWR_PSTS_FW_REQ
  have hth := d.get_lt fPWR_PSTS_THERM_REQ
  unfold Dev.pTarget
  refine Nat.max_lt.2 ⟨Nat.max_lt.2 ⟨hfw, hth⟩, ?_⟩
  split
  · decide
  · decide

theorem Dev.vfNext_onTarget (d : Dev) :
    d.vfNext.get fPWR_PSTS_TARGET = d.get fPWR_PSTS_TARGET ∧ d.vfNext.flag fPWR_PSTS_BASIC_REQ = d.flag fPWR_PSTS_BASIC_REQ :=
  ⟨Dev.get_set_of_disjoint _ _ (by decide), Dev.flag_set_of_disjoint _ _ (by decide)⟩

theorem Dev.retarget_target (d : Dev) :
    d.retarget.get fPWR_PSTS_TARGET = d.pTarget ∧ d.retarget.flag fPWR_PSTS_BASIC_REQ = d.basic := by
  unfold Dev.retarget
  dsimp only
  have hset : ((d.setFlag fPWR_PSTS_BASIC_REQ d.basic).set fPWR_PSTS_TARGET d.pTarget).get fPWR_PSTS_TARGET = d.pTarget := by
    rw [Dev.get_set_self]
    exact Nat.mod_eq_of_lt d.pTarget_lt
  have hreq : ((d.setFlag fPWR_PSTS_BASIC_REQ d.basic).set fPWR_PSTS_TARGET d.pTarget).flag fPWR_PSTS_BASIC_REQ = d.basic := by
    rw [Dev.flag_set_of_disjoint _ _ (by decide), Dev.flag_setFlag_self _ _ _ rfl]
  split
  case isTrue h => exact ⟨h.2, h.1⟩
  case isFalse =>
    split
    · obtain ⟨ht, hb⟩ := Dev.vfNext_onTarget ((d.setFlag fPWR_PSTS_BASIC_REQ d.basic).set fPWR_PSTS_TARGET d.pTarget)
      exact ⟨ht.trans hset, hb.trans hreq⟩
    · exact ⟨hset, hreq⟩

theorem Dev.settle_target {d : Dev} (h : d.Unprompted) :
    d.settle.get fPWR_PSTS_TARGET = d.pTarget ∧ d.settle.flag fPWR_PSTS_BASIC_REQ = d.basic := by
  rw [Dev.settle_of_unprompted h, Dev.get_congr (Dev.flashSync_csr _), Dev.flag_congr (Dev.flashSync_csr _)]
  obtain ⟨ht, hb⟩ := Dev.retarget_target d.ackConflicts
  exact ⟨ht.trans (Dev.pTarget_congr d.ackConflicts_csr), hb.trans (Dev.basic_congr d.ackConflicts_csr)⟩

theorem State.after_of_calm (s : State) {d : Dev} (h : d.calm = true) : s.after d = { s with dev := d } := by
  unfold State.after
  rw [d.settle_of_calm h]

/-- Settles O47: of the steps that follow a command only the retargeting has anything to do, and nothing after it touches the target. -/
theorem settleOfCalm : Obligations.SettleOfCalm := by
  unfold Obligations.SettleOfCalm
  exact ⟨Dev.settle_of_calm, fun s _ h => s.after_of_calm h, fun d hhalt hfatal hbasic hsleep => Dev.settle_target ⟨hhalt, hfatal, hbasic, hsleep⟩⟩

end Sys2Proof.Machine
end


section
/-! What is dropped of a sparse table reads as its default: the registers that a COLD reset takes to their reset values (19_pins_electrical.md
R442, R445), and the DRAM that initialization zeroes (06_memory_protection.md R143). -/

namespace Sys2Proof.Machine

theorem tget_tdrop_of_true {α : Type} (d : Nat → α) {p : Nat → Bool} (t : Tbl α) {k : Nat} (h : p k = true) : tget d (tdrop p t) k = d k := by
  induction t with
  | nil => rfl
  | cons e t ih =>
    by_cases he : p e.1 = true
    · simpa [tdrop, he] using ih
    · have hk : k ≠ e.1 := fun hk => he (hk ▸ h)
      simpa [tdrop, he, tget, hk] using ih

theorem tget_tdrop_of_false {α : Type} (d : Nat → α) {p : Nat → Bool} (t : Tbl α) {k : Nat} (h : p k = false) :
    tget d (tdrop p t) k = tget d t k := by
  induction t with
  | nil => rfl
  | cons e t ih =>
    by_cases he : p e.1 = true
    · have hk : k ≠ e.1 := fun hk => by simp [← hk, h] at he
      simpa [tdrop, he, tget, hk] using ih
    · by_cases hk : k = e.1
      · simp [tdrop, he, tget, hk]
      · simpa [tdrop, he, tget, hk] using ih

/-! ### COLD reset -/

/-- The registers of a COLD reset before the status registers are written. -/
def coldCsr (d : Dev) : Tbl Nat := tdrop (fun k => (domAt k).1 != .aon && !false) d.csr

theorem Dev.rd_coldState (d : Dev) (o : Otp) {k : Nat} (hled : k ≠ rTHM_LEDGER) (hpair : k ≠ rPAIR_STS) :
    (d.coldState o (fun _ => false)).rd k = tget resetWord (coldCsr d) k := by
  unfold Dev.coldState Dev.setFlag
  rw [Dev.rd_set_of_ne _ _ _ hpair, Dev.rd_set_of_ne _ _ _ hled, Dev.rd_set_of_ne _ _ _ hled]
  unfold Dev.rd coldCsr
  rfl

/-- The end of a COLD reset, on the state that it leaves: the pins, and the status of resets. -/
def Dev.coldStatus (x : Dev) (cause : Nat) : Dev :=
  (Dev.set { x with pin := { x.pin with sysRst := true, thermtrip := false } } fTOP_RST_STS_CAUSE cause).set fTOP_RST_STS_WARMS 0

theorem Dev.coldReset_eq (d : Dev) (o : Otp) :
    d.coldReset o = (d.coldState o (fun _ => false)).coldStatus (if d.pin.thermtrip then 5 else 1) := by
  unfold Dev.coldReset Dev.coldStatus
  rfl

theorem Dev.rd_coldStatus (x : Dev) (cause : Nat) {k : Nat} (hrst : k ≠ rTOP_RST_STS) : (x.coldStatus cause).rd k = x.rd k := by
  unfold Dev.coldStatus
  rw [Dev.rd_set_of_ne _ _ _ hrst, Dev.rd_set_of_ne _ _ _ hrst]
  rfl

theorem Dev.get_coldStatus_cause (x : Dev) (cause : Nat) : (x.coldStatus cause).get fTOP_RST_STS_CAUSE = cause % 2 ^ 3 := by
  unfold Dev.coldStatus
  rw [Dev.get_set_of_disjoint _ _ (by decide), Dev.get_set_self]
  rfl

theorem Dev.get_coldStatus_warms (x : Dev) (cause : Nat) : (x.coldStatus cause).get fTOP_RST_STS_WARMS = 0 := by
  unfold Dev.coldStatus
  rw [Dev.get_set_self]
  rfl

/-- What a COLD reset empties or keeps apart from registers. -/
def Dev.ColdEmpty (x d : Dev) : Prop := x.flash = d.flash ∧ x.home.trans = [] ∧ x.sec.keys = [] ∧ x.job.jobs = []

theorem Dev.ColdEmpty.set {x d : Dev} (h : x.ColdEmpty d) (f : Fld) (v : Nat) : (x.set f v).ColdEmpty d := h

theorem Dev.ColdEmpty.coldStatus {x d : Dev} (h : x.ColdEmpty d) (cause : Nat) : (x.coldStatus cause).ColdEmpty d := h

theorem Dev.coldState_coldEmpty (d : Dev) (o : Otp) (keep : Nat → Bool) : (d.coldState o keep).ColdEmpty d := by
  unfold Dev.coldState Dev.setFlag
  refine ((Dev.ColdEmpty.set ?_ _ _).set _ _).set _ _
  exact ⟨by rfl, by rfl, by rfl, by rfl⟩

/-- Settles O37: the reset drops every register outside the AON domain, and writes the three status registers. -/
theorem coldResetLeaves : Obligations.ColdResetLeaves := by
  unfold Obligations.ColdResetLeaves
  intro d o
  rw [d.coldReset_eq o]
  obtain ⟨hflash, htrans, hkeys, hjobs⟩ := (d.coldState_coldEmpty o (fun _ => false)).coldStatus (if d.pin.thermtrip then 5 else 1)
  refine ⟨fun k hk hrst hled hpair => ?_, fun k hk hrst hled hpair => ?_, hflash, htrans, hkeys, hjobs, ?_, Dev.get_coldStatus_warms _ _⟩
  · rw [Dev.rd_coldStatus _ _ hrst, d.rd_coldState o hled hpair]
    exact tget_tdrop_of_true _ _ (by simpa using hk)
  · rw [Dev.rd_coldStatus _ _ hrst, d.rd_coldState o hled hpair]
    exact tget_tdrop_of_false _ _ (by simp [hk])
  · rw [Dev.get_coldStatus_cause]
    split
    · rfl
    · rfl

/-! ### Initialization -/

theorem Mem.byte_zero_of_mem (m : Mem) {lo hi k : Nat} (h : keyIn lo hi k = true) : (m.apply (.zero lo hi)).byte k = 0 :=
  tget_tdrop_of_true _ m h

theorem Mem.byte_zero_of_not_mem (m : Mem) {lo hi k : Nat} (h : keyIn lo hi k = false) : (m.apply (.zero lo hi)).byte k = m.byte k :=
  tget_tdrop_of_false _ m h

theorem Acc.settleQuar_of_quarCalm (n : Nat) {a : Acc} (h : a.dev.quarCalm = true) : a.settleQuar n = a := by
  cases n with
  | zero => rfl
  | succ n =>
    have hnew : a.dev.sec.quar.filter (fun q => q.new) = [] := by simpa [Dev.quarCalm] using h
    rw [Acc.settleQuar, hnew]

theorem State.afterAcc_dram_of_quarCalm (s : State) {a : Acc} (h : a.dev.quarCalm = true) : (s.afterAcc a).dram = s.dram.commit a.log.reverse := by
  unfold State.afterAcc
  rw [Acc.settleQuar_of_quarCalm 8 h]
  rfl

/-- What initialization leaves of the device. -/
def Dev.initialized (d : Dev) : Dev := { d with mch := { d.mch with initDone := true }, pin := { d.pin with initSince := true } }

theorem exec_initializationComplete_eq {s : State} (htrained : s.dev.mch.trained = true) (hdone : s.dev.mch.initDone = false)
    (hboot : s.dev.mgt.bootKind = 0) :
    exec .initializationComplete s = .next (s.afterAcc ((s.acc.zero 0 (s.dev.fitted / 64)).upd Dev.initialized)) := by
  have h : (s.dev.mch.trained && !s.dev.mch.initDone && s.dev.mgt.bootKind == 0) = true := by rw [htrained, hdone, hboot]; rfl
  exact congrArg (fun a => Host.Outcome.next (s.afterAcc a)) (Acc.when_of_true s.acc _ _ h)

theorem dram_of_exec_initializationComplete {s t : State} (htrained : s.dev.mch.trained = true) (hdone : s.dev.mch.initDone = false)
    (hboot : s.dev.mgt.bootKind = 0) (hcalm : s.dev.quarCalm = true) (ht : exec .initializationComplete s = .next t) :
    t.dram = s.dram.apply (.zero 0 (s.dev.fitted / 64)) := by
  rw [exec_initializationComplete_eq htrained hdone hboot] at ht
  cases ht
  exact s.afterAcc_dram_of_quarCalm (a := (s.acc.zero 0 (s.dev.fitted / 64)).upd Dev.initialized) hcalm

/-- Settles O49: the command's one store drops every fitted byte. -/
theorem initializationZeroes : Obligations.InitializationZeroes := by
  unfold Obligations.InitializationZeroes
  intro s t htrained hdone hboot hcalm ht
  rw [dram_of_exec_initializationComplete htrained hdone hboot hcalm ht]
  exact ⟨fun k hk => s.dram.byte_zero_of_mem hk, fun k hk => s.dram.byte_zero_of_not_mem hk⟩

end Sys2Proof.Machine
end


section
/-! The frame of registers (95_what_each_step_holds.md): what a command of a calm block may change beyond its own registers. -/

namespace Sys2Proof.Machine

/-- e is d after an effect that writes registers of P only and prompts nothing to follow. -/
structure Dev.Confined (P : Nat → Prop) (d e : Dev) : Prop where
  rd : ∀ k, ¬ P k → e.rd k = d.rd k
  sec : e.sec = d.sec
  flt : e.flt = d.flt
  pwr : e.pwr = d.pwr

namespace Dev.Confined

variable {P : Nat → Prop} {d e f : Dev}

theorem refl (P : Nat → Prop) (d : Dev) : Confined P d d := ⟨fun _ _ => rfl, rfl, rfl, rfl⟩

theorem of_csr_eq (hcsr : e.csr = d.csr) (hsec : e.sec = d.sec) (hflt : e.flt = d.flt) (hpwr : e.pwr = d.pwr) : Confined P d e :=
  ⟨fun k _ => Dev.rd_congr hcsr k, hsec, hflt, hpwr⟩

theorem trans (h : Confined P d e) (g : Confined P e f) : Confined P d f :=
  ⟨fun k hk => (g.rd k hk).trans (h.rd k hk), g.sec.trans h.sec, g.flt.trans h.flt, g.pwr.trans h.pwr⟩

theorem set (h : Confined P d e) (f : Fld) (v : Nat) (hf : P f.reg) : Confined P d (e.set f v) :=
  h.trans ⟨fun _ hk => e.rd_set_of_ne f v (fun hkf => hk (hkf ▸ hf)), rfl, rfl, rfl⟩

theorem setFlag (h : Confined P d e) (f : Fld) (b : Bool) (hf : P f.reg) : Confined P d (e.setFlag f b) := h.set f b.toNat hf

theorem setBit (h : Confined P d e) (f : Fld) (i : Nat) (b : Bool) (hf : P f.reg) : Confined P d (e.setBit f i b) := h.set f _ hf

theorem emit (h : Confined P d e) (o : Out) : Confined P d (e.emit o) := h.trans ⟨fun _ _ => rfl, rfl, rfl, rfl⟩

theorem updPort (h : Confined P d e) (p : Nat) (g : PortS → PortS) : Confined P d (e.updPort p g) := h.trans ⟨fun _ _ => rfl, rfl, rfl, rfl⟩

theorem updSlt (h : Confined P d e) (n : Nat) (g : SlotS → SlotS) : Confined P d (e.updSlt n g) := h.trans ⟨fun _ _ => rfl, rfl, rfl, rfl⟩

theorem forgetRepairs (h : Confined P d e) (n : Nat) (all : Bool) : Confined P d (e.forgetRepairs n all) := h.trans ⟨fun _ _ => rfl, rfl, rfl, rfl⟩

theorem withJob (h : Confined P d e) (j : JobS) : Confined P d { e with job := j } := h.trans ⟨fun _ _ => rfl, rfl, rfl, rfl⟩

theorem withMir (h : Confined P d e) (m : MirS) : Confined P d { e with mir := m } := h.trans ⟨fun _ _ => rfl, rfl, rfl, rfl⟩

theorem when {g : Dev → Dev} (c : Bool) (h : Confined P d (g d)) : Confined P d (d.when c g) := by
  unfold Dev.when
  split
  · exact h
  · exact refl P d

/-- A calm device is prompted to nothing by a confined effect. -/
theorem unprompted (h : Confined P d e) (hcalm : d.calm = true) : e.Unprompted := by
  obtain ⟨hhalt, hfatal, hbasic, hsleep⟩ := Dev.unprompted_of_calm hcalm
  exact ⟨by rw [h.sec, hhalt], by rw [h.flt, hfatal], by rw [h.flt, hbasic], by rw [h.pwr, hsleep]⟩

theorem get_eq (h : Confined P d e) (f : Fld) (hf : ¬ P f.reg) : e.get f = d.get f := by
  unfold Dev.get
  rw [h.rd _ hf]

theorem onTarget (h : Confined P d e) (hcalm : d.calm = true) (hpsts : ¬ P rPWR_PSTS) (hsts : ¬ P rFLT_STS) : e.OnTarget := by
  obtain ⟨hreq, htarget⟩ := Dev.onTarget_of_calm hcalm
  have hbasic : e.basic = d.basic := by
    unfold Dev.basic Dev.flag
    rw [h.get_eq fFLT_STS_BASIC hsts]
  constructor
  · unfold Dev.flag
    rw [h.get_eq fPWR_PSTS_BASIC_REQ hpsts, hbasic]
    exact hreq
  · unfold Dev.pTarget
    rw [h.get_eq fPWR_PSTS_TARGET hpsts, h.get_eq fPWR_PSTS_FW_REQ hpsts, h.get_eq fPWR_PSTS_THERM_REQ hpsts, hbasic]
    exact htarget

end Dev.Confined

/-- A command whose effect on a calm block is confined to registers other than those of the P-levels and of basic service leaves the rest. -/
theorem rd_of_run_of_confined {P : Nat → Prop} {s t : State} {f : Dev → Dev} (hcalm : s.dev.calm = true) (h : Dev.Confined P s.dev (f s.dev))
    (hpsts : ¬ P rPWR_PSTS) (hsts : ¬ P rFLT_STS) (ht : run f s = .next t) (k : Nat) (hk : ¬ P k) : t.dev.rd k = s.dev.rd k := by
  rw [run_eq] at ht
  cases ht
  exact (Dev.rd_congr (Dev.settle_csr (h.unprompted hcalm) (h.onTarget hcalm hpsts hsts)) k).trans (h.rd k hk)

/-- A command that leaves the registers outside P of a calm block as they were. -/
def KeepsRegs (P : Nat → Prop) (c : State → Result) : Prop :=
  ∀ s t : State, s.dev.calm = true → c s = .next t → ∀ k, ¬ P k → t.dev.rd k = s.dev.rd k

theorem keepsRegs_run {P : Nat → Prop} {f : Dev → Dev} (hpsts : ¬ P rPWR_PSTS) (hsts : ¬ P rFLT_STS) (h : ∀ d, Dev.Confined P d (f d)) :
    KeepsRegs P (run f) :=
  fun s _ hcalm ht k hk => rd_of_run_of_confined hcalm (h s.dev) hpsts hsts ht k hk

/-! ### Ports, pins and DRAM maintenance -/

/-- No register. -/
def NoReg (_ : Nat) : Prop := False

theorem keepsRegs_linkL1Entry (p : Head) : KeepsRegs NoReg (execLinkL1Entry p) :=
  keepsRegs_run id id fun d => .when _ ((Dev.Confined.refl _ d).updPort _ _)

theorem keepsRegs_viral (p : Head) : KeepsRegs NoReg (execViral p) :=
  keepsRegs_run id id fun d => .when _ ((Dev.Confined.refl _ d).updPort _ _)

theorem Dev.rouse_of_awake {d : Dev} (h : d.get fPWR_SLEEP_STS_STATE = 0) (k : Nat) : d.rouse k = d := by
  simp [Dev.rouse, h]

theorem rd_of_execHeadPerstDeassert {s t : State} {p : Head} (hcalm : s.dev.calm = true) (hawake : s.dev.get fPWR_SLEEP_STS_STATE = 0)
    (ht : execHeadPerstDeassert p s = .next t) (k : Nat) : t.dev.rd k = s.dev.rd k := by
  refine rd_of_run_of_confined (P := NoReg) hcalm ?_ id id ht k id
  refine .when _ ?_
  rw [Dev.rouse_of_awake (d := s.dev.updPort p.toNat _) hawake 2]
  exact (Dev.Confined.refl _ _).updPort _ _

theorem keepsRegs_offerTimeout (h : Head) (e : Extent) : KeepsRegs NoReg (execOfferTimeout h e) :=
  keepsRegs_run id id fun d => (Dev.Confined.refl _ d).updPort _ _

theorem Dev.confined_offerResponse (d : Dev) (h : Nat) (exts : List Extent) : Dev.Confined NoReg d (d.offerResponse h exts) := by
  unfold Dev.offerResponse
  split
  · split
    · exact ((Confined.refl _ d).updPort _ _).emit _
    · exact (Confined.refl _ d).emit _
  · exact (Confined.refl _ d).emit _

theorem keepsRegs_addDynamicCapacityResponse (h : Head) (exts : List Extent) : KeepsRegs NoReg (execAddDynamicCapacityResponse h exts) :=
  keepsRegs_run id id fun d => .when _ (d.confined_offerResponse h.toNat exts)

theorem keepsRegs_zqCalibration (ch : Chan) (r : BitVec 3) : KeepsRegs NoReg (execZqCalibration ch r) :=
  keepsRegs_run id id fun d => .when _ ((Dev.Confined.refl _ d).emit _)

theorem keepsRegs_dqsOscillatorTracking (ch : Chan) (r : BitVec 3) : KeepsRegs NoReg (execDqsOscillatorTracking ch r) :=
  keepsRegs_run id id fun d => .when _ ((Dev.Confined.refl _ d).emit _)

theorem keepsRegs_sysRstRelease : KeepsRegs NoReg execSysRstRelease :=
  keepsRegs_run id id fun _ => .when _ (.of_csr_eq rfl rfl rfl rfl)

theorem keepsRegs_pwrMainEnRise : KeepsRegs NoReg execPwrMainEnRise :=
  keepsRegs_run id id fun _ => .when _ (.of_csr_eq rfl rfl rfl rfl)

theorem keepsRegs_mainPwrgdRise : KeepsRegs NoReg execMainPwrgdRise :=
  keepsRegs_run id id fun _ => .when _ (.of_csr_eq rfl rfl rfl rfl)

theorem keepsRegs_spdmHeartbeatTimeout (n : Nat) : KeepsRegs NoReg (execSpdmHeartbeatTimeout n) :=
  keepsRegs_run id id fun _ => .of_csr_eq rfl rfl rfl rfl

/-! ### Slots -/

/-- The registers of slot n: its status, and the common register of slots that are on. -/
def SlotReg (n k : Nat) : Prop := k = rSLT_STS n ∨ k = rSLT_ON

theorem not_slotReg_of_lt (n : Nat) {k : Nat} (h : k < 0x400000) : ¬ SlotReg n k := by
  rintro (rfl | rfl)
  · simp only [rSLT_STS] at h
    omega
  · exact absurd h (by decide)

theorem keepsRegs_slot {n : Nat} {f : Dev → Dev} (h : ∀ d, Dev.Confined (SlotReg n) d (f d)) : KeepsRegs (SlotReg n) (run f) :=
  keepsRegs_run (not_slotReg_of_lt n (by decide)) (not_slotReg_of_lt n (by decide)) h

theorem Dev.confined_setSlt (d : Dev) (n st : Nat) : Dev.Confined (SlotReg n) d (d.setSlt n st) :=
  (((Confined.refl _ d).set _ _ (.inl rfl)).setFlag _ _ (.inl rfl)).setBit _ _ _ (.inr rfl)

theorem Dev.confined_sltDrop (d : Dev) (n st cause : Nat) : Dev.Confined (SlotReg n) d (d.sltDrop n st cause) := by
  unfold Dev.sltDrop
  exact (((d.confined_setSlt n st).set (fSLT_STS_CAUSE n) cause (.inl rfl)).updSlt n _).forgetRepairs n false

theorem keepsRegs_gateRiseCheck (n : SlotId) : KeepsRegs (SlotReg n.val) (execGateRiseCheck n true) := by
  refine keepsRegs_slot fun d => .when _ ?_
  rw [if_pos rfl]
  exact (Dev.Confined.refl _ d).updSlt _ _

theorem keepsRegs_rampVoutReached (n : SlotId) : KeepsRegs (SlotReg n.val) (execRampVoutReached n) :=
  keepsRegs_slot fun d => .when _ ((Dev.Confined.refl _ d).updSlt _ _)

theorem keepsRegs_fullGateOn (n : SlotId) : KeepsRegs (SlotReg n.val) (execFullGateOn n) :=
  keepsRegs_slot fun d => .when _ ((d.confined_setSlt n.val slOn).updSlt _ _)

theorem keepsRegs_gateFallStart (n : SlotId) : KeepsRegs (SlotReg n.val) (execGateFallStart n) :=
  keepsRegs_slot fun d => .when _ ((Dev.Confined.refl _ d).updSlt _ _)

theorem keepsRegs_slotOffComplete (n : SlotId) : KeepsRegs (SlotReg n.val) (execSlotOffComplete n) :=
  keepsRegs_slot fun d => .when _ (d.confined_sltDrop n.val slOff _)

/-! ### Doorbell pages -/

/-- The registers of the doorbell page of queue q of head h (R29). -/
def PageReg (h q k : Nat) : Prop := 0x2000000 + h * 0x100000 + q * 0x1000 ≤ k ∧ k < 0x2000000 + h * 0x100000 + q * 0x1000 + 0x1000

theorem not_pageReg_of_lt (h q : Nat) {k : Nat} (hk : k < 0x2000000) : ¬ PageReg h q k := by
  unfold PageReg
  omega

theorem keepsRegs_page {h q : Nat} {f : Dev → Dev} (hc : ∀ d, Dev.Confined (PageReg h q) d (f d)) : KeepsRegs (PageReg h q) (run f) :=
  keepsRegs_run (not_pageReg_of_lt h q (by decide)) (not_pageReg_of_lt h q (by decide)) hc

section
variable (h q : Nat)

theorem pageReg_tail : PageReg h q (rJDB_TAIL h q) := by simp only [PageReg, rJDB_TAIL]; omega
theorem pageReg_cqhead : PageReg h q (rJDB_CQHEAD h q) := by simp only [PageReg, rJDB_CQHEAD]; omega
theorem pageReg_ctl : PageReg h q (rJDB_CTL h q) := by simp only [PageReg, rJDB_CTL]; omega
theorem pageReg_sts : PageReg h q (rJDB_STS h q) := by simp only [PageReg, rJDB_STS]; omega
theorem pageReg_haltinfo : PageReg h q (rJDB_HALTINFO h q) := by simp only [PageReg, rJDB_HALTINFO]; omega

end

namespace Dev.Confined

variable {d e : Dev} {h q : Nat}

theorem setSts (hc : Confined (PageReg h q) d e) (st : Nat) : Confined (PageReg h q) d (e.set (fJDB_STS_STATE h q) st) :=
  hc.set _ _ (pageReg_sts h q)

theorem queueHalt (hc : Confined (PageReg h q) d e) (cause dpa slot : Nat) (irq : Bool) :
    Confined (PageReg h q) d (e.queueHalt h q cause dpa slot irq) := by
  have hset := (((hc.setSts qHalted).set (fJDB_STS_CAUSE h q) cause (pageReg_sts h q)).set (fJDB_HALTINFO_DPA h q) dpa
    (pageReg_haltinfo h q)).set (fJDB_HALTINFO_SLOT h q) slot (pageReg_haltinfo h q)
  unfold Dev.queueHalt
  dsimp only
  split
  · exact hset.emit _
  · exact hset

theorem badDoorbell (hc : Confined (PageReg h q) d e) : Confined (PageReg h q) d (e.badDoorbell h q) := by
  unfold Dev.badDoorbell
  split
  · exact (hc.withJob _).queueHalt 4 0 0 true
  · exact hc

theorem queueSettle (hc : Confined (PageReg h q) d e) : Confined (PageReg h q) d (e.queueSettle h q) := by
  unfold Dev.queueSettle
  split
  · exact hc
  · dsimp only
    split
    · exact (hc.withJob _).setSts qDisabled
    · split
      · exact (hc.withJob _).queueHalt _ _ _ false
      · exact hc.withJob _

end Dev.Confined

section
variable (d : Dev) (h q n : Nat)

theorem Dev.confined_tailWrite : Dev.Confined (PageReg h q) d (d.tailWrite h q n) := by
  unfold Dev.tailWrite
  split
  · exact (Confined.refl _ d).badDoorbell
  · exact ((Confined.refl _ d).set _ n (pageReg_tail h q)).withJob _

theorem Dev.confined_cqheadWrite : Dev.Confined (PageReg h q) d (d.cqheadWrite h q n) := by
  unfold Dev.cqheadWrite
  split
  · exact (Confined.refl _ d).badDoorbell
  · exact ((Confined.refl _ d).set _ n (pageReg_cqhead h q)).withJob _

theorem Dev.confined_queueResume : Dev.Confined (PageReg h q) d (d.queueResume h q) := by
  unfold Dev.queueResume
  split
  · exact ((Confined.refl _ d).setSts qActive).set _ 0 (pageReg_sts h q)
  · exact .refl _ d

theorem Dev.confined_fetchGone : Dev.Confined (PageReg h q) d (d.fetchGone h q) := .of_csr_eq rfl rfl rfl rfl

theorem Dev.confined_queueDisable : Dev.Confined (PageReg h q) d (d.queueDisable h q) := by
  unfold Dev.queueDisable
  dsimp only
  split
  · exact (((d.confined_fetchGone h q).setFlag _ false (pageReg_ctl h q)).setSts qDraining).queueSettle
  · exact .refl _ d

end

section
variable (h : Head) (q : BitVec 4)

theorem keepsRegs_jdbTailWrite (v : BitVec 32) : KeepsRegs (PageReg h.toNat q.toNat) (execJdbTailWrite h q v) :=
  keepsRegs_page fun d => .when _ (d.confined_tailWrite _ _ _)

theorem keepsRegs_jdbCqheadWrite (v : BitVec 32) : KeepsRegs (PageReg h.toNat q.toNat) (execJdbCqheadWrite h q v) :=
  keepsRegs_page fun d => .when _ (d.confined_cqheadWrite _ _ _)

theorem keepsRegs_queueResume : KeepsRegs (PageReg h.toNat q.toNat) (execQueueResume h q) :=
  keepsRegs_page fun d => .when _ (d.confined_queueResume _ _)

theorem keepsRegs_queueDisable : KeepsRegs (PageReg h.toNat q.toNat) (execQueueDisable h q) :=
  keepsRegs_page fun d => .when _ (d.confined_queueDisable _ _)

end

/-! ### Fences and claims -/

/-- The register r alone. -/
def OnlyReg (r k : Nat) : Prop := k = r

theorem onlyReg_self (r : Nat) : OnlyReg r r := rfl

theorem keepsRegs_one {r : Nat} {f : Dev → Dev} (hr : rPWR_PSTS < r) (h : ∀ d, Dev.Confined (OnlyReg r) d (f d)) : KeepsRegs (OnlyReg r) (run f) :=
  keepsRegs_run hr.ne (Nat.ne_of_lt (lt_trans (by decide) hr)) h

theorem lt_mirwFence (w : Nat) : rPWR_PSTS < rPAIR_MIRW_FENCE w := by simp only [rPWR_PSTS, rPAIR_MIRW_FENCE]; omega
theorem lt_pmuClaim (u : Nat) : rPWR_PSTS < rPMU_U_CLAIM u := by simp only [rPWR_PSTS, rPMU_U_CLAIM]; omega
theorem lt_ringClaim (n : Nat) : rPWR_PSTS < rRING_CLAIM n := by simp only [rPWR_PSTS, rRING_CLAIM]; omega

theorem Dev.confined_fenceRead (d : Dev) (h w : Nat) : Dev.Confined (OnlyReg (rPAIR_MIRW_FENCE w)) d (d.fenceRead h w) := by
  unfold Dev.fenceRead
  dsimp only
  split
  · exact ((Confined.refl _ d).set (fPAIR_MIRW_FENCE_RESULT w) 3 (onlyReg_self _)).emit _
  · split
    · exact ((Confined.refl _ d).set (fPAIR_MIRW_FENCE_RESULT w) 1 (onlyReg_self _)).emit _
    · split
      · exact (Confined.refl _ d).withMir _
      · exact ((Confined.refl _ d).set (fPAIR_MIRW_FENCE_RESULT w) 0 (onlyReg_self _)).emit _

theorem keepsRegs_pairMirFenceRead (h : Head) (w : WinId) : KeepsRegs (OnlyReg (rPAIR_MIRW_FENCE w.toNat)) (execPairMirFenceRead h w) :=
  keepsRegs_one (lt_mirwFence w.toNat) fun d => .when _ (d.confined_fenceRead h.toNat w.toNat)

theorem keepsRegs_fenceTimeout (w : WinId) : KeepsRegs (OnlyReg (rPAIR_MIRW_FENCE w.toNat)) (execFenceTimeout w) := by
  refine keepsRegs_one (lt_mirwFence w.toNat) fun d => ?_
  split
  · exact (((Dev.Confined.refl _ d).withMir _).set (fPAIR_MIRW_FENCE_RESULT w.toNat) 2 (onlyReg_self _)).emit _
  · exact .refl _ d

theorem Dev.confined_firmwareClaim (d : Dev) (f : Fld) (v : Nat) :
    Dev.Confined (OnlyReg f.reg) d (d.writeBy .firmware f.reg (fun d => d.claimWrite .firmware f v)) := by
  change Confined _ d (if d.unitOff f.reg = true then d else d.set f v)
  split
  · exact .refl _ d
  · exact (Confined.refl _ d).set f v (onlyReg_self _)

theorem keepsRegs_pmuClaimWrite (u : Fin 44) (v : BitVec 6) : KeepsRegs (OnlyReg (rPMU_U_CLAIM u.val)) (execPmuClaimWrite .firmware u v) :=
  keepsRegs_one (lt_pmuClaim u.val) fun d => d.confined_firmwareClaim (fPMU_U_CLAIM_HOLDER u.val) v.toNat

theorem keepsRegs_ringClaimWrite (n : BitVec 3) (v : BitVec 6) : KeepsRegs (OnlyReg (rRING_CLAIM n.toNat)) (execRingClaimWrite .firmware n v) :=
  keepsRegs_one (lt_ringClaim n.toNat) fun d => d.confined_firmwareClaim (fRING_CLAIM_HOLDER n.toNat) v.toNat

/-- Settles O48: each command's effect is confined to its own registers, and nothing follows it that writes others. -/
theorem registerFrame : Obligations.RegisterFrame := by
  unfold Obligations.RegisterFrame
  intro s t c hcalm ht
  refine ⟨?_, ?_, ?_, ?_, ?_, ?_⟩
  · rintro (⟨p, rfl | rfl | ⟨rfl, hawake⟩⟩ | ⟨h, e, rfl⟩ | ⟨h, l, rfl⟩ | ⟨ch, r, rfl | rfl⟩ | rfl | rfl | rfl | ⟨n, rfl⟩) k
    · exact keepsRegs_linkL1Entry p s t hcalm ht k id
    · exact keepsRegs_viral p s t hcalm ht k id
    · exact rd_of_execHeadPerstDeassert hcalm hawake ht k
    · exact keepsRegs_offerTimeout h e s t hcalm ht k id
    · exact keepsRegs_addDynamicCapacityResponse h l s t hcalm ht k id
    · exact keepsRegs_zqCalibration ch r s t hcalm ht k id
    · exact keepsRegs_dqsOscillatorTracking ch r s t hcalm ht k id
    · exact keepsRegs_sysRstRelease s t hcalm ht k id
    · exact keepsRegs_pwrMainEnRise s t hcalm ht k id
    · exact keepsRegs_mainPwrgdRise s t hcalm ht k id
    · exact keepsRegs_spdmHeartbeatTimeout n s t hcalm ht k id
  · rintro n (rfl | rfl | rfl | rfl | rfl) k hsts hon
    · exact keepsRegs_gateRiseCheck n s t hcalm ht k (not_or.2 ⟨hsts, hon⟩)
    · exact keepsRegs_rampVoutReached n s t hcalm ht k (not_or.2 ⟨hsts, hon⟩)
    · exact keepsRegs_fullGateOn n s t hcalm ht k (not_or.2 ⟨hsts, hon⟩)
    · exact keepsRegs_gateFallStart n s t hcalm ht k (not_or.2 ⟨hsts, hon⟩)
    · exact keepsRegs_slotOffComplete n s t hcalm ht k (not_or.2 ⟨hsts, hon⟩)
  · rintro h q (⟨v, rfl | rfl⟩ | rfl | rfl) k hk
    · exact keepsRegs_jdbTailWrite h q v s t hcalm ht k hk
    · exact keepsRegs_jdbCqheadWrite h q v s t hcalm ht k hk
    · exact keepsRegs_queueResume h q s t hcalm ht k hk
    · exact keepsRegs_queueDisable h q s t hcalm ht k hk
  · rintro w (rfl | ⟨h, rfl⟩) k hk
    · exact keepsRegs_fenceTimeout w s t hcalm ht k hk
    · exact keepsRegs_pairMirFenceRead h w s t hcalm ht k hk
  · rintro u v rfl k hk
    exact keepsRegs_pmuClaimWrite u v s t hcalm ht k hk
  · rintro n v rfl k hk
    exact keepsRegs_ringClaimWrite n v s t hcalm ht k hk

end Sys2Proof.Machine
end


section
/-! Register accesses by heads and the patrol of complement pairs (00_scope.md R6 to R9, 15_faults.md R378), and the state of reset. -/

namespace Sys2Proof.Machine

/-! ### A head's write (R6, R8, R28) -/

theorem Dev.headWrite_of_allowed {d : Dev} {h off size : Nat} {a : RegAt} (v : Nat) (w : Writer) (hc : d.cfgOnly h = false)
    (ha : accessOk off size = some a) (hm : d.mayWrite h a = (true, d)) (hu : d.unitOff a.key = false) :
    d.headWrite h off size v w = d.regAct w a (v % 2 ^ (8 * size) <<< (8 * (off - a.key))) ((2 ^ (8 * size) - 1) <<< (8 * (off - a.key))) := by
  simp [Dev.headWrite, hc, ha, hm, hu, wordShift]

/-! ### The patrol (R378) -/

theorem Dev.patrolPair_of_pairUse {d : Dev} {k kc : Nat} (h : d.pairUse k kc = (true, d)) : d.patrolPair k kc = d := by
  simp [Dev.patrolPair, h]

theorem foldl_eq_self {α β : Type} {f : β → α → β} {b : β} (l : List α) (h : ∀ x ∈ l, f b x = b) : l.foldl f b = b := by
  induction l with
  | nil => rfl
  | cons x l ih =>
    rw [List.foldl_cons, h x List.mem_cons_self]
    exact ih fun y hy => h y (List.mem_cons_of_mem x hy)

theorem Dev.patrol_of_pairUse {d : Dev}
    (h : ∀ p ∈ pairMap, ∀ i < p.n, d.pairUse (p.reg + i * p.s) (p.regC + i * p.s) = (true, d)) : d.patrol = d :=
  foldl_eq_self _ fun p hp => foldl_eq_self _ fun i hi => Dev.patrolPair_of_pairUse (h p hp i (List.mem_range.1 hi))

theorem exec_complementPatrol_eq (s : State) : exec .complementPatrol s = .next (s.after s.dev.patrol) := rfl

/-- Settles O39: the write of a head that may write acts on the register, and a patrol whose uses all hold changes nothing. -/
theorem registerCommandsComplete : Obligations.RegisterCommandsComplete := by
  unfold Obligations.RegisterCommandsComplete
  refine ⟨fun s h off size v a hc ha hm hu => ?_, fun s h off size v hc ha => ?_, fun s h off size hc hr =>
    exec_illegalCsrRead_of_readIllegal hc hr, fun s h => ?_, exec_complementPatrol_eq⟩
  · rw [exec_registerWrite_eq, Dev.headWrite_of_allowed _ _ hc ha hm hu]
  · rw [exec_registerWrite_eq, Dev.headWrite_of_not_accessOk _ _ hc ha]
  · rw [exec_complementPatrol_eq, Dev.patrol_of_pairUse h]

/-! ### The state of reset -/

theorem reset_calm : State.reset.dev.calm = true := by decide

/-- Settles O43: reset lists no register and no byte of DRAM. -/
theorem resetHasInvariant : Obligations.ResetHasInvariant := by
  unfold Obligations.ResetHasInvariant
  exact ⟨⟨rfl, Nat.zero_le _, Nat.zero_le _⟩, rfl, reset_calm, rfl, fun _ => rfl, fun _ => rfl⟩

end Sys2Proof.Machine
end


section
/-! One tick of an idle block (04_coherence.md R104, 18_telemetry.md R420 to R422, 13_commands.md R333): what passes changes cycle counts,
monitor counters, their overflow bits and the management timer, and a unit that counts advances by the cycles of its clock. -/

namespace Sys2Proof.Machine

/-! ### What passes -/

/-- The registers of monitor unit u that events and cycles change. -/
def UnitReg (u k : Nat) : Prop := k = rPMU_U_CYC u ∨ k = rPMU_U_CTL u ∨ ∃ c < 8, k = rPMU_U_CNT u c

/-- The registers that a tick changes but for the management timer. -/
def TickReg (k : Nat) : Prop := (∃ u < 44, UnitReg u k) ∨ ∃ sl < 16, k = rHOME_SLICE_RQFULL sl

theorem UnitReg.bounds {u k : Nat} (h : UnitReg u k) : 0x1001000 + u * 0x200 ≤ k ∧ k < 0x1001000 + u * 0x200 + 0x200 := by
  obtain rfl | rfl | ⟨c, hc, rfl⟩ := h
  · simp only [rPMU_U_CYC]; omega
  · simp only [rPMU_U_CTL]; omega
  · simp only [rPMU_U_CNT]; omega

theorem TickReg.bounds {k : Nat} (h : TickReg k) : (0x600000 ≤ k ∧ k < 0x601000) ∨ (0x1001000 ≤ k ∧ k < 0x1006800) := by
  obtain ⟨u, hu, h⟩ | ⟨sl, hsl, rfl⟩ := h
  · have := h.bounds
    omega
  · simp only [rHOME_SLICE_RQFULL]; omega

/-- e is d after something passed: only registers of P and the messages sent differ. -/
def Dev.PassesOn (P : Nat → Prop) (d e : Dev) : Prop := (∃ c o, e = { d with csr := c, out := o }) ∧ ∀ k, ¬ P k → e.rd k = d.rd k

namespace Dev.PassesOn

variable {P Q : Nat → Prop} {d e f : Dev}

theorem refl (P : Nat → Prop) (d : Dev) : PassesOn P d d := ⟨⟨d.csr, d.out, rfl⟩, fun _ _ => rfl⟩

theorem trans (h : PassesOn P d e) (g : PassesOn P e f) : PassesOn P d f := by
  obtain ⟨⟨c, o, rfl⟩, h⟩ := h
  obtain ⟨⟨c', o', rfl⟩, g⟩ := g
  exact ⟨⟨c', o', rfl⟩, fun k hk => (g k hk).trans (h k hk)⟩

theorem mono (h : PassesOn P d e) (hPQ : ∀ k, P k → Q k) : PassesOn Q d e := ⟨h.1, fun k hk => h.2 k (fun hP => hk (hPQ k hP))⟩

theorem foldl {α : Type} {g : Dev → α → Dev} (l : List α) (h : ∀ x ∈ l, ∀ d, PassesOn P d (g d x)) (d : Dev) : PassesOn P d (l.foldl g d) := by
  induction l generalizing d with
  | nil => exact refl P d
  | cons x l ih => exact (h x List.mem_cons_self d).trans (ih (fun y hy => h y (List.mem_cons_of_mem x hy)) (g d x))

theorem get_eq (h : PassesOn P d e) (f : Fld) (hf : ¬ P f.reg) : e.get f = d.get f := by
  unfold Dev.get
  rw [h.2 _ hf]

theorem set (d : Dev) (f : Fld) (v : Nat) (hf : P f.reg) : PassesOn P d (d.set f v) :=
  ⟨⟨_, d.out, rfl⟩, fun _ hk => d.rd_set_of_ne f v (fun hkf => hk (hkf ▸ hf))⟩

end Dev.PassesOn

theorem Dev.Counts.passesOn {d e : Dev} {u : Nat} (h : d.Counts u e) : Dev.PassesOn (UnitReg u) d e :=
  ⟨h.1, fun k hk => h.2 k (fun hctl => hk (.inr (.inl hctl))) (fun c hc hcnt => hk (.inr (.inr ⟨c, hc, hcnt⟩)))⟩

/-! ### A monitor unit's cycles (R420, R421) -/

theorem Dev.pmuCycle_passesOn (d : Dev) {u : Nat} (hu : u < 44) : Dev.PassesOn (UnitReg u) d (d.pmuCycle u) := by
  unfold Dev.pmuCycle
  split
  · exact (PassesOn.set d _ _ (.inl rfl)).trans (Dev.counts_unitEvents _ u _ hu).passesOn
  · exact .refl _ d

theorem Dev.get_pmuCycle_cyc {d : Dev} {u : Nat} (hu : u < 44) (hon : d.pmuOn u = true) :
    (d.pmuCycle u).get (fPMU_U_CYC_COUNT u) = (d.get (fPMU_U_CYC_COUNT u) + d.unitCycles u) % 2 ^ 64 := by
  have hcounts := Dev.counts_unitEvents (d.bump (fPMU_U_CYC_COUNT u) (d.unitCycles u)) u (d.unitCycles u) hu
  have hcyc : ∀ e : Dev, e.get (fPMU_U_CYC_COUNT u) = wordField (e.rd (rPMU_U_CYC u)) 0 64 := fun _ => rfl
  unfold Dev.pmuCycle
  rw [if_pos hon, hcyc, hcounts.2 _ (by simp only [rPMU_U_CYC, rPMU_U_CTL]; omega) (fun k hk => by simp only [rPMU_U_CYC, rPMU_U_CNT]; omega),
    ← hcyc, Dev.get_bump_self]
  rfl

/-- Whether a unit counts depends on its own control register and on registers that do not pass. -/
theorem Dev.PassesOn.pmuOn_eq {d e : Dev} {P : Nat → Prop} (h : Dev.PassesOn P d e) (u : Nat) (hctl : ¬ P (rPMU_U_CTL u)) (hgctl : ¬ P rPMU_GCTL)
    (hgsts : ¬ P rPMU_GSTS) : e.pmuOn u = d.pmuOn u := by
  unfold Dev.pmuOn Dev.bit Dev.flag
  rw [h.get_eq fPMU_GCTL_RUN hgctl, h.get_eq (fPMU_U_CTL_EN u) hctl, h.get_eq fPMU_GSTS_ON hgsts]

theorem not_tickReg {k : Nat} (h : k < 0x600000 ∨ (0x601000 ≤ k ∧ k < 0x1001000) ∨ 0x1006800 ≤ k) : ¬ TickReg k := by
  intro hk
  have := hk.bounds
  omega

theorem Dev.PassesOn.laneCycles_eq {d e : Dev} (h : Dev.PassesOn TickReg d e) (b : Nat) : e.laneCycles b = d.laneCycles b := by
  have hrate : ∀ p, e.get (fPDV_PORT_STS_RATE p) = d.get (fPDV_PORT_STS_RATE p) := fun p =>
    h.get_eq _ (not_tickReg (.inr (.inr (by simp only [fPDV_PORT_STS_RATE, rPDV_PORT_STS]; omega))))
  obtain ⟨⟨c, o, he⟩, -⟩ := h
  have hport : ∀ p, e.portOf p = d.portOf p := fun p => by rw [he]; rfl
  unfold Dev.laneCycles
  simp only [hrate, hport]

/-- The clocks of the units do not change as a tick passes. -/
theorem Dev.PassesOn.unitCycles_eq {d e : Dev} (h : Dev.PassesOn TickReg d e) {u : Nat} (hu : u < 44) : e.unitCycles u = d.unitCycles u := by
  have hsleep := h.get_eq fPWR_SLEEP_STS_STATE (not_tickReg (.inl (by decide)))
  have hcur := h.get_eq fPWR_PSTS_CUR (not_tickReg (.inl (by decide)))
  have hrate := h.get_eq (fMCH_CFG_RATE (4 * (u - 24))) (not_tickReg (.inr (.inl (by simp only [fMCH_CFG_RATE, rMCH_CFG]; omega))))
  have hnow : e.now = d.now := by
    obtain ⟨⟨c, o, he⟩, -⟩ := h
    rw [he]
  unfold Dev.unitCycles Dev.coreCycles
  rw [hsleep, hcur, hrate, hnow, h.laneCycles_eq u]

/-! ### The cycles of all units -/

/-- The units below n have passed. -/
theorem Dev.pmuCycles_passesOn (d : Dev) {n : Nat} (hn : n ≤ 44) :
    Dev.PassesOn (fun k => ∃ u < n, UnitReg u k) d ((List.range n).foldl Dev.pmuCycle d) :=
  .foldl _ (fun u hu e => (e.pmuCycle_passesOn (lt_of_lt_of_le (List.mem_range.1 hu) hn)).mono fun _ hk => ⟨u, List.mem_range.1 hu, hk⟩) d

theorem not_unitReg_of_ge {n u k : Nat} (hun : n ≤ u) (hk : UnitReg u k) : ¬ ∃ v < n, UnitReg v k := by
  rintro ⟨v, hv, hvk⟩
  have h1 := hk.bounds
  have h2 := hvk.bounds
  omega

theorem not_unitReg_of_lt {n k : Nat} (hk : k < 0x1001000) : ¬ ∃ v < n, UnitReg v k := by
  rintro ⟨v, -, hvk⟩
  have := hvk.bounds
  omega

theorem Dev.get_pmuCycles_cyc (d : Dev) {n : Nat} (hn : n ≤ 44) : ∀ u < n, d.pmuOn u = true →
    ((List.range n).foldl Dev.pmuCycle d).get (fPMU_U_CYC_COUNT u) = (d.get (fPMU_U_CYC_COUNT u) + d.unitCycles u) % 2 ^ 64 := by
  induction n with
  | zero => exact fun u hu => absurd hu (Nat.not_lt_zero u)
  | succ n ih =>
    intro u hu hon
    have hpass := d.pmuCycles_passesOn (n := n) (by omega)
    rw [List.range_succ, List.foldl_append]
    generalize hd : (List.range n).foldl Dev.pmuCycle d = e at hpass ih
    change (e.pmuCycle n).get _ = _
    rcases Nat.lt_succ_iff_lt_or_eq.1 hu with hlt | rfl
    · rw [← ih (by omega) u hlt hon]
      exact (e.pmuCycle_passesOn (by omega)).get_eq _ (fun hk => not_unitReg_of_ge (n := n) (le_refl n) hk ⟨u, hlt, .inl rfl⟩)
    · have honE : e.pmuOn u = true := by
        rw [hpass.pmuOn_eq u (not_unitReg_of_ge (le_refl u) (.inr (.inl rfl))) (not_unitReg_of_lt (by decide)) (not_unitReg_of_lt (by decide)), hon]
      rw [Dev.get_pmuCycle_cyc (by omega) honE, hpass.get_eq _ (not_unitReg_of_ge (le_refl u) (.inl rfl)),
        (hpass.mono fun k ⟨v, hv, hk⟩ => .inl ⟨v, by omega, hk⟩).unitCycles_eq (by omega)]

/-! ### A tick -/

/-- What the units and the slices count in one tick. -/
def Dev.counted44 (d : Dev) : Dev := (List.range 16).foldl Dev.rqFull ((List.range 44).foldl Dev.pmuCycle d)

theorem Dev.rqFull_passesOn (d : Dev) (sl : Nat) : Dev.PassesOn (· = rHOME_SLICE_RQFULL sl) d (d.rqFull sl) := by
  unfold Dev.rqFull
  split
  · exact .set d (fHOME_SLICE_RQFULL_CYCLES sl) _ rfl
  · exact .refl _ d

theorem Dev.rqFulls_passesOn (d : Dev) : Dev.PassesOn (fun k => ∃ sl < 16, k = rHOME_SLICE_RQFULL sl) d ((List.range 16).foldl Dev.rqFull d) :=
  .foldl _ (fun sl hsl e => (e.rqFull_passesOn sl).mono fun _ hk => ⟨sl, List.mem_range.1 hsl, hk⟩) d

theorem Dev.counted44_passesOn (d : Dev) : Dev.PassesOn TickReg d d.counted44 :=
  ((d.pmuCycles_passesOn (le_refl 44)).mono fun _ hk => .inl hk).trans ((Dev.rqFulls_passesOn _).mono fun _ hk => .inr hk)

theorem Dev.get_counted44_cyc (d : Dev) {u : Nat} (hu : u < 44) (hon : d.pmuOn u = true) :
    d.counted44.get (fPMU_U_CYC_COUNT u) = (d.get (fPMU_U_CYC_COUNT u) + d.unitCycles u) % 2 ^ 64 := by
  rw [← d.get_pmuCycles_cyc (le_refl 44) u hu hon]
  refine (Dev.rqFulls_passesOn _).get_eq _ ?_
  rintro ⟨sl, hsl, hk⟩
  simp only [fPMU_U_CYC_COUNT, rPMU_U_CYC, rHOME_SLICE_RQFULL] at hk
  omega

/-- The end of a tick: the slots are over, and device time has passed. -/
def Dev.timePassed (d : Dev) (now : Nat) : Dev := { d.slotsOver with now := now }

theorem Dev.tick_eq (d : Dev) : d.tick = (d.counted44.timePassed (d.counted44.now + 40)).timerMs.beat := by
  unfold Dev.tick Dev.timePassed Dev.counted44
  rfl

theorem Dev.beat_keeps (d : Dev) : d.beat.csr = d.csr ∧ d.beat.now = d.now ∧ d.beat.mgt = d.mgt := by
  unfold Dev.beat
  split
  · exact ⟨rfl, rfl, rfl⟩
  · exact ⟨rfl, rfl, rfl⟩

theorem Dev.timerMs_keeps (d : Dev) : d.timerMs.now = d.now ∧ d.timerMs.mgt = d.mgt ∧ ∀ k, k ≠ rPWR_TIMER → d.timerMs.rd k = d.rd k := by
  unfold Dev.timerMs
  split
  · exact ⟨rfl, rfl, fun k hk => d.rd_set_of_ne _ _ hk⟩
  · exact ⟨rfl, rfl, fun _ _ => rfl⟩

theorem Dev.get_timerMs (d : Dev) : d.timerMs.get fPWR_TIMER_MS =
    if d.now % 1000000 = 0 ∧ 1 < d.get fPWR_TIMER_MS then d.get fPWR_TIMER_MS - 1 else d.get fPWR_TIMER_MS := by
  unfold Dev.timerMs
  split
  · rw [Dev.get_set_self]
    exact Nat.mod_eq_of_lt (lt_of_le_of_lt (Nat.sub_le _ _) (d.get_lt fPWR_TIMER_MS))
  · rfl

section
variable (d : Dev)

theorem Dev.tick_csr : d.tick.csr = (d.counted44.timePassed (d.counted44.now + 40)).timerMs.csr := by
  rw [d.tick_eq, (Dev.beat_keeps _).1]

theorem Dev.timePassed_csr (now : Nat) : (d.timePassed now).csr = d.csr := rfl

theorem Dev.timePassed_mgt (now : Nat) : (d.timePassed now).mgt = d.mgt := rfl

theorem Dev.counted44_now : d.counted44.now = d.now := by
  obtain ⟨⟨c, o, h⟩, -⟩ := d.counted44_passesOn
  rw [h]

theorem Dev.counted44_mgt : d.counted44.mgt = d.mgt := by
  obtain ⟨⟨c, o, h⟩, -⟩ := d.counted44_passesOn
  rw [h]

theorem Dev.tick_now : d.tick.now = d.now + 40 := by
  rw [d.tick_eq, (Dev.beat_keeps _).2.1, (Dev.timerMs_keeps _).1, Dev.timePassed, d.counted44_now]

theorem Dev.tick_mgt : d.tick.mgt = d.mgt := by
  rw [d.tick_eq, (Dev.beat_keeps _).2.2, (Dev.timerMs_keeps _).2.1, Dev.timePassed_mgt, d.counted44_mgt]

theorem Dev.rd_tick {k : Nat} (hk : ¬ TickReg k) (ht : k ≠ rPWR_TIMER) : d.tick.rd k = d.rd k := by
  rw [Dev.rd_congr d.tick_csr, (Dev.timerMs_keeps _).2.2 k ht, Dev.rd_congr (Dev.timePassed_csr _ _), d.counted44_passesOn.2 k hk]

theorem Dev.get_tick_timer : d.tick.get fPWR_TIMER_MS =
    if (d.now + 40) % 1000000 = 0 ∧ 1 < d.get fPWR_TIMER_MS then d.get fPWR_TIMER_MS - 1 else d.get fPWR_TIMER_MS := by
  rw [Dev.get_congr d.tick_csr, Dev.get_timerMs, Dev.get_congr (Dev.timePassed_csr _ _),
    d.counted44_passesOn.get_eq fPWR_TIMER_MS (not_tickReg (.inl (by decide))), Dev.timePassed, d.counted44_now]

theorem Dev.get_tick_cyc {u : Nat} (hu : u < 44) (hon : d.pmuOn u = true) :
    d.tick.get (fPMU_U_CYC_COUNT u) = (d.get (fPMU_U_CYC_COUNT u) + d.unitCycles u) % 2 ^ 64 := by
  have hne : (fPMU_U_CYC_COUNT u).reg ≠ rPWR_TIMER := by simp only [fPMU_U_CYC_COUNT, rPMU_U_CYC, rPWR_TIMER]; omega
  rw [← d.get_counted44_cyc hu hon, Dev.get_congr d.tick_csr]
  unfold Dev.get
  rw [(Dev.timerMs_keeps _).2.2 _ hne, Dev.rd_congr (Dev.timePassed_csr _ _)]

end

/-! ### The step of an idle block (R333) -/

theorem step_of_idle {s : State} (h : s.pending = []) : step s = s.idle.takePkt := by
  unfold step
  rw [h]

theorem State.takePkt_of_none {s : State} (h : s.dev.nextPkt = none) : s.takePkt = .next s := by
  unfold State.takePkt
  rw [h]

theorem State.takePkt_of_some {s t : State} {q : QPkt} {i : Instr} (h : s.dev.nextPkt = some q) (hi : cmdInstr q = some i)
    (ht : exec i { s with dev := s.dev.taking q } = .next t) : s.takePkt = .next t.taken := by
  unfold State.takePkt
  simp only [h, hi, ht]

/-- Settles O42: of the steps of a tick each unit's own writes its own registers, so that each counts the cycles of the clock it began with. -/
theorem idleStepPassesTime : Obligations.IdleStepPassesTime := by
  unfold Obligations.IdleStepPassesTime
  refine ⟨fun s hp hq => ?_, fun s t q i hp hq hi ht => ?_, fun s => ⟨s.dev.tick, ?_, s.dev.tick_now, ?_, fun k hu hsl ht => ?_, s.dev.get_tick_timer,
    fun u hu hon => s.dev.get_tick_cyc hu hon⟩⟩
  · rw [step_of_idle hp, State.takePkt_of_none hq]
  · rw [step_of_idle hp, State.takePkt_of_some hq hi ht]
  · rw [State.idle]
  · rw [s.dev.tick_mgt]
  · refine s.dev.rd_tick ?_ ht
    rintro (⟨u, hlt, rfl | rfl | ⟨c, hc, rfl⟩⟩ | ⟨sl, hlt, rfl⟩)
    · exact (hu u hlt).1 rfl
    · exact (hu u hlt).2.1 rfl
    · exact (hu u hlt).2.2 c hc rfl
    · exact hsl sl hlt rfl

end Sys2Proof.Machine
end


section
/-! What a record of the fault hub changes (15_faults.md R366 to R370, 18_telemetry.md R431 to R433): the hub's registers, the notice rings,
the counters of the device's monitor unit, the log and the messages sent; nothing else. -/

namespace Sys2Proof.Machine

/-- The registers of the fault hub, the monitor units and the notice rings. -/
def HubReg (k : Nat) : Prop := (0x100000 ≤ k ∧ k < 0x200000) ∨ (0x1001000 ≤ k ∧ k < 0x1200000)

/-- e is d after records of the fault hub. -/
def Dev.Records (d e : Dev) : Prop :=
  (∃ c o fl r fs cl, e = { d with csr := c, out := o, flt := fl, rings := r, flash := fs, crockLog := cl }) ∧ ∀ k, ¬ HubReg k → e.rd k = d.rd k

namespace Dev.Records

variable {d e f : Dev}

theorem refl (d : Dev) : d.Records d := ⟨⟨d.csr, d.out, d.flt, d.rings, d.flash, d.crockLog, rfl⟩, fun _ _ => rfl⟩

theorem trans (h : d.Records e) (g : e.Records f) : d.Records f := by
  obtain ⟨⟨c, o, fl, r, fs, cl, rfl⟩, h⟩ := h
  obtain ⟨⟨c', o', fl', r', fs', cl', rfl⟩, g⟩ := g
  exact ⟨⟨c', o', fl', r', fs', cl', rfl⟩, fun k hk => (g k hk).trans (h k hk)⟩

theorem wr (d : Dev) {k : Nat} (v : Nat) (hk : HubReg k) : d.Records (d.wr k v) :=
  ⟨⟨_, d.out, d.flt, d.rings, d.flash, d.crockLog, rfl⟩, fun _ hj => d.rd_wr_of_ne v (fun hjk => hj (hjk ▸ hk))⟩

theorem set (d : Dev) {f : Fld} (v : Nat) (hf : HubReg f.reg) : d.Records (d.set f v) := wr d _ hf

theorem emit (d : Dev) (o : Out) : d.Records (d.emit o) := ⟨⟨d.csr, _, d.flt, d.rings, d.flash, d.crockLog, rfl⟩, fun _ _ => rfl⟩

theorem emits (d : Dev) (l : List Out) : d.Records (d.emits l) := ⟨⟨d.csr, _, d.flt, d.rings, d.flash, d.crockLog, rfl⟩, fun _ _ => rfl⟩

theorem withFlt (d : Dev) (fl : FltS) : d.Records { d with flt := fl } := ⟨⟨d.csr, d.out, fl, d.rings, d.flash, d.crockLog, rfl⟩, fun _ _ => rfl⟩

theorem withRings (d : Dev) (r : Tbl RingS) : d.Records { d with rings := r } :=
  ⟨⟨d.csr, d.out, d.flt, r, d.flash, d.crockLog, rfl⟩, fun _ _ => rfl⟩

theorem of_counts {u : Nat} (h : d.Counts u e) (hu : u < 44) : d.Records e := by
  obtain ⟨⟨c, o, rfl⟩, hrd⟩ := h
  refine ⟨⟨c, o, d.flt, d.rings, d.flash, d.crockLog, rfl⟩, fun k hk => hrd k ?_ fun c hc => ?_⟩
  · simp only [HubReg, rPMU_U_CTL] at hk ⊢; omega
  · simp only [HubReg, rPMU_U_CNT] at hk ⊢; omega

theorem logPut (d : Dev) (kind sev source data : Nat) : d.Records (d.logPut kind sev source data) := by
  unfold Dev.logPut
  split
  · exact ⟨⟨d.csr, d.out, d.flt, d.rings, _, d.crockLog, rfl⟩, fun _ _ => rfl⟩
  · exact ⟨⟨d.csr, d.out, d.flt, d.rings, d.flash, _, rfl⟩, fun _ _ => rfl⟩

theorem ite {p : Prop} [Decidable p] (h : d.Records e) (g : d.Records f) : d.Records (if p then e else f) := by
  split
  · exact h
  · exact g

theorem get_eq (h : d.Records e) (f : Fld) (hf : ¬ HubReg f.reg) : e.get f = d.get f := by
  unfold Dev.get
  rw [h.2 _ hf]

end Dev.Records

/-! ### Notice rings (R431 to R433) -/

theorem hubReg_ring {n r : Nat} (hn : n < 8) (hr : r ∈ [rRING_PTR n, rRING_STS n]) : HubReg r := by
  simp only [rRING_PTR, rRING_STS, List.mem_cons, List.not_mem_nil, or_false] at hr
  simp only [HubReg]
  omega

theorem hubReg_dataWindow {n : Nat} (hn : n < 8) (i : Nat) : HubReg (rRING_DATAWIN n (i % 8192)) := by
  simp only [HubReg, rRING_DATAWIN]
  omega

theorem hubReg_tagWindow {n : Nat} (hn : n < 8) (i : Nat) : HubReg (rRING_TAGWIN n (i % 8192)) := by
  simp only [HubReg, rRING_TAGWIN]
  omega

section
variable (d : Dev) {n : Nat} (hn : n < 8)
include hn

theorem Dev.records_setRing {f : Fld} (v : Nat) (hf : f.reg ∈ [rRING_PTR n, rRING_STS n]) : d.Records (d.set f v) :=
  .set d v (hubReg_ring hn hf)

theorem Dev.records_ringWrite (l : List (Nat × Nat)) : d.Records (d.ringWrite n l) := by
  induction l generalizing d with
  | nil => exact .refl d
  | cons e l ih =>
    have hword : d.Records (d.set (fRING_DATAWIN_WORD n (d.get (fRING_PTR_WR n) % 8192)) e.1) := .set d _ (hubReg_dataWindow hn _)
    have htag := hword.trans (.set _ (f := fRING_TAGWIN_TAG n (d.get (fRING_PTR_WR n) % 8192)) e.2 (hubReg_tagWindow hn _))
    exact (htag.trans (Dev.records_setRing _ hn (f := fRING_PTR_WR n) _ (by simp [fRING_PTR_WR]))).trans (ih _)

theorem Dev.records_ringSettle (before : Nat) : d.Records (d.ringSettle n before) := by
  unfold Dev.ringSettle
  have hocc := d.records_setRing hn (f := fRING_PTR_OCC n) (d.ringOcc n) (by simp [fRING_PTR_OCC])
  dsimp only
  split
  · have hlvl := hocc.trans (Dev.records_setRing _ hn (f := fRING_STS_LVL n) true.toNat (by simp [fRING_STS_LVL]))
    split
    · exact hlvl.trans (.emit _ _)
    · exact hlvl.trans (.emit _ _)
  · exact hocc

theorem Dev.records_ringDrop (kind : Nat) : d.Records (d.ringDrop n kind) := by
  unfold Dev.ringDrop
  have hdrops : d.Records (d.bumpSat (fRING_STS_DROPS n) 1) := d.records_setRing hn _ (by simp [fRING_STS_DROPS])
  refine (hdrops.trans (.of_counts (Dev.counts_pmu _ 43 0x7C 0 8 1) (by decide))).trans ?_
  dsimp only
  split
  · exact .set _ _ (hubReg_dataWindow hn _)
  · split
    · exact (Dev.records_ringWrite _ hn _).trans (Dev.records_ringSettle _ hn _)
    · exact .withRings _ _

theorem Dev.records_ringPut (kind : Nat) (words : List Nat) : d.Records (d.ringPut n kind words) := by
  unfold Dev.ringPut
  dsimp only
  split
  · exact .refl d
  · split
    · exact (d.records_ringWrite hn _).trans (Dev.records_ringSettle _ hn _)
    · exact d.records_ringDrop hn kind

end

/-! ### The fault hub (R366 to R370) -/

theorem hubReg_rec {k : Nat} (hk : k < 64) : HubReg (rFLT_REC k) ∧ HubReg (rFLT_REC_CTL k) := by
  simp only [HubReg, rFLT_REC, rFLT_REC_CTL]
  omega

section
variable (d : Dev)

theorem Dev.records_escalate (sev : Nat) : d.Records (d.escalate sev) := by
  unfold Dev.escalate
  split
  · exact .refl d
  · split
    · exact .withFlt d _
    · split
      · exact .withFlt d _
      · exact .refl d

theorem Dev.records_escalateRec {k : Nat} (hk : k < 64) : d.Records (d.escalateRec k) := by
  unfold Dev.escalateRec
  exact ((Records.wr d _ (hubReg_rec hk).1).trans (.set _ _ (hubReg_rec hk).2)).trans (Dev.records_escalate _ _)

theorem Dev.records_headEvents (e : Ev) (r : Nat) : d.Records (d.headEvents e r) := by
  unfold Dev.headEvents
  dsimp only
  split
  · exact .emit d _
  · exact .emits d _

theorem Dev.records_coalesce {k : Nat} (hk : k < 64) (r : Nat) :
    d.Records ((d.wr (rFLT_REC k) (wordPut (d.rd (rFLT_REC k)) 151 8 (min (wordField (d.rd (rFLT_REC k)) 151 8 + 1) 255))).logFault r) :=
  (Records.wr d _ (hubReg_rec hk).1).trans (.logPut _ _ _ _ _)

/-- Record k of the table waits for its log record. -/
def Dev.toLog (d : Dev) (k : Nat) : Dev := { d with flt := { d.flt with toLog := d.flt.toLog ++ [k] } }

theorem Dev.records_toLog (k : Nat) : d.Records (d.toLog k) := .withFlt d _

/-- The record r of event e takes place k of the table. -/
def Dev.heldAt (d : Dev) (e : Ev) (r k : Nat) : Dev :=
  (((((d.wr (rFLT_REC k) r).wr (rFLT_REC_CTL k) 1).toLog k).bump fFLT_STS_HELD 1).emit .mgmtInt).headEvents e r

theorem Dev.records_heldAt (e : Ev) (r : Nat) {k : Nat} (hk : k < 64) : d.Records (d.heldAt e r k) := by
  unfold Dev.heldAt
  have hlog := ((Records.wr d r (hubReg_rec hk).1).trans (.wr _ 1 (hubReg_rec hk).2)).trans (Dev.records_toLog _ k)
  exact ((hlog.trans (.set _ _ (.inl (by decide)))).trans (.emit _ _)).trans (Dev.records_headEvents _ e r)

theorem Dev.records_cCounted (g : Nat) : d.Records (d.cCounted g) := .withFlt d _

/-- What the hub does with record r of event e whose reaction is not IGNORE: it is coalesced, held, or logged alone. -/
def Dev.keepRecord (d : Dev) (e : Ev) (react r : Nat) : Dev :=
  match (List.range 64).find? (fun k => d.recValid k && !d.recAcked k && d.recSrc k == e.src && d.recSev k == e.sev) with
  | some k => (d.wr (rFLT_REC k) (wordPut (d.rd (rFLT_REC k)) 151 8 (min (wordField (d.rd (rFLT_REC k)) 151 8 + 1) 255))).logFault r
  | none =>
    match (List.range (if 3 ≤ e.sev then 64 else 56)).find? (fun k => !d.recValid k) with
    | some k => if react = 3 && 3 ≤ e.sev then (d.heldAt e r k).escalateRec k else d.heldAt e r k
    | none => if 3 ≤ e.sev then ((d.bumpSat fFLT_DROP_FULL 1).logFault r).escalate e.sev else (d.bumpSat fFLT_DROP_FULL 1).logFault r

theorem Dev.records_keepRecord (e : Ev) (react r : Nat) : d.Records (d.keepRecord e react r) := by
  unfold Dev.keepRecord
  split
  · rename_i k hk
    exact d.records_coalesce (List.mem_range.1 (List.mem_of_find?_eq_some hk)) r
  · split
    · rename_i k hk
      have hlt : k < 64 := lt_of_lt_of_le (List.mem_range.1 (List.mem_of_find?_eq_some hk)) (by split <;> decide)
      split
      · exact (d.records_heldAt e r hlt).trans (Dev.records_escalateRec _ hlt)
      · exact d.records_heldAt e r hlt
    · have hdrop : d.Records ((d.bumpSat fFLT_DROP_FULL 1).logFault r) := (Records.set d _ (.inl (by decide))).trans (.logPut _ _ _ _ _)
      split
      · exact hdrop.trans (Dev.records_escalate _ _)
      · exact hdrop

/-- A record takes its number, is counted, and goes to the ring. -/
def Dev.numbered (d : Dev) (r : Nat) : Dev :=
  let d := (d.bump fFLT_NEXT_NUM 1).pmu 43 0x7B 0 8 1
  d.ringPut (d.get fFLT_CTL_RING) 1 (recWords r)

theorem Dev.records_numbered (r : Nat) : d.Records (d.numbered r) := by
  unfold Dev.numbered
  have hcount : d.Records ((d.bump fFLT_NEXT_NUM 1).pmu 43 0x7B 0 8 1) :=
    (Records.set d (f := fFLT_NEXT_NUM) _ (.inl (by decide))).trans (.of_counts (Dev.counts_pmu _ 43 0x7B 0 8 1) (by decide))
  exact hcount.trans (Dev.records_ringPut _ (Dev.get_lt _ fFLT_CTL_RING) _ _)

/-- A record within the rate limit. -/
def Dev.takeRecord (d : Dev) (e : Ev) (react : Nat) : Dev :=
  let r := recordOf e (d.get fFLT_NEXT_NUM) d.now react
  if react = 0 then (d.numbered r).logFault r else (d.numbered r).keepRecord e react r

theorem Dev.records_takeRecord (e : Ev) (react : Nat) : d.Records (d.takeRecord e react) := by
  unfold Dev.takeRecord
  dsimp only
  split
  · exact (d.records_numbered _).trans (.logPut _ _ _ _ _)
  · exact (d.records_numbered _).trans (Dev.records_keepRecord _ _ _ _)

theorem Dev.hubRecord_eq (e : Ev) (react : Nat) : d.hubRecord e react =
    if e.sev = 1 && (if d.get fFLT_CTL_C_RATE = 0 then 1023 else d.get fFLT_CTL_C_RATE) ≤ d.cCount (e.src / 64) then d.bumpSat fFLT_DROP_RATE 1
    else (if e.sev = 1 then d.cCounted (e.src / 64) else d).takeRecord e react := rfl

theorem Dev.records_hubRecord (e : Ev) (react : Nat) : d.Records (d.hubRecord e react) := by
  rw [d.hubRecord_eq]
  refine .ite (.set d (f := fFLT_DROP_RATE) _ (.inl (by decide))) ?_
  exact Records.trans (.ite (d.records_cCounted _) (.refl d)) (Dev.records_takeRecord _ e react)

theorem Dev.records_pairUse (k kc : Nat) : d.Records (d.pairUse k kc).2 := by
  unfold Dev.pairUse
  dsimp only
  split
  · exact .withFlt d _
  · exact .refl d

theorem Dev.records_hubFault (k kc : Nat) : d.Records (d.hubFault k kc) := by
  unfold Dev.hubFault
  have hpair : d.Records ((d.reactUse srcCompl).2.2.hubRecordPair k kc (d.reactUse srcCompl).2.1) :=
    (d.records_pairUse (rFLT_REACT (srcCompl / 16)) (rFLT_REACT_C (srcCompl / 16))).trans (Dev.records_hubRecord _ _ _)
  dsimp only
  split
  · exact hpair
  · exact hpair.trans (Dev.records_hubRecord _ _ _)

theorem Dev.records_react (s : Nat) : d.Records (d.react s).2 := by
  unfold Dev.react
  have huse : d.Records (d.reactUse s).2.2 := d.records_pairUse (rFLT_REACT (s / 16)) (rFLT_REACT_C (s / 16))
  dsimp only
  split
  · exact huse
  · exact huse.trans (Dev.records_hubFault _ _ _)

theorem Dev.records_globalUse : d.Records d.globalUse := by
  unfold Dev.globalUse
  have huse := (d.records_pairUse rFLT_GLOBAL rFLT_GLOBAL_C).trans (.withFlt _ { (d.pairUse rFLT_GLOBAL rFLT_GLOBAL_C).2.flt with
    globalBad := !(d.pairUse rFLT_GLOBAL rFLT_GLOBAL_C).1 })
  dsimp only
  split
  · exact huse
  · exact huse.trans (Dev.records_hubFault _ _ _)

theorem Dev.records_raise (e : Ev) : d.Records (d.raise e) := by
  unfold Dev.raise
  have hrec : d.Records ((d.react e.src).2.hubRecord e (d.react e.src).1) := (d.records_react e.src).trans (Dev.records_hubRecord _ _ _)
  dsimp only
  split
  · exact hrec
  · exact hrec.trans (Dev.records_globalUse _)

end

end Sys2Proof.Machine
end


section
/-! The slots (17_slot_power.md R407 to R415): their commands and events complete. -/

namespace Sys2Proof.Machine

/-! ### Commands under a condition -/

theorem run_when_of_true {c : Dev → Bool} {f : Dev → Dev} {s : State} (h : c s.dev = true) :
    run (fun d => d.when (c d) f) s = .next (s.after (f s.dev)) := by
  rw [run_eq, Dev.when_of_true _ _ _ h]

theorem runAcc_when_of_true {c : Acc → Bool} {f : Acc → Acc} {s : State} (h : c s.acc = true) :
    runAcc (fun a => a.when (c a) f) s = .next (s.afterAcc (f s.acc)) := by
  rw [runAcc_eq, Acc.when_of_true _ _ _ h]

/-! ### Presence (R407) -/

theorem Dev.presence_of_same {d : Dev} {n : Nat} {b : Bool} (h : d.flag (fSLT_STS_PRESENT n) = b) : d.presence n b = d := if_pos h

theorem exec_presencePoll_eq (s : State) (present : BitVec 48) :
    exec (.presencePoll present) s = .next (s.after ((List.range 48).foldl (fun d n => d.presence n (present.getLsbD n)) s.dev)) := rfl

theorem Dev.presence_of_new {d : Dev} {n : Nat} (h : d.flag (fSLT_STS_PRESENT n) = false) :
    d.presence n true = (((d.setFlag (fSLT_STS_PRESENT n) true).setBit fSLT_PRESENT_SLOTS n true).bumpSat (fSLT_EVT_PRESENCE n) 1).raise
      { src := src 38 n, sev := 1, code := 407, obj := n } := by
  unfold Dev.presence
  rw [if_neg (by rw [h]; decide)]
  rfl

/-! ### Bits of mask fields -/

theorem testBit_or_two_pow (v i : Nat) : (v ||| 2 ^ i).testBit i = true := by
  rw [Nat.testBit_or, Nat.testBit_two_pow_self, Bool.or_true]

theorem testBit_sub_and_two_pow (v i : Nat) : (v - (v &&& 2 ^ i)).testBit i = false := by
  rw [Nat.and_two_pow]
  cases hv : v.testBit i
  · simpa using hv
  · rw [Nat.testBit_eq_decide_div_mod_eq, decide_eq_true_eq] at hv
    have hdiv : (v - 2 ^ i) / 2 ^ i = v / 2 ^ i - 1 := by simpa using Nat.sub_mul_div v (2 ^ i) 1
    rw [Bool.toNat_true, Nat.one_mul, Nat.testBit_eq_decide_div_mod_eq, hdiv, decide_eq_false_iff_not]
    omega

theorem Dev.bit_setBit_self (d : Dev) (f : Fld) {i : Nat} (b : Bool) (hi : i < f.w) : (d.setBit f i b).bit f i = b := by
  unfold Dev.bit Dev.setBit
  dsimp only
  rw [Dev.get_set_self, Nat.testBit_mod_two_pow, decide_eq_true hi, Bool.true_and]
  cases b
  · exact testBit_sub_and_two_pow _ i
  · exact testBit_or_two_pow _ i

theorem Dev.get_setBit_of_ne (d : Dev) {f g : Fld} (i : Nat) (b : Bool) (h : g.reg ≠ f.reg) : (d.setBit f i b).get g = d.get g :=
  d.get_set_of_ne _ h

theorem Dev.flag_setBit_of_ne (d : Dev) {f g : Fld} (i : Nat) (b : Bool) (h : g.reg ≠ f.reg) : (d.setBit f i b).flag g = d.flag g :=
  d.flag_set_of_ne _ h

theorem Dev.get_setFlag_of_disjoint (d : Dev) {f g : Fld} (b : Bool) (h : g.lo + g.w ≤ f.lo ∨ f.lo + f.w ≤ g.lo) :
    (d.setFlag f b).get g = d.get g := d.get_set_of_disjoint _ h

theorem Dev.bit_set_of_ne (d : Dev) {f g : Fld} (v i : Nat) (h : g.reg ≠ f.reg) : (d.set f v).bit g i = d.bit g i := by
  unfold Dev.bit
  rw [d.get_set_of_ne v h]

/-! ### The state of a slot -/

theorem rSLT_STS_ne_rSLT_ON (n : Nat) : rSLT_STS n ≠ rSLT_ON := by
  simp only [rSLT_STS, rSLT_ON]
  omega

section
variable (d : Dev) (n st cause : Nat)

theorem Dev.sltState_setSlt (hst : st < 8) : (d.setSlt n st).sltState n = st := by
  unfold Dev.setSlt Dev.sltState
  rw [Dev.get_setBit_of_ne _ _ _ (rSLT_STS_ne_rSLT_ON n), Dev.get_setFlag_of_disjoint _ _ (.inl (le_refl 3)), Dev.get_set_self]
  exact Nat.mod_eq_of_lt hst

theorem Dev.flag_setSlt_pwren : (d.setSlt n st).flag (fSLT_STS_PWREN n) = (st == slOn) := by
  unfold Dev.setSlt
  rw [Dev.flag_setBit_of_ne _ _ _ (rSLT_STS_ne_rSLT_ON n), Dev.flag_setFlag_self _ _ _ rfl]

theorem Dev.bit_setSlt_on (hn : n < 48) : (d.setSlt n st).bit fSLT_ON_SLOTS n = (st == slOn) :=
  Dev.bit_setBit_self _ _ _ hn

theorem Dev.slt_updSlt (f : SlotS → SlotS) : (d.updSlt n f).slt n = f (d.slt n) := by
  simp [Dev.updSlt, Dev.slt, tfind_tins_self]

/-- The registers of a slot that is off at once. -/
theorem Dev.sltDrop_csr : (d.sltDrop n st cause).csr = ((d.setSlt n st).set (fSLT_STS_CAUSE n) cause).csr := rfl

theorem Dev.sltState_sltDrop (hst : st < 8) : (d.sltDrop n st cause).sltState n = st := by
  refine (Dev.get_congr (Dev.sltDrop_csr d n st cause) _).trans ?_
  rw [Dev.get_set_of_disjoint _ _ (.inl (by simp only [fSLT_STS_STATE, fSLT_STS_CAUSE]; decide))]
  exact d.sltState_setSlt n st hst

theorem Dev.flag_sltDrop_pwren : (d.sltDrop n st cause).flag (fSLT_STS_PWREN n) = (st == slOn) := by
  rw [Dev.flag_congr (Dev.sltDrop_csr d n st cause),
    Dev.flag_set_of_disjoint _ _ (.inl (by simp only [fSLT_STS_PWREN, fSLT_STS_CAUSE]; decide)), d.flag_setSlt_pwren]

theorem Dev.bit_sltDrop_on (hn : n < 48) : (d.sltDrop n st cause).bit fSLT_ON_SLOTS n = (st == slOn) := by
  unfold Dev.bit
  rw [Dev.get_congr (Dev.sltDrop_csr d n st cause), Dev.get_set_of_ne _ _ (rSLT_STS_ne_rSLT_ON n).symm]
  exact d.bit_setSlt_on n st hn

theorem Dev.get_sltDrop_cause : (d.sltDrop n st cause).get (fSLT_STS_CAUSE n) = cause % 16 := by
  rw [Dev.get_congr (Dev.sltDrop_csr d n st cause), Dev.get_set_self]
  rfl

/-- The slot at the end of its ramp (Table 17.3). -/
def Dev.rampEnd : Dev := (d.setSlt n slOn).updSlt n (fun x => { x with ramp := 0 })

theorem Dev.rampEnd_csr : (d.rampEnd n).csr = (d.setSlt n slOn).csr := rfl

end

/-! ### Training of a slot enabled in service (R132) -/

/-- Nothing but the ranks differs. -/
theorem Dev.foldl_updRank (k : Nat → Nat) (f : RankS → RankS) (l : List Nat) (d : Dev) :
    (l.foldl (fun d r => d.updRank (k r) f) d).csr = d.csr ∧ (l.foldl (fun d r => d.updRank (k r) f) d).slot = d.slot := by
  induction l generalizing d with
  | nil => exact ⟨rfl, rfl⟩
  | cons r l ih => exact ih (d.updRank (k r) f)

theorem Dev.slotTrained_of_matches {d : Dev} {n : Nat} {x : Spd} (h : d.matchesChan (n / 2) x = true) :
    ((d.slotTrained n x).slt n).spd = some x ∧ (d.slotTrained n x).csr = d.csr := by
  unfold Dev.slotTrained
  rw [if_pos h]
  obtain ⟨hcsr, hslot⟩ := Dev.foldl_updRank (fun r => rankKey (n / 2) (n % 2 * 4 + r)) (fun y => { y with trainTemp := none }) (List.range 4)
    (d.updSlt n (fun y => { y with spd := some x }))
  refine ⟨?_, hcsr⟩
  unfold Dev.slt
  rw [hslot]
  exact congrArg SlotS.spd (d.slt_updSlt n (fun y => { y with spd := some x }))

/-! ### The events of a slot -/

section
variable {s : State} {n : SlotId}

theorem inRamp (hst : s.dev.sltState n.val = slRamp) (hfall : (s.dev.slt n.val).fall = 0) :
    (s.dev.sltState n.val == slRamp && (s.dev.slt n.val).fall == 0) = true := by
  rw [hst, hfall]
  rfl

theorem exec_fullGateOn_of_ramp (hst : s.dev.sltState n.val = slRamp) (hramp : (s.dev.slt n.val).ramp = 3) (hfall : (s.dev.slt n.val).fall = 0) :
    exec (.fullGateOn n) s = .next (s.after (s.dev.rampEnd n.val)) := by
  change execFullGateOn n s = _
  exact run_when_of_true (by rw [hst, hramp, hfall]; rfl)

theorem exec_slotOffComplete_of_falling (hfall : (s.dev.slt n.val).fall = 2) :
    exec (.slotOffComplete n) s = .next (s.after (s.dev.sltDrop n.val slOff (s.dev.slt n.val).fallCause)) := by
  change execSlotOffComplete n s = _
  exact run_when_of_true (by rw [hfall]; rfl)

theorem exec_slotTrainingComplete_of_awaited {x : Spd} (hout : s.dev.slotOut n.val = true) (hst : s.dev.sltState n.val = slOn)
    (hfall : (s.dev.slt n.val).fall = 0) (htrained : s.dev.mch.trained = true) :
    exec (.slotTrainingComplete n x) s = .next (s.after (s.dev.slotTrained n.val x)) := by
  change execSlotTrainingComplete n x s = _
  exact run_when_of_true (by rw [hout, hst, hfall, htrained]; rfl)

end

/-- Settles O8: each event acts under its condition, and a turn-off writes the slot's own two registers. -/
theorem slotEventsComplete : Obligations.SlotEventsComplete := by
  unfold Obligations.SlotEventsComplete
  refine ⟨fun s present h => ?_, exec_presencePoll_eq, fun d n h => Dev.presence_of_new h, fun s n hst hfall => ⟨?_, ?_, ?_, ?_⟩,
    fun s n hst hramp hfall => ⟨s.dev.rampEnd n.val, exec_fullGateOn_of_ramp hst hramp hfall, ?_, ?_, ?_, ?_, ?_⟩, fun s n h => ?_, fun s n h => ?_,
    fun s n h => ?_, fun s n h => ?_, fun s n h => ⟨_, exec_slotOffComplete_of_falling h, ?_, ?_, ?_, ?_, ?_⟩,
    fun s n x hout hst hfall htrained hm => ⟨_, exec_slotTrainingComplete_of_awaited hout hst hfall htrained, ?_, ?_⟩, fun s n hout hst hspd => ?_⟩
  · rw [exec_presencePoll_eq, foldl_eq_self _ fun n hn => Dev.presence_of_same (h n (List.mem_range.1 hn))]
  · change execGateRiseCheck n true s = _
    exact run_when_of_true (inRamp hst hfall)
  · change execGateRiseCheck n false s = _
    exact run_when_of_true (inRamp hst hfall)
  · change execRampVoutReached n s = _
    exact run_when_of_true (inRamp hst hfall)
  · change execRampTimeout n s = _
    exact run_when_of_true (inRamp hst hfall)
  · exact (Dev.get_congr (s.dev.rampEnd_csr n.val) _).trans (s.dev.sltState_setSlt n.val slOn (by decide))
  · exact (Dev.flag_congr (s.dev.rampEnd_csr n.val) _).trans (s.dev.flag_setSlt_pwren n.val slOn)
  · exact s.dev.bit_setSlt_on n.val slOn n.isLt
  · exact congrArg SlotS.ramp ((s.dev.setSlt n.val slOn).slt_updSlt n.val _)
  · exact fun k hsts hon => (s.dev.confined_setSlt n.val slOn).rd k (not_or.2 ⟨hsts, hon⟩)
  · change execFastTrip n s = _
    exact run_when_of_true h
  · change execBreakerTrip n s = _
    exact run_when_of_true (beq_iff_eq.2 h)
  · change execFetShort n s = _
    exact run_when_of_true (by rw [h]; rfl)
  · change execGateFallStart n s = _
    exact run_when_of_true (by rw [h]; rfl)
  · exact s.dev.sltState_sltDrop n.val slOff _ (by decide)
  · exact s.dev.flag_sltDrop_pwren n.val slOff _
  · exact s.dev.bit_sltDrop_on n.val slOff _ n.isLt
  · exact s.dev.get_sltDrop_cause n.val slOff _
  · exact fun k hsts hon => (s.dev.confined_sltDrop n.val slOff _).rd k (not_or.2 ⟨hsts, hon⟩)
  · exact (Dev.slotTrained_of_matches hm).1
  · exact Dev.rd_congr (Dev.slotTrained_of_matches hm).2
  · change execSlotInitializationDone n s = _
    exact runAcc_when_of_true (by simp [hout, hst, hspd])

end Sys2Proof.Machine
end


section
/-! The commands of a slot and the update of its FET model (17_slot_power.md R409, R411, R414). -/

namespace Sys2Proof.Machine

/-! ### Packets -/

section
variable {s : State} {r : CmdRow} {c : Pkt} {check : Dev → Option (Nat × Nat)} {eff : Nat → Dev → CmdEnd × Dev}

theorem run_command_done {e : Dev} {body : List Byte} {fl : Nat} (h : Admits s.dev r c) (hc : check s.dev = none)
    (he : eff s.dev.mgt.nextBg s.dev = (.done body fl, e)) :
    run (fun d => d.command r c check eff) s = .next (s.after (e.answered r c fl body)) := by
  rw [run_eq, Dev.command_done _ _ _ _ _ _ _ _ h hc he]

theorem run_command_runs {e : Dev} {arg : List Nat} (h : Admits s.dev r c) (hc : check s.dev = none)
    (he : eff s.dev.mgt.nextBg s.dev = (.runs arg, e)) :
    run (fun d => d.command r c check eff) s = .next (s.after (e.running r c arg)) := by
  rw [run_eq, Dev.command_runs _ _ _ _ _ _ _ h hc he]

theorem run_command_stored {e : Dev} {ps : List (Nat × Nat)} {f : Dev → Dev} (h : Admits s.dev r c) (hc : check s.dev = none)
    (he : eff s.dev.mgt.nextBg s.dev = e.stored ps f) :
    run (fun d => d.command r c check eff) s = .next (s.after (if (e.readBack ps).1 then (f (e.readBack ps).2).answered r c 0 [] else
      (e.readBack ps).2.failed r c stComplementMismatch)) := by
  rw [run_eq, Dev.command_stored _ _ _ _ _ _ _ _ h hc he]

end

theorem firstBad_one {b : Bool} (x : Nat × Nat) (h : b = false) : firstBad [(b, x)] = none := by rw [h]; rfl

/-! ### SLOT_ENABLE and SLOT_DISABLE (R409, R414) -/

theorem Dev.slotEnable_use {d : Dev} {n : Nat} (b : Bool) (h : d.sltUse n = (true, d)) : (if b then d.sltUse n else (true, d)) = (true, d) := by
  rw [h]
  exact ite_self _

theorem exec_slotEnable_of_off {s : State} {c : Pkt} (ha : Admits s.dev rowSlotEnable c) (huse : s.dev.sltUse (c.at_ 0 1) = (true, s.dev))
    (hok : s.dev.enableBad (c.at_ 0 1) true = none) (hoff : s.dev.sltLive (c.at_ 0 1) = false) :
    exec (.slotEnable c) s = .next (s.after (((s.dev.sltRamp (c.at_ 0 1)).cfgSlot (c.at_ 0 1) true).answered rowSlotEnable c 2 [])) := by
  change execSlotEnable c s = _
  unfold execSlotEnable
  rw [run_eq]
  dsimp only
  rw [Dev.slotEnable_use _ huse]
  rw [Dev.command_done s.dev ((s.dev.sltRamp (c.at_ 0 1)).cfgSlot (c.at_ 0 1) true) rowSlotEnable c _ _ [] 2 ha hok]
  rw [if_neg (by rw [hoff]; decide)]

theorem Dev.sltDisable_of_on {d : Dev} {n : Nat} (h : d.sltState n = slOn) :
    d.sltDisable n = (.done [] 2, (((d.cfgSlot n false).setOut n true).sltFall n 9).clearBret n) := by
  have hst : (d.cfgSlot n false).sltState n = slOn := h
  unfold Dev.sltDisable
  dsimp only
  rw [if_neg (by rw [hst]; decide), if_pos (by rw [Dev.sltLive, hst]; rfl)]

theorem exec_slotDisable_of_on {s : State} {c : Pkt} (ha : Admits s.dev rowSlotDisable c) (hn : c.at_ 0 1 < 48)
    (hon : s.dev.sltState (c.at_ 0 1) = slOn) :
    exec (.slotDisable c) s = .next (s.after
      (((((s.dev.cfgSlot (c.at_ 0 1) false).setOut (c.at_ 0 1) true).sltFall (c.at_ 0 1) 9).clearBret (c.at_ 0 1)).answered rowSlotDisable c 2 [])) := by
  change execSlotDisable c s = _
  exact run_command_done ha (firstBad_one _ (decide_eq_false (by omega))) (Dev.sltDisable_of_on hon)

/-! ### SLOT_LIMITS -/

theorem exec_slotLimits_of_legal {s : State} {c : Pkt} {r : Bool × Dev} (ha : Admits s.dev rowSlotLimits c) (hn : c.at_ 0 1 < 48)
    (hok : limitsBad (c.at_ 4 4) (c.at_ 8 4) = none)
    (hr : r = ((s.dev.wrPair (rSLT_LIM0 (c.at_ 0 1)) (rSLT_LIM0_C (c.at_ 0 1)) (c.at_ 4 4)).wrPair (rSLT_LIM1 (c.at_ 0 1)) (rSLT_LIM1_C (c.at_ 0 1))
      (c.at_ 8 4)).readBack [(rSLT_LIM0 (c.at_ 0 1), rSLT_LIM0_C (c.at_ 0 1)), (rSLT_LIM1 (c.at_ 0 1), rSLT_LIM1_C (c.at_ 0 1))]) :
    exec (.slotLimits c) s = .next (s.after (if r.1 then (r.2.cfgRegs [rSLT_LIM0 (c.at_ 0 1), rSLT_LIM1 (c.at_ 0 1)]).answered rowSlotLimits c 0 []
      else r.2.failed rowSlotLimits c 5)) := by
  change execSlotLimits c s = _
  have hcheck : (firstBad [(decide (47 < c.at_ 0 1), stInvalidField, 16)]).or (limitsBad (c.at_ 4 4) (c.at_ 8 4)) = none := by
    rw [firstBad_one _ (decide_eq_false (by omega)), hok]
    rfl
  subst hr
  unfold execSlotLimits
  exact run_command_stored (f := fun d => d.cfgRegs [rSLT_LIM0 (c.at_ 0 1), rSLT_LIM1 (c.at_ 0 1)]) ha hcheck rfl

/-! ### The FET model (R411) -/

/-- The model's update of a slot without current takes it toward 70 degrees. -/
theorem Dev.modelStep_of_off {d : Dev} {n : Nat} (cur vout : Nat) (h : d.sltLive n = false) :
    d.modelStep n cur vout = (d.slt n).model + (70000000 - (d.slt n).model) / (100 * (d.get (fSLT_LIM1_TAU_MS n))) := by
  simp only [Dev.sltLive, Bool.or_eq_false_iff, beq_eq_false_iff_ne] at h
  unfold Dev.modelStep
  dsimp only
  rw [if_neg h.2, if_neg h.1, add_zero]

theorem rSLT_LIM1_ne_rSLT_MEAS (n : Nat) : rSLT_LIM1 n ≠ rSLT_MEAS n := by simp only [rSLT_LIM1, rSLT_MEAS]; omega

theorem rSLT_STS_ne_rSLT_MEAS (n : Nat) : rSLT_STS n ≠ rSLT_MEAS n := by simp only [rSLT_STS, rSLT_MEAS]; omega

theorem not_hubReg_rSLT_STS {n : Nat} (hn : n < 48) : ¬ HubReg (rSLT_STS n) := by simp only [HubReg, rSLT_STS]; omega

section
variable (d : Dev) {n : Nat}

theorem Dev.sltState_setTsns (b : Bool) : (d.setFlag (fSLT_STS_TSNS_OK n) b).sltState n = d.sltState n :=
  d.get_setFlag_of_disjoint b (.inl (by simp only [fSLT_STS_STATE, fSLT_STS_TSNS_OK]; decide))

theorem Dev.sltState_setMeas {f : Fld} (v : Nat) (hf : f.reg = rSLT_MEAS n) : (d.set f v).sltState n = d.sltState n :=
  d.get_set_of_ne v (hf ▸ rSLT_STS_ne_rSLT_MEAS n)

theorem Dev.sltState_sltRecord (sev code : Nat) (hn : n < 48) : (d.sltRecord n sev code).sltState n = d.sltState n :=
  (d.records_raise _).get_eq _ (not_hubReg_rSLT_STS hn)

theorem Dev.sltState_thermistor (q : Int) (hn : n < 48) : (d.thermistor n q).sltState n = d.sltState n := by
  unfold Dev.thermistor
  split
  · split
    · exact (Dev.sltState_setMeas _ _ rfl).trans (d.sltState_setTsns true)
    · exact (Dev.sltState_sltRecord _ _ _ hn).trans ((Dev.sltState_setMeas _ _ rfl).trans (d.sltState_setTsns false))
  · exact (Dev.sltState_setMeas _ _ rfl).trans (d.sltState_setTsns false)

theorem Dev.sltLive_congr {d e : Dev} (h : e.sltState n = d.sltState n) : e.sltLive n = d.sltLive n := by
  unfold Dev.sltLive
  rw [h]

/-- What a poll of slot n reads. -/
def Dev.measured (d : Dev) (n cur vout : Nat) : Dev := (d.set (fSLT_MEAS_CURRENT n) cur).set (fSLT_MEAS_VOUT n) vout

/-- A slot whose model has been updated. -/
def Dev.remodelled (d : Dev) (n : Nat) (t : Int) : Dev := d.updSlt n (fun x => { x with model := t })

theorem Dev.sltState_measured (cur vout : Nat) : (d.measured n cur vout).sltState n = d.sltState n :=
  (Dev.sltState_setMeas _ vout rfl).trans (d.sltState_setMeas cur rfl)

theorem Dev.get_measured_of_ne {f : Fld} (cur vout : Nat) (hf : f.reg ≠ rSLT_MEAS n) : (d.measured n cur vout).get f = d.get f :=
  (Dev.get_set_of_ne _ vout hf).trans (d.get_set_of_ne cur hf)

theorem Dev.get_measured_current (cur : BitVec 12) (vout : Nat) : (d.measured n cur.toNat vout).get (fSLT_MEAS_CURRENT n) = cur.toNat := by
  unfold Dev.measured
  rw [Dev.get_set_of_disjoint _ _ (.inl (le_refl 12)), Dev.get_set_self]
  exact Nat.mod_eq_of_lt cur.isLt

theorem Dev.get_measured_vout (cur : Nat) (vout : BitVec 12) : (d.measured n cur vout.toNat).get (fSLT_MEAS_VOUT n) = vout.toNat := by
  unfold Dev.measured
  rw [Dev.get_set_self]
  exact Nat.mod_eq_of_lt vout.isLt

theorem Dev.fetUpdate_of_off {d : Dev} {n cur vout : Nat} (q : Int) (hn : n < 48) (huse : d.sltUse n = (true, d)) (hoff : d.sltLive n = false) :
    d.fetUpdate n cur vout q = ((d.measured n cur vout).remodelled n ((d.measured n cur vout).modelStep n cur vout)).thermistor n q := by
  have hlive : (((d.measured n cur vout).remodelled n ((d.measured n cur vout).modelStep n cur vout)).thermistor n q).sltLive n = false := by
    rw [Dev.sltLive_congr (Dev.sltState_thermistor _ q hn), ← hoff]
    exact Dev.sltLive_congr (d.sltState_measured cur vout)
  unfold Dev.fetUpdate
  rw [huse]
  dsimp only
  rw [if_pos rfl]
  exact if_neg (by rw [Bool.and_eq_true, not_and]; intro h; exact absurd (h.symm.trans hlive) (by decide))

theorem Dev.model_remodelled {d : Dev} {n cur vout : Nat} (hoff : d.sltLive n = false) :
    (((d.measured n cur vout).remodelled n ((d.measured n cur vout).modelStep n cur vout)).slt n).model =
      (d.slt n).model + (70000000 - (d.slt n).model) / (100 * (d.get (fSLT_LIM1_TAU_MS n))) := by
  unfold Dev.remodelled
  rw [Dev.slt_updSlt, Dev.modelStep_of_off _ _ ((Dev.sltLive_congr (d.sltState_measured cur vout)).trans hoff),
    d.get_measured_of_ne cur vout (rSLT_LIM1_ne_rSLT_MEAS n)]
  rfl

end

/-- Settles O9: the packets pass their checks, and the model of a slot that carries no current moves toward 70 degrees without a trip. -/
theorem slotCommandsComplete : Obligations.SlotCommandsComplete := by
  unfold Obligations.SlotCommandsComplete
  refine ⟨fun s c ha _ huse hok hoff => exec_slotEnable_of_off ha huse hok hoff, fun s c ha hn hon => exec_slotDisable_of_on ha hn hon,
    fun s c r ha hn hok hr => exec_slotLimits_of_legal ha hn hok hr, fun s n cur vout th huse hoff =>
    ⟨(s.dev.measured n.val cur.toNat vout.toNat).remodelled n.val ((s.dev.measured n.val cur.toNat vout.toNat).modelStep n.val cur.toNat vout.toNat),
      ?_, s.dev.get_measured_current cur vout.toNat, s.dev.get_measured_vout cur.toNat vout, Dev.model_remodelled hoff⟩⟩
  change execFetModelUpdate n cur vout th s = _
  unfold execFetModelUpdate
  rw [run_eq, Dev.fetUpdate_of_off th n.isLt huse hoff]

end Sys2Proof.Machine
end


section
/-! Power, heat and sleep (16_power_thermal.md R384 to R403): the commands complete. -/

namespace Sys2Proof.Machine

/-! ### Domains and P-levels (R384, R388, R389) -/

section
variable (d : Dev) (fast slow deep : Nat)

/-- PWR_LIMITS as they are written. -/
def Dev.limited (d : Dev) (fast slow deep : Nat) : Dev :=
  ((d.set fPWR_LIMITS_FASTEST fast).set fPWR_LIMITS_SLOWEST slow).set fPWR_LIMITS_DEEPEST deep

theorem Dev.setLimits_csr : (d.setLimits fast slow deep).csr = ((d.limited fast slow deep).set fPWR_PSTS_FW_REQ
    (min (max ((d.limited fast slow deep).get fPWR_PSTS_FW_REQ) fast) slow)).csr := rfl

theorem Dev.get_limited_fwReq : (d.limited fast slow deep).get fPWR_PSTS_FW_REQ = d.get fPWR_PSTS_FW_REQ := by
  unfold Dev.limited
  rw [Dev.get_set_of_ne _ _ (by decide), Dev.get_set_of_ne _ _ (by decide), Dev.get_set_of_ne _ _ (by decide)]

theorem Dev.get_setLimits_of_limits {f : Fld} (hf : f.reg = rPWR_LIMITS) :
    (d.setLimits fast slow deep).get f = (d.limited fast slow deep).get f := by
  rw [Dev.get_congr (d.setLimits_csr fast slow deep), Dev.get_set_of_ne _ _ (by rw [hf]; decide)]

theorem Dev.get_limited : (d.limited fast slow deep).get fPWR_LIMITS_FASTEST = fast % 4 ∧
    (d.limited fast slow deep).get fPWR_LIMITS_SLOWEST = slow % 4 ∧ (d.limited fast slow deep).get fPWR_LIMITS_DEEPEST = deep % 4 := by
  unfold Dev.limited
  refine ⟨?_, ?_, ?_⟩
  · rw [Dev.get_set_of_disjoint _ _ (by decide), Dev.get_set_of_disjoint _ _ (by decide), Dev.get_set_self]
    rfl
  · rw [Dev.get_set_of_disjoint _ _ (by decide), Dev.get_set_self]
    rfl
  · rw [Dev.get_set_self]
    rfl

theorem Dev.get_setLimits_fwReq (hslow : slow ≤ 3) :
    (d.setLimits fast slow deep).get fPWR_PSTS_FW_REQ = min (max (d.get fPWR_PSTS_FW_REQ) fast) slow := by
  rw [Dev.get_congr (d.setLimits_csr fast slow deep), Dev.get_set_self, d.get_limited_fwReq]
  exact Nat.mod_eq_of_lt (lt_of_le_of_lt (Nat.min_le_right _ _) (Nat.lt_succ_of_le hslow))

end

theorem exec_pwrLimits_of_legal {s : State} {c : Pkt} (ha : Admits s.dev rowPwrLimits c) (hfast : c.at_ 0 1 ≤ c.at_ 1 1) (hslow : c.at_ 1 1 ≤ 3)
    (hdeep : c.at_ 2 1 ≤ 3) : exec (.pwrLimits c) s =
      .next (s.after ((s.dev.setLimits (c.at_ 0 1) (c.at_ 1 1) (c.at_ 2 1)).answered rowPwrLimits c 0 [])) := by
  have hcheck : firstBad [(decide (3 < c.at_ 0 1), stInvalidField, 16), (decide (3 < c.at_ 1 1), stInvalidField, 17),
      (decide (3 < c.at_ 2 1), stInvalidField, 18), (decide (c.at_ 1 1 < c.at_ 0 1), stInvalidField, 16)] = none := by
    rw [decide_eq_false (by omega), decide_eq_false (by omega), decide_eq_false (by omega), decide_eq_false (by omega)]
    rfl
  change execPwrLimits c s = _
  exact run_command_done ha hcheck rfl

/-- Settles O10: each event acts under its condition, and PWR_LIMITS writes its three fields and firmware's own request. -/
theorem powerCommandsComplete : Obligations.PowerCommandsComplete := by
  unfold Obligations.PowerCommandsComplete
  refine ⟨fun s k hw hon => ?_, fun s k hw hon hidle => ?_, fun s h => ?_, fun s h => ?_, fun s c ha hfast hslow hdeep =>
    ⟨_, exec_pwrLimits_of_legal ha hfast hslow hdeep, ?_, ?_, ?_, Dev.get_setLimits_fwReq _ _ _ _ hslow⟩⟩
  · change execDomainPowerUpDone k s = _
    exact run_when_of_true (by rw [hw, hon]; rfl)
  · change execDomainPowerDownDone k s = _
    exact run_when_of_true (by rw [hw, hon, hidle]; rfl)
  · change execVfSequencerStep s = _
    unfold execVfSequencerStep Dev.vfStep
    rw [run_eq, if_neg (by omega), if_pos h]
  · change execVfSequencerStep s = _
    unfold execVfSequencerStep Dev.vfStep
    rw [run_eq, if_neg (by omega), if_neg (by omega)]
  · rw [Dev.get_setLimits_of_limits _ _ _ _ rfl, (Dev.get_limited _ _ _ _).1, Nat.mod_eq_of_lt (by omega)]
  · rw [Dev.get_setLimits_of_limits _ _ _ _ rfl, (Dev.get_limited _ _ _ _).2.1, Nat.mod_eq_of_lt (by omega)]
  · rw [Dev.get_setLimits_of_limits _ _ _ _ rfl, (Dev.get_limited _ _ _ _).2.2, Nat.mod_eq_of_lt (by omega)]

/-! ### Throttling (R402, R403) -/

/-- A thermal stage before its record. -/
def Dev.staged (d : Dev) (k : Nat) : Dev :=
  let d := (d.set fTHM_STS_STAGE k).set fPWR_PSTS_THERM_REQ (if k = 0 then 0 else d.get (fTHM_STAGE_PLEVEL k))
  d.set fQOS_THERM_CAP_PM (if k = 0 then 1000 else max 100 (d.get (fTHM_STAGE_CAP_PM k)))

theorem Dev.setStage_of_ne {d : Dev} {k : Nat} (h : k ≠ d.get fTHM_STS_STAGE) :
    d.setStage k = (d.staged k).raise { src := src 37 3, sev := 1, code := 403, obj := k } := by
  unfold Dev.setStage
  rw [if_neg (Ne.symm h)]
  rfl

section
variable (d : Dev) {k : Nat} (hk : k < 4)
include hk

theorem rTHM_STAGE_ne : rTHM_STAGE k ≠ rTHM_STS ∧ rTHM_STAGE k ≠ rPWR_PSTS := by
  simp only [rTHM_STAGE, rTHM_STS, rPWR_PSTS]
  omega

theorem Dev.get_staged_stage : (d.staged k).get fTHM_STS_STAGE = k := by
  unfold Dev.staged
  rw [Dev.get_set_of_ne _ _ (by decide), Dev.get_set_of_ne _ _ (by decide), Dev.get_set_self]
  exact Nat.mod_eq_of_lt hk

omit hk in
theorem Dev.get_staged_thermReq :
    (d.staged k).get fPWR_PSTS_THERM_REQ = if k = 0 then 0 else d.get (fTHM_STAGE_PLEVEL k) := by
  unfold Dev.staged
  rw [Dev.get_set_of_ne _ _ (by decide), Dev.get_set_self]
  refine Nat.mod_eq_of_lt ?_
  split
  · decide
  · exact d.get_lt (fTHM_STAGE_PLEVEL k)

theorem Dev.get_staged_cap :
    (d.staged k).get fQOS_THERM_CAP_PM = if k = 0 then 1000 else max 100 (d.get (fTHM_STAGE_CAP_PM k)) := by
  unfold Dev.staged
  rw [Dev.get_set_self, Dev.get_set_of_ne _ _ (rTHM_STAGE_ne hk).2, Dev.get_set_of_ne _ _ (rTHM_STAGE_ne hk).1]
  refine Nat.mod_eq_of_lt ?_
  split
  · decide
  · exact Nat.max_lt.2 ⟨by decide, d.get_lt (fTHM_STAGE_CAP_PM k)⟩

end

/-! ### The thresholds (R400) -/

theorem Dev.pairUse_of_no_inj {d : Dev} (h : d.flt.inj = []) (k kc : Nat) : d.pairUse k kc = (d.pairMatch k kc, d) := by
  unfold Dev.pairUse
  rw [h]
  rfl

/-- A pair that was written holds when it is read back (R331). -/
theorem Dev.readBack_of_wrPair {d : Dev} {k kc v : Nat} (h : d.flt.inj = []) (hk : k ≠ kc) (hv : v ≤ 0xffffffff) :
    (d.wrPair k kc v).readBack [(k, kc)] = (true, d.wrPair k kc v) := by
  have huse : (d.wrPair k kc v).pairUse k kc = (true, d.wrPair k kc v) := by
    rw [Dev.pairUse_of_no_inj (d := d.wrPair k kc v) h, d.pairMatch_wrPair k kc v hk hv]
  unfold Dev.readBack
  rw [List.foldl_cons, List.foldl_nil]
  simp only [huse, Bool.and_true, if_true]

/-- The thresholds and the grace time that THM_THRESH_SET leaves. -/
def Dev.threshSet (d : Dev) (v grace : Nat) : Dev :=
  ((d.wrPair rTHM_THRESH rTHM_THRESH_C v).set fTHM_CTL_GRACE_US grace).cfgRegs [rTHM_THRESH, rTHM_CTL]

theorem Dev.cfgRegs_csr (d : Dev) (ks : List Nat) : (d.cfgRegs ks).csr = d.csr := rfl

theorem Dev.threshSet_csr (d : Dev) (v grace : Nat) :
    (d.threshSet v grace).csr = ((d.wrPair rTHM_THRESH rTHM_THRESH_C v).set fTHM_CTL_GRACE_US grace).csr := Dev.cfgRegs_csr _ _

theorem Dev.rd_threshSet (d : Dev) (v grace : Nat) : (d.threshSet v grace).rd rTHM_THRESH = v ∧
    (d.threshSet v grace).rd rTHM_THRESH_C = 2 ^ 32 - 1 - v := by
  rw [Dev.rd_congr (d.threshSet_csr v grace), Dev.rd_congr (d.threshSet_csr v grace), Dev.rd_set_of_ne _ _ _ (by decide),
    Dev.rd_set_of_ne _ _ _ (by decide)]
  unfold Dev.wrPair
  rw [Dev.rd_wr_of_ne _ _ (by decide), Dev.rd_wr_self, Dev.rd_wr_self]
  exact ⟨rfl, rfl⟩

theorem Dev.get_threshSet_grace (d : Dev) (v : Nat) {grace : Nat} (h : grace ≤ 10000) : (d.threshSet v grace).get fTHM_CTL_GRACE_US = grace := by
  rw [Dev.get_congr (d.threshSet_csr v grace), Dev.get_set_self]
  exact Nat.mod_eq_of_lt (lt_of_le_of_lt h (by decide))

theorem exec_thmThreshSet_of_legal {s : State} {c : Pkt} (ha : Admits s.dev rowThmThresh c) (hinj : s.dev.flt.inj = []) (h1 : 50 ≤ c.at_ 0 1)
    (h2 : c.at_ 0 1 < c.at_ 1 1) (h3 : c.at_ 1 1 ≤ 110) (h4 : c.at_ 0 1 + c.at_ 3 1 + 2 ≤ c.at_ 1 1) (h5 : c.at_ 1 1 < c.at_ 2 1)
    (h6 : c.at_ 2 1 ≤ 118) (h7 : c.at_ 1 1 + c.at_ 3 1 + 2 ≤ c.at_ 2 1) (h8 : 1 ≤ c.at_ 3 1) (h9 : c.at_ 3 1 ≤ 8) (h10 : 10 ≤ c.at_ 8 2)
    (h11 : c.at_ 8 2 ≤ 10000) : exec (.thmThreshSet c) s =
      .next (s.after ((s.dev.threshSet (c.at_ 0 4 % 2 ^ 28) (c.at_ 8 2)).evalConds.answered rowThmThresh c 0 [])) := by
  have hcheck : firstBad [(decide (c.at_ 0 1 < 50), stInvalidField, 16),
      (decide (c.at_ 1 1 ≤ c.at_ 0 1) || decide (110 < c.at_ 1 1) || decide (c.at_ 1 1 < c.at_ 0 1 + c.at_ 3 1 + 2), stInvalidField, 17),
      (decide (c.at_ 2 1 ≤ c.at_ 1 1) || decide (118 < c.at_ 2 1) || decide (c.at_ 2 1 < c.at_ 1 1 + c.at_ 3 1 + 2), stInvalidField, 18),
      (c.at_ 3 1 == 0 || decide (8 < c.at_ 3 1), stInvalidField, 19),
      (decide (c.at_ 8 2 < 10) || decide (10000 < c.at_ 8 2), stInvalidField, 24)] = none := by
    rw [decide_eq_false (by omega), decide_eq_false (by omega), decide_eq_false (by omega), decide_eq_false (by omega), decide_eq_false (by omega),
      decide_eq_false (by omega), decide_eq_false (by omega), beq_eq_false_iff_ne.2 (by omega), decide_eq_false (by omega),
      decide_eq_false (by omega), decide_eq_false (by omega)]
    rfl
  have hread := Dev.readBack_of_wrPair (d := s.dev) (k := rTHM_THRESH) (kc := rTHM_THRESH_C) (v := c.at_ 0 4 % 2 ^ 28) hinj (by decide)
    (le_of_lt (lt_of_lt_of_le (Nat.mod_lt _ (by decide)) (by decide)))
  change execThmThreshSet c s = _
  unfold execThmThreshSet
  refine (run_command_stored (e := s.dev.wrPair rTHM_THRESH rTHM_THRESH_C (c.at_ 0 4 % 2 ^ 28)) (ps := [(rTHM_THRESH, rTHM_THRESH_C)])
    (f := fun d => ((d.set fTHM_CTL_GRACE_US (c.at_ 8 2)).cfgRegs [rTHM_THRESH, rTHM_CTL]).evalConds) ha hcheck rfl).trans ?_
  rw [hread, if_pos rfl]
  rfl

/-- Settles O11: a stage writes its number, its P-level request and its cap, and the thresholds that were written hold when read back. -/
theorem thermalCommandsComplete : Obligations.ThermalCommandsComplete := by
  unfold Obligations.ThermalCommandsComplete
  refine ⟨fun s hload hthrot => ?_, fun s hthrot hst => ?_, fun s hthrot hst hhold => ?_, fun d k hk hne => ⟨d.staged k, Dev.setStage_of_ne hne,
    d.get_staged_stage hk, d.get_staged_thermReq, d.get_staged_cap hk⟩, fun s l => rfl,
    fun s c ha hinj h1 h2 h3 h4 h5 h6 h7 h8 h9 h10 h11 => ⟨_, exec_thmThreshSet_of_legal ha hinj h1 h2 h3 h4 h5 h6 h7 h8 h9 h10 h11,
      (Dev.rd_threshSet _ _ _).1, (Dev.rd_threshSet _ _ _).2, Dev.get_threshSet_grace _ _ h11⟩⟩
  · change execGraceExpiry s = _
    exact run_when_of_true (by rw [hload, hthrot]; rfl)
  · change execThermalStepDown s = _
    exact run_when_of_true (by rw [hthrot, Bool.true_and, bne_iff_ne]; exact hst)
  · change execThermalStepUp s = _
    refine run_when_of_true ?_
    rw [hthrot, bne_iff_ne.2 hst, Bool.not_false, Bool.true_and, Bool.true_and]
    obtain hhold | hne := hhold
    · rw [hhold]
      rfl
    · rw [beq_eq_false_iff_ne.2 hne, Bool.and_false]
      rfl

/-! ### Sleep (R392 to R394) -/

theorem Dev.foldl_pwr {α : Type} {f : Dev → α → Dev} (h : ∀ d x, (f d x).pwr = d.pwr) (l : List α) (d : Dev) : (l.foldl f d).pwr = d.pwr := by
  induction l generalizing d with
  | nil => rfl
  | cons x l ih => exact (ih (f d x)).trans (h d x)

theorem Dev.pmuPower_pwr (d : Dev) : d.pmuPower.pwr = d.pwr := by
  refine Dev.foldl_pwr (fun d u => ?_) _ d
  dsimp only
  split
  · rfl
  · split
    · rfl
    · rfl

/-- A ring is emptied. -/
def Dev.ringClear (d : Dev) (n : Nat) : Dev := ((d.set (fRING_PTR_WR n) 0).set (fRING_PTR_RD n) 0).set (fRING_PTR_OCC n) 0

theorem Dev.ringClear_pwr (d : Dev) (n : Nat) : (d.ringClear n).pwr = d.pwr := by
  unfold Dev.ringClear
  rw [Dev.set_pwr, Dev.set_pwr, Dev.set_pwr]

theorem Dev.ringsClear_eq (d : Dev) : d.ringsClear = (List.range 8).foldl Dev.ringClear { d with rings := [] } := rfl

theorem Dev.ringsClear_pwr (d : Dev) : d.ringsClear.pwr = d.pwr := by
  rw [d.ringsClear_eq, Dev.foldl_pwr Dev.ringClear_pwr]

theorem Dev.beginExit_entering (d : Dev) (k : Nat) : (d.beginExit k).pwr.entering = d.pwr.entering := by
  unfold Dev.beginExit
  dsimp only
  split
  · rfl
  · rfl

/-- Table 16.5 steps 6 and 7 of a device whose entry is over: the state is in force. -/
def Dev.asleep (d : Dev) (st : Nat) : Dev :=
  ((d.set fPWR_SLEEP_STS_STATE st).bumpSat (if st = 2 then fPWR_ENTRIES_S2 else fPWR_ENTRIES_S3) 1).emit (.ddr 9 0 0 [])

/-- In S3 the main rails and the rings lose power. -/
def Dev.railsDown (d : Dev) : Dev :=
  (Dev.ringsClear { d with pin := { d.pin with mainEn := false, mainOk := false, mainUp := false } }).pmuPower

theorem Dev.railsDown_pwr (d : Dev) : d.railsDown.pwr = d.pwr := (Dev.pmuPower_pwr _).trans (Dev.ringsClear_pwr _)

/-- A level wake that is active starts the exit. -/
def Dev.wokenAtOnce (d : Dev) (st : Nat) : Dev :=
  if d.pwr.timerWake then d.beginExit 6
  else if st = 2 && heads.any (fun p => (d.portOf p).up && !(d.portOf p).inL1) then d.beginExit 1 else d

theorem Dev.wokenAtOnce_entering (d : Dev) (st : Nat) : (d.wokenAtOnce st).pwr.entering = d.pwr.entering := by
  unfold Dev.wokenAtOnce
  split
  · exact d.beginExit_entering 6
  · split
    · exact d.beginExit_entering 1
    · rfl

/-- The entry is over. -/
def Dev.entered (d : Dev) : Dev := { d with pwr := { d.pwr with entering := none } }

theorem Acc.sleepCommit_of_entering {a : Acc} {st : Nat} {bg : Option Nat} (h : a.dev.pwr.entering = some (st, bg)) :
    a.sleepCommit = (a.sleepFlush st).upd (fun d =>
      (if st = 3 then (d.entered.asleep st).railsDown else d.entered.asleep st).wokenAtOnce st) := by
  unfold Acc.sleepCommit
  rw [h]
  rfl

theorem Acc.sleepCommit_entering {a : Acc} {st : Nat} {bg : Option Nat} (h : a.dev.pwr.entering = some (st, bg)) :
    a.sleepCommit.dev.pwr.entering = none := by
  rw [Acc.sleepCommit_of_entering h]
  refine (Dev.wokenAtOnce_entering _ st).trans ?_
  split
  · exact congrArg PwrS.entering (Dev.railsDown_pwr _)
  · rfl

/-- The device whose request for state st lapses, before the request's reply. -/
def Dev.lapsed (d : Dev) (st : Nat) : Dev :=
  let e := d.set fPWR_SLEEP_STS_BLOCK (d.sleepBlock st)
  let x := e.setTxq 2 ((e.txq 2).filter (fun m => m.mtype != 0x24))
  { x with pwr := { x.pwr with sleepReq := none }, pair := { x.pair with sleepReq := x.pair.sleepReq && !(e.txq 2).any (fun m => m.mtype == 0x24) } }

theorem Dev.sleepLapse_of_request {d : Dev} {st : Nat} {bg : Option Nat} (h : d.pwr.sleepReq = some (st, bg)) :
    d.sleepLapse = (d.lapsed st).bgDoneOpt bg stSleepBlocked noDetail [] := by
  unfold Dev.sleepLapse
  rw [h]
  rfl

theorem Dev.get_lapsed_block (d : Dev) (st : Nat) : (d.lapsed st).get fPWR_SLEEP_STS_BLOCK = d.sleepBlock st % 8 := by
  have hcsr : (d.lapsed st).csr = (d.set fPWR_SLEEP_STS_BLOCK (d.sleepBlock st)).csr := rfl
  rw [Dev.get_congr hcsr, Dev.get_set_self]
  rfl

theorem Acc.wake_of_entering {a : Acc} {k st : Nat} {bg : Option Nat} (h : a.dev.pwr.entering = some (st, bg)) (hw : a.dev.wakes k st = true) :
    a.wake k = heads.foldl Acc.releaseRx (a.upd (fun d => d.abortSleep k)) := by
  simp only [Acc.wake, h, hw, if_true]

theorem Acc.wake_of_asleep {a : Acc} {k : Nat} (he : a.dev.pwr.entering = none) (hst : a.dev.get fPWR_SLEEP_STS_STATE ≠ 0)
    (hx : a.dev.pwr.exiting = false) (hw : a.dev.wakes k (a.dev.get fPWR_SLEEP_STS_STATE) = true) : a.wake k = a.upd (fun d => d.beginExit k) := by
  simp [Acc.wake, he, Acc.upd, Dev.rouse, hst, hx, hw]

/-- The device whose management timer has reached zero with a pulse. -/
def Dev.timerPulsed (d : Dev) : Dev := { d.set fPWR_TIMER_MS 0 with pwr := { d.pwr with timerWake := false } }

theorem exec_pwrTimerExpiry_of_pulse {s : State} (hms : s.dev.get fPWR_TIMER_MS ≠ 0) (hmode : s.dev.flag fPWR_WAKE_CTL_TIMER_MODE = true) :
    exec .pwrTimerExpiry s = .next (s.afterAcc ((s.acc.upd (fun _ => s.dev.timerPulsed)).wake 7)) := by
  have hdone : s.acc.timerDone = (s.acc.upd (fun _ => s.dev.timerPulsed)).wake 7 := by
    unfold Acc.timerDone
    rw [State.acc_dev, hmode]
    rfl
  change execPwrTimerExpiry s = _
  rw [← hdone]
  exact runAcc_when_of_true (bne_iff_ne.2 hms)

theorem exec_pwrSleep_of_legal {s : State} {c : Pkt} (ha : Admits s.dev rowPwrSleep c) (h1 : 1 ≤ c.at_ 0 1) (h3 : c.at_ 0 1 ≤ 3) :
    exec (.pwrSleep c) s = .next (s.after ((s.dev.wantSleep (c.at_ 0 1) (some s.dev.mgt.nextBg)).running rowPwrSleep c [c.at_ 0 1])) := by
  have hflags : c.flags.toNat = 0 := by rw [ha.act]; rfl
  have hcheck : firstBad [(c.at_ 0 1 == 0 || decide (3 < c.at_ 0 1), stInvalidField, 16),
      (c.flags.toNat == 1 && s.dev.sleepBlock (c.at_ 0 1) != 0, stSleepBlocked, noDetail)] = none := by
    rw [beq_eq_false_iff_ne.2 (by omega), decide_eq_false (by omega), hflags]
    rfl
  change execPwrSleep c s = _
  exact run_command_runs ha hcheck rfl

/-- Settles O12: a request that lapses leaves its cause, an entry that commits or aborts is over, and a wake of a sleeping controller starts
its exit. -/
theorem sleepCommandsComplete : Obligations.SleepCommandsComplete := by
  unfold Obligations.SleepCommandsComplete
  refine ⟨fun s c ha h1 h3 => exec_pwrSleep_of_legal ha h1 h3, fun s st bg h => ⟨s.dev.lapsed st, ?_, rfl, s.dev.get_lapsed_block st⟩,
    fun s st bg h => ⟨rfl, Acc.sleepCommit_entering h⟩, fun s k st bg h hw => ?_, fun s k he hst hx hw => ?_, fun s hms hmode =>
    ⟨s.dev.timerPulsed, exec_pwrTimerExpiry_of_pulse hms hmode, ?_, rfl⟩, fun s p hup => ?_⟩
  · change execSleepRequestLapse s = _
    unfold execSleepRequestLapse
    rw [run_eq, Dev.sleepLapse_of_request h]
  · change execWakeEvent k s = _
    unfold execWakeEvent
    rw [runAcc_eq, Acc.wake_of_entering (a := s.acc) h hw]
    rfl
  · change execWakeEvent k s = _
    unfold execWakeEvent
    rw [runAcc_eq, Acc.wake_of_asleep (a := s.acc) he hst hx hw]
  · exact (s.dev.get_set_self fPWR_TIMER_MS 0).trans rfl
  · change execLinkL1Entry p s = _
    exact run_when_of_true hup

end Sys2Proof.Machine
end


section
/-! Training, scheduling and reads of DRAM (05_dram_scheduling.md R114 to R131, 06_memory_protection.md R135 to R144): the commands complete. -/

namespace Sys2Proof.Machine

/-! ### Training and retraining (R114, R127 to R131) -/

theorem Dev.settlePop_of_full {d : Dev} {spd : List (Option Spd)} (h : ∀ n < 48, dimmOk ((List.range 48).map (d.dimmAt spd)) n = true) :
    d.settlePop spd = (d.set fMCH_POP_STS_RESULT 1).setPop ((List.range 48).map (d.dimmAt spd)) true := by
  unfold Dev.settlePop
  exact if_pos (List.all_eq_true.2 fun n hn => h n (List.mem_range.1 hn))

theorem Dev.refreshDue_of_postponed {d : Dev} {ch sub r : Nat} (hw : d.rankWaits (subKey ch sub) r = true)
    (hp : cnt (d.subOf (subKey ch sub)).post r < d.postpone ch) :
    d.refreshDue ch sub r = d.updSub (subKey ch sub) (fun x => { x with post := setCnt x.post r (cnt x.post r + 1) }) := by
  unfold Dev.refreshDue
  dsimp only
  rw [if_pos hw, if_pos hp]
  rfl

section
variable {d : Dev} {ch r : Nat} {t : Int}

theorem Dev.drift_of_first (h : (d.rankOf (rankKey ch r)).trainTemp = none) :
    d.drift ch r t = d.updRank (rankKey ch r) (fun x => { x with trainTemp := some t }) := by
  unfold Dev.drift
  dsimp only
  rw [h]

theorem Dev.drift_of_far {t0 : Int} (h : (d.rankOf (rankKey ch r)).trainTemp = some t0) (hc : d.get (fMCH_TRN_DRIFT_C ch) ≠ 0)
    (ht : max (d.get (fMCH_TRN_DRIFT_C ch)) 2 ≤ (t - t0).natAbs) : d.drift ch r t = d.retrainAt ch r (some t) := by
  unfold Dev.drift
  dsimp only
  rw [h]
  exact if_pos ⟨hc, ht⟩

end

theorem rankOn {s : State} {ch : Chan} {r : BitVec 3} (hon : s.dev.dramOn = true) (hr : s.dev.rankHere ch.val r.toNat = true) :
    (s.dev.dramOn && s.dev.rankHere ch.val r.toNat) = true := by
  rw [hon, hr]
  rfl

/-- Settles O13: each event acts under its condition, and an interval of a rank with requests is postponed while it may be. -/
theorem trainingCommandsComplete : Obligations.TrainingCommandsComplete := by
  unfold Obligations.TrainingCommandsComplete
  refine ⟨fun s spd hfw hres => ?_, fun d spd h => Dev.settlePop_of_full h, fun s htr hres => ?_,
    fun s htr hdone hboot => exec_initializationComplete_eq htr hdone hboot, fun s ch r hon hr => ⟨?_, ?_, ?_, ?_, ?_, ?_⟩,
    fun d ch sub r hw hp => Dev.refreshDue_of_postponed hw hp, fun s ch r t hon hr ht => ?_, fun s ch r t t0 hon hr ht0 hc ht => ?_,
    fun s w ch h => ?_, fun s ch r h => ?_, fun s c ha hch hr hhere => ?_⟩
  · change execPopulationSettle spd s = _
    exact run_when_of_true (by rw [hfw, hres]; rfl)
  · change execTrainingComplete s = _
    refine runAcc_when_of_true ?_
    rw [State.acc_dev, htr]
    simpa using hres
  · change execRefreshInterval ch r s = _
    exact run_when_of_true (rankOn hon hr)
  · change execMr4Read ch r .x1 s = _
    exact run_when_of_true (rankOn hon hr)
  · change execMr4Read ch r .x2 s = _
    exact run_when_of_true (rankOn hon hr)
  · change execMr4Read ch r .over s = _
    exact run_when_of_true (rankOn hon hr)
  · change execZqCalibration ch r s = _
    exact run_when_of_true (rankOn hon hr)
  · change execDqsOscillatorTracking ch r s = _
    exact run_when_of_true (rankOn hon hr)
  · change execTemperatureDriftRetrain ch r t s = _
    rw [← Dev.drift_of_first ht]
    exact run_when_of_true (rankOn hon hr)
  · change execTemperatureDriftRetrain ch r t s = _
    refine (run_when_of_true (rankOn hon hr)).trans ?_
    rw [Dev.drift_of_far ht0 hc ht]
    rfl
  · change execRetrainNow w ch s = _
    unfold execRetrainNow
    rw [run_eq, Dev.writeBy_allowed _ _ _ _ h]
  · change execRankRetrainDone ch r s = _
    exact run_when_of_true h
  · have hcheck : firstBad [(decide (23 < c.at_ 0 1), stInvalidField, 16),
        (decide (7 < c.at_ 1 1) || !s.dev.rankHere (c.at_ 0 1) (c.at_ 1 1), stInvalidField, 17)] = none := by
      rw [decide_eq_false (by omega), decide_eq_false (by omega), hhere]
      rfl
    change execRankRetrain c s = _
    exact run_command_runs ha hcheck rfl

/-! ### The scheduler (R117 to R127) -/

theorem Dev.dropStale_of_fresh {d : Dev} {ch sub : Nat} (h : ∀ q ∈ (d.subOf (subKey ch sub)).mq, q.stale = false) : d.dropStale ch sub = d := by
  have hnil : (d.subOf (subKey ch sub)).mq.filter (fun r => r.stale && r.wr.isSome) = [] :=
    List.filter_eq_nil_iff.2 fun q hq => by rw [h q hq]; exact Bool.false_ne_true
  unfold Dev.dropStale
  rw [hnil]
  rfl

theorem Dev.makeUp_of_none {d : Dev} {ch sub : Nat} (c : List Cand) (h : ∀ i < 8, cnt (d.subOf (subKey ch sub)).post i = 0) :
    d.makeUp ch sub c = d :=
  foldl_eq_self _ fun r hr => if_neg fun hne => hne.1 (h r (List.mem_range.1 hr))

/-- The first rank that forced refreshes wait for. -/
theorem find_forced {f : Nat → Nat} {r : Nat} (hr : r < 8) (hne : f r ≠ 0) (hlt : ∀ i < r, f i = 0) :
    (List.range 8).find? (fun i => f i != 0) = some r := by
  rw [List.find?_range_eq_some]
  exact ⟨bne_iff_ne.2 hne, List.mem_range.2 hr, fun i hi => by rw [hlt i hi]; rfl⟩

theorem Acc.upd_id {a : Acc} {f : Dev → Dev} (h : f a.dev = a.dev) : a.upd f = a := by
  unfold Acc.upd
  rw [h]

theorem Acc.slot_of_forced {a : Acc} {ch sub r : Nat} (legal : List Nat) (hmq : ∀ q ∈ (a.dev.subOf (subKey ch sub)).mq, q.stale = false)
    (hpost : ∀ i < 8, cnt (a.dev.subOf (subKey ch sub)).post i = 0) (hr : r < 8) (hne : cnt (a.dev.subOf (subKey ch sub)).forced r ≠ 0)
    (hlt : ∀ i < r, cnt (a.dev.subOf (subKey ch sub)).forced i = 0) :
    a.slot ch sub legal = a.upd (fun d => (d.updSub (subKey ch sub) (fun x => { x with forced := setCnt x.forced r (cnt x.forced r - 1) })).refreshOne
      ch sub r ((4 - cnt (a.dev.subOf (subKey ch sub)).forced r % 4) % 4)) := by
  have hdrop : a.upd (fun d => d.dropStale ch sub) = a := Acc.upd_id (Dev.dropStale_of_fresh hmq)
  have hmake : ∀ c : List Cand, a.upd (fun d => d.makeUp ch sub c) = a := fun c => Acc.upd_id (Dev.makeUp_of_none c hpost)
  unfold Acc.slot
  simp only [hdrop, hmake, find_forced hr hne hlt]
  rfl

theorem Dev.slotPick_of_urgent {d : Dev} {ch sub : Nat} (vis : List Cand) {c : List Cand} (hany : c.any (fun x => x.r.urg == 3) = true)
    (hhit : c.any (fun x => x.r.urg == 3 && (d.subOf (subKey ch sub)).hit x) = false) :
    d.slotPick ch sub vis c = (oldest (c.filter (fun x => x.r.urg == 3))).map (fun x => { c := x }) := by
  have hthree : (c.filter (fun x => x.r.urg == 3)).isEmpty = false := by
    obtain ⟨x, hx, hurg⟩ := List.any_eq_true.1 hany
    exact List.isEmpty_eq_false_iff_exists_mem.2 ⟨x, List.mem_filter.2 ⟨hx, hurg⟩⟩
  have hprefer : prefer (d.subOf (subKey ch sub)).hit (c.filter (fun x => x.r.urg == 3)) = c.filter (fun x => x.r.urg == 3) := by
    unfold prefer
    rw [List.any_filter, hhit]
    rfl
  unfold Dev.slotPick
  dsimp only
  rw [if_pos (by rw [hthree]; rfl), hprefer]

theorem SubS.command_of_open {d : SubS} {c : Cand} {r : Nat × Nat × Bool} (h : tfind d.rows c.bankKey = some r) :
    d.command c = if r.1 = c.x.row then .column else .precharge := by
  unfold SubS.command
  rw [h]

theorem SubS.command_of_closed {d : SubS} {c : Cand} (h : tfind d.rows c.bankKey = none) : d.command c = .activate := by
  unfold SubS.command
  rw [h]

theorem urgencyOf_cases (age t : Nat) : (t = 0 → urgencyOf age t = 0) ∧ (t ≠ 0 → (urgencyOf age t = 0 ↔ 2 * age < t) ∧
    (urgencyOf age t = 1 ↔ t ≤ 2 * age ∧ 4 * age < 3 * t) ∧ (urgencyOf age t = 2 ↔ 3 * t ≤ 4 * age ∧ age < t) ∧ (urgencyOf age t = 3 ↔ t ≤ age)) := by
  unfold urgencyOf
  refine ⟨fun h => if_pos h, fun h => ?_⟩
  rw [if_neg h]
  split
  · omega
  · split
    · omega
    · split
      · omega
      · omega

/-- Settles O14: with nothing stale and nothing to make up a slot takes the first rank with forced refreshes, and a request of urgency 3 comes
before the others. -/
theorem schedulerCommandsComplete : Obligations.SchedulerCommandsComplete := by
  unfold Obligations.SchedulerCommandsComplete
  refine ⟨fun s ch sub legal hon => ?_, fun a ch sub r legal hmq hpost hr hne hlt => Acc.slot_of_forced legal hmq hpost hr hne hlt,
    fun d ch sub vis c hany hhit => Dev.slotPick_of_urgent vis hany hhit,
    fun d c => ⟨fun h => SubS.command_of_closed h, fun r h => SubS.command_of_open h⟩, fun s ch sub id age => rfl, fun s ch sub c hc => ?_,
    urgencyOf_cases⟩
  · change execCommandSlotPick ch sub legal s = _
    exact runAcc_when_of_true hon
  · change execAgeCapExpiry ch sub c.r.id s = _
    exact run_when_of_true (List.any_eq_true.2 ⟨c, hc, beq_self_eq_true _⟩)

/-! ### Read data and the scrubber (R135, R138, R144) -/

section
variable {a : Acc} {ch sub id : Nat} {r : DReq} {rest : List DReq} (err : Codeword)
  (h : takeFirst (fun r => r.id == id) (a.dev.subOf (subKey ch sub)).issued = some (r, rest))
include h

theorem Acc.readData_of_buffered {dl : Nat} {t : Trans} {b : LBuf} (hpurp : r.purp = .host dl) (ht : a.dev.transOf dl = some t)
    (hw : t.wait = .dram) (hb : tfind a.dev.home.lbuf dl = some b) (hpart : b.part = none) :
    a.readData ch sub id err = a.upd (fun d => (d.updSub (subKey ch sub) (fun x => { x with issued := rest })).endRead t (b.data, b.poison) true) := by
  unfold Acc.readData
  simp only [h, hpurp]
  unfold Acc.hostReturn
  have ht' : (a.upd (fun d => d.updSub (subKey ch sub) (fun s => { s with issued := rest }))).dev.transOf dl = some t := ht
  have hb' : tfind (a.upd (fun d => d.updSub (subKey ch sub) (fun s => { s with issued := rest }))).dev.home.lbuf dl = some b := hb
  simp only [ht', hb', hw, hpart, if_true, Option.isSome_none, Bool.false_eq_true, if_false]
  rfl

theorem Acc.readData_of_clean_scrub {v : Nat} (hpurp : r.purp = .scrub 1 none) (hserved : r.served = none) (hout : a.dev.lineOut r.mpa = false)
    (hdec : rsDecode (a.line r.mpa ^^^ err) (a.dev.bankMark (a.dev.locOf (64 * r.mpa))) = .clean v) :
    a.readData ch sub id err = a.upd (fun d => (d.updSub (subKey ch sub) (fun x => { x with issued := rest })).scrubEnd r.mpa) := by
  unfold Acc.readData
  simp only [h, hpurp]
  unfold Acc.scrubReturn Acc.brought
  have hout' : (a.upd (fun d => d.updSub (subKey ch sub) (fun s => { s with issued := rest }))).dev.lineOut r.mpa = false := hout
  have hdec' : rsDecode ((a.upd (fun d => d.updSub (subKey ch sub) (fun s => { s with issued := rest }))).line r.mpa ^^^ err)
      ((a.upd (fun d => d.updSub (subKey ch sub) (fun s => { s with issued := rest }))).dev.bankMark
        ((a.upd (fun d => d.updSub (subKey ch sub) (fun s => { s with issued := rest }))).dev.locOf (64 * r.mpa))) = .clean v := hdec
  simp only [hserved, Option.getD_none, hout', Bool.false_eq_true, if_false, hdec']
  rfl

end

theorem Dev.scrub_of_cons {d : Dev} {l : Nat} {t : List Nat} (h : d.mch.scrubQ = l :: t) : d.scrub =
    ({ d.scrubRate with mch := { d.scrubRate.mch with scrubBusy := true, scrubQ := t } } : Dev).pushDram l none 6 (.scrub 1 none) 8 false none := by
  have hq : d.scrubRate.mch.scrubQ = l :: t := h
  unfold Dev.scrub
  dsimp only
  rw [hq]

theorem Dev.get_scrubRate_cursor (d : Dev) : d.scrubRate.get fMCH_SCRUB_STS_CURSOR = d.get fMCH_SCRUB_STS_CURSOR :=
  d.get_set_of_ne _ (by decide)

theorem Dev.scrub_of_nil {d : Dev} (h : d.mch.scrubQ = []) : d.scrub =
    ({ d.scrubRate with mch := { d.scrubRate.mch with scrubBusy := true } } : Dev).pushDram
      (d.redirect (d.get fMCH_SCRUB_STS_CURSOR) / 64) none 6 (.scrub 1 none) 8 false none := by
  have hq : d.scrubRate.mch.scrubQ = [] := h
  unfold Dev.scrub
  dsimp only
  rw [hq, ← d.get_scrubRate_cursor]
  rfl

/-- Settles O15: a read whose line stands in the line buffer is answered from it, and one of the scrubber that is clean ends its step. -/
theorem dramReadsComplete : Obligations.DramReadsComplete := by
  unfold Obligations.DramReadsComplete
  refine ⟨fun s ch sub id err r rest dl t b h hpurp ht hw hb hpart => ?_, fun s ch sub id err r rest v h hpurp hserved hout hdec => ?_,
    fun s hen hon hinit hbusy => ?_⟩
  · change execDramReadData ch sub id err s = _
    unfold execDramReadData
    rw [runAcc_eq, Acc.readData_of_buffered (a := s.acc) err h hpurp ht hw hb hpart]
  · change execDramReadData ch sub id err s = _
    unfold execDramReadData
    rw [runAcc_eq, Acc.readData_of_clean_scrub (a := s.acc) err h hpurp hserved hout hdec]
  · have hrun : execScrubStep s = .next (s.after s.dev.scrub) := run_when_of_true (by rw [hen, hon, hinit, hbusy]; rfl)
    change execScrubStep s = _
    rw [hrun]
    split
    · rw [Dev.scrub_of_cons ‹_›]
    · rw [Dev.scrub_of_nil ‹_›]

end Sys2Proof.Machine
end


section
/-! Retirement and repair (06_memory_protection.md R150 to R152): the commands complete. -/

namespace Sys2Proof.Machine

theorem tfind_tdel_self {α : Type} (t : Tbl α) (k : Nat) : tfind (tdel t k) k = none := by
  induction t with
  | nil => rfl
  | cons e t ih =>
    by_cases he : k = e.1
    · simpa [tdel, he] using ih
    · simpa [tdel, Ne.symm he, tfind, he] using ih

theorem tfind_tdel_of_ne {α : Type} (t : Tbl α) {k j : Nat} (h : j ≠ k) : tfind (tdel t k) j = tfind t j := by
  induction t with
  | nil => rfl
  | cons e t ih =>
    by_cases he : e.1 = k
    · simpa [tdel, he, tfind, h] using ih
    · by_cases hj : j = e.1
      · simp [tdel, he, tfind, hj]
      · simpa [tdel, he, tfind, hj] using ih

theorem Dev.subOf_updSub (d : Dev) (k : Nat) (f : SubS → SubS) : (d.updSub k f).subOf k = f (d.subOf k) := by
  simp [Dev.updSub, Dev.subOf, tfind_tins_self]

/-! ### Frames (R150) -/

theorem exec_frameRetire_of_legal {s : State} {c : Pkt} {f : Nat} (ha : Admits s.dev rowFrameRetire c) (hfit : c.at_ 0 8 < s.dev.fitted)
    (hspare : c.at_ 0 8 / 4096 < s.dev.spareLo) (hred : tfind s.dev.mch.redirect (c.at_ 0 8 / 4096) = none) (hf : s.dev.spareFree = some f) :
    exec (.frameRetire c) s = .next (s.after (({ s.dev with mch := { s.dev.mch with
      spares := s.dev.mch.spares ++ [f], retiring := some (c.at_ 0 8 / 4096, f, s.dev.mch.nextId, some s.dev.mgt.nextBg) } } : Dev).retStats.running
      rowFrameRetire c [c.at_ 0 8 / 4096])) := by
  have hcheck : s.dev.retireBad (c.at_ 0 8) = none := by
    unfold Dev.retireBad
    dsimp only
    rw [decide_eq_false (by omega), decide_eq_false (by omega), hred, hf]
    rfl
  have hstart : ∀ i, s.dev.retireStart (c.at_ 0 8 / 4096) i = ({ s.dev with mch := { s.dev.mch with
      spares := s.dev.mch.spares ++ [f], retiring := some (c.at_ 0 8 / 4096, f, s.dev.mch.nextId, some i) } } : Dev).retStats := fun i => by
    unfold Dev.retireStart
    rw [hf]
  change execFrameRetire c s = _
  unfold execFrameRetire
  rw [← hstart]
  exact run_command_runs ha hcheck rfl

/-- Redirects, the frame that retires and flash are as they were. -/
def Dev.SameRetirement (d e : Dev) : Prop := e.mch.redirect = d.mch.redirect ∧ e.mch.retiring = d.mch.retiring ∧ e.flash = d.flash

namespace Dev.SameRetirement

variable {d e f : Dev}

theorem refl (d : Dev) : d.SameRetirement d := ⟨rfl, rfl, rfl⟩

theorem trans (h : d.SameRetirement e) (g : e.SameRetirement f) : d.SameRetirement f :=
  ⟨g.1.trans h.1, g.2.1.trans h.2.1, g.2.2.trans h.2.2⟩

theorem set (d : Dev) (f : Fld) (v : Nat) : d.SameRetirement (d.set f v) := ⟨rfl, rfl, rfl⟩

theorem setBit (d : Dev) (f : Fld) (i : Nat) (b : Bool) : d.SameRetirement (d.setBit f i b) := ⟨rfl, rfl, rfl⟩

theorem updSub (d : Dev) (k : Nat) (f : SubS → SubS) : d.SameRetirement (d.updSub k f) := ⟨rfl, rfl, rfl⟩

theorem foldl {α : Type} {g : Dev → α → Dev} (h : ∀ d x, Dev.SameRetirement d (g d x)) (l : List α) (d : Dev) : d.SameRetirement (l.foldl g d) := by
  induction l generalizing d with
  | nil => exact refl d
  | cons x l ih => exact (h d x).trans (ih (g d x))

theorem enterQ (d : Dev) (k : Nat) : d.SameRetirement (d.enterQ k) := by
  unfold Dev.enterQ
  dsimp only
  split
  · exact refl d
  · exact updSub d k _

theorem subStats (d : Dev) (ch sub : Nat) : d.SameRetirement (d.subStats ch sub) := by
  unfold Dev.subStats
  have hsets := (((enterQ d (subKey ch sub)).trans (set _ (fMCH_Q_RDQ ch sub) (min ((d.enterQ (subKey ch sub)).subOf (subKey ch sub)).rq.length 64))).trans
    (set _ (fMCH_Q_WRQ ch sub) (min ((d.enterQ (subKey ch sub)).subOf (subKey ch sub)).wq.length 96))).trans
    (set _ (fMCH_Q_META ch sub) ((d.enterQ (subKey ch sub)).stand [] ((d.enterQ (subKey ch sub)).subOf (subKey ch sub)).mq).length)
  dsimp only
  split
  · exact hsets.trans (setBit _ _ _ _)
  · split
    · exact hsets.trans (setBit _ _ _ _)
    · exact hsets

theorem requeue (d : Dev) (r : DReq) : d.SameRetirement (d.requeue r) := (updSub d _ _).trans (subStats _ _ _)

theorem retStats (d : Dev) : d.SameRetirement d.retStats := (set d fMCH_RET_STS_SPARES_FREE _).trans (set _ fMCH_RET_STS_RETIRED _)

end Dev.SameRetirement

/-- The requests of frame f leave the queues, and its reads go to frame s. -/
def Dev.unqueued (d : Dev) (f s : Nat) : Dev :=
  { d with mch := { d.mch with sub := d.mch.sub.map (fun (e : Nat × SubS) => (e.1, { e.2 with
    rq := e.2.rq.filter (fun r => !(r.mpa / 64 == f)), wq := e.2.wq.filter (fun r => !(r.mpa / 64 == f)), mq := e.2.mq.filter (fun r => !(r.mpa / 64 == f))
    issued := e.2.issued.map (toSpare f s) })) } }

theorem Dev.moveReqs_eq (d : Dev) (f s : Nat) : d.moveReqs f s =
    (d.mch.sub.flatMap (fun e => (e.2.rq ++ e.2.wq ++ e.2.mq).filter (fun r => r.mpa / 64 == f))).foldl (fun d r => d.requeue (toSpare f s r))
      ((tkeys (d.unqueued f s).mch.sub).foldl (fun d k => d.subStats (k / 2) (k % 2)) (d.unqueued f s)) := rfl

theorem Dev.sameRetirement_unqueued (d : Dev) (f s : Nat) : d.SameRetirement (d.unqueued f s) := by
  unfold Dev.unqueued
  exact ⟨rfl, rfl, rfl⟩

theorem Dev.sameRetirement_moveReqs (d : Dev) (f s : Nat) : d.SameRetirement (d.moveReqs f s) := by
  have hstats : ∀ (ks : List Nat) (x : Dev), x.SameRetirement (ks.foldl (fun d k => d.subStats (k / 2) (k % 2)) x) := fun ks x =>
    SameRetirement.foldl (g := fun d k => d.subStats (k / 2) (k % 2)) (fun d k => .subStats d (k / 2) (k % 2)) ks x
  have hreqs : ∀ (l : List DReq) (x : Dev), x.SameRetirement (l.foldl (fun d r => d.requeue (toSpare f s r)) x) := fun l x =>
    SameRetirement.foldl (g := fun d r => d.requeue (toSpare f s r)) (fun d r => .requeue d (toSpare f s r)) l x
  rw [Dev.moveReqs_eq]
  exact ((Dev.sameRetirement_unqueued d f s).trans (hstats _ _)).trans (hreqs _ _)

/-- Steps 2 and 3 of Table 6.6 of a device whose frame has been copied: the redirect is valid. -/
def Dev.redirected (d : Dev) (f s orig : Nat) : Dev :=
  { d with mch := { d.mch with redirect := tins d.mch.redirect orig s, retiring := none,
                               scrubQ := d.mch.scrubQ.map (fun l => if l / 64 = f then s * 64 + l % 64 else l) },
           sec := { d.sec with nodes := rekey f s d.sec.nodes, mlines := rekey f s d.sec.mlines },
           flash := { d.flash with retire := d.flash.retire ++ [(orig, s)] } }

/-- The lines of frame f, corrected, stand in frame sp. -/
def Acc.copied (a : Acc) (f sp : Nat) : Acc :=
  (List.range 64).foldl (fun a i => (a.mended (f * 64 + i)).2.wrRaw (sp * 64 + i) (a.mended (f * 64 + i)).1) a

theorem Acc.upd_const (a : Acc) (f : Dev → Dev) : a.upd (fun _ => f a.dev) = a.upd f := rfl

theorem Acc.retireCopy_of_idle {a : Acc} {f sp first : Nat} {bg : Option Nat} (h : a.dev.mch.retiring = some (f, sp, first, bg))
    (hidle : a.dev.frameBusy f first = false) :
    a.retireCopy = (a.copied f sp).upd (fun d =>
      (((d.redirected f sp (((a.copied f sp).dev.spareOf f).getD f)).moveReqs f sp).retStats).bgDoneOpt bg stSuccess noDetail []) := by
  unfold Acc.retireCopy
  rw [h]
  dsimp only
  rw [if_neg (by rw [hidle]; decide)]
  rfl

/-! ### Banks and rows (R151, R152) -/

theorem Dev.bankRetire_of_free {d : Dev} {b : List Nat} {k : Nat} (hnew : (d.brets (b.getD 0 0)).any (fun e => bretHolds e b) = false)
    (hfree : d.bretFree (b.getD 0 0) = some k) : d.bankRetire b = { d.putBret k b with flash := { d.flash with banks := d.flash.banks ++ [b] } } := by
  unfold Dev.bankRetire
  rw [if_neg (by rw [hnew]; decide), hfree]

theorem Dev.ppr_updSub (d : Dev) (k : Nat) (f : SubS → SubS) : (d.updSub k f).mch.ppr = d.mch.ppr := rfl

theorem Dev.softStart_blocks (d : Dev) (r : List Nat) (i : Nat) :
    ((d.softStart r i).subOf (subKey (r.getD 0 0) (r.getD 1 0))).blocked.contains (repairBank r) = true ∧
    tfind (d.softStart r i).mch.ppr (r.getD 0 0) = some (r ++ [i]) := by
  unfold Dev.softStart
  rw [Dev.subOf_updSub, Dev.ppr_updSub]
  exact ⟨by simp, tfind_tins_self _ _ _⟩

theorem Acc.mended_log (a : Acc) (l : Nat) : (a.mended l).2.log = a.log := by
  have hrd : ∀ k o, (a.rdStored l k o).2.log = a.log := fun k o => by
    unfold Acc.rdStored
    split
    · rfl
    · rfl
    · rfl
    · split
      · rfl
      · rfl
  unfold Acc.mended
  split
  · split
    · rename_i b h
      exact (congrArg (fun x => x.2.log) h).symm.trans (hrd 6 none)
    · rename_i b h
      exact (congrArg (fun x => x.2.log) h).symm.trans (hrd 6 none)
  · exact hrd 6 none
  · rfl

/-- One line of a repair's row is read, corrected and held. -/
def holdLine (p : List (Codeword × Codeword) × Acc) (l : Nat) : List (Codeword × Codeword) × Acc :=
  (p.1 ++ [(p.2.line l, (p.2.mended l).1)], (p.2.mended l).2)

theorem foldl_holdLine_log (ls : List Nat) (p : List (Codeword × Codeword) × Acc) : (ls.foldl holdLine p).2.log = p.2.log := by
  induction ls generalizing p with
  | nil => rfl
  | cons l ls ih => exact (ih (holdLine p l)).trans (p.2.mended_log l)

/-- The lines of repair r of channel ch are held. -/
def Acc.rowHeld (a : Acc) (ch : Nat) (r : List Nat) : List (Codeword × Codeword) × Acc :=
  let a := a.upd (fun d => d.updSub (subKey ch (r.getD 1 0)) (fun s => { s with rows := tdel s.rows (repairBank r) }))
  (a.dev.repairLines r).foldl holdLine ([], a)

theorem Acc.rowHeld_log (a : Acc) (ch : Nat) (r : List Nat) : (a.rowHeld ch r).2.log = a.log := by
  unfold Acc.rowHeld
  dsimp only
  rw [foldl_holdLine_log]
  rfl

/-- The corrected lines of the row that channel ch repairs are held. -/
def Dev.holds (ch : Nat) (buf : List (Codeword × Codeword)) (d : Dev) : Dev :=
  { d with mch := { d.mch with pprBuf := tins d.mch.pprBuf ch buf } }

theorem Dev.pprBuf_holds (ch : Nat) (buf : List (Codeword × Codeword)) (d : Dev) : tfind (Dev.holds ch buf d).mch.pprBuf ch = some buf :=
  tfind_tins_self _ _ _

theorem Acc.upd_holds (x : List (Codeword × Codeword) × Acc) (ch : Nat) (o : Out) :
    x.2.upd (fun d => { d with mch := { d.mch with pprBuf := tins d.mch.pprBuf ch x.1 } }.emit o) =
      (x.2.upd (Dev.holds ch x.1)).upd (fun d => d.emit o) := rfl

theorem Acc.softRead_of_blocked {a : Acc} {ch : Nat} {r : List Nat} (h : tfind a.dev.mch.ppr ch = some r) (hbuf : tfind a.dev.mch.pprBuf ch = none) :
    a.softRead ch = ((a.rowHeld ch r).2.upd (Dev.holds ch (a.rowHeld ch r).1)).upd
      (fun d => d.emit (.ddr 8 ch (r.getD 1 0) (r.take 7))) := by
  unfold Acc.softRead
  rw [h, hbuf]
  dsimp only
  exact Acc.upd_holds (a.rowHeld ch r) ch (.ddr 8 ch (r.getD 1 0) (r.take 7))

/-- The held lines of a row that nothing has written since are written back. -/
def Acc.rowBack (a : Acc) (r : List Nat) (buf : List (Codeword × Codeword)) : Acc :=
  ((a.dev.repairLines r).zip buf).foldl (fun (a : Acc) e => if a.line e.1 = e.2.1 then a.wrRaw e.1 e.2.2 else a) a

/-- The repair r of channel ch is over, its bank free. -/
def Dev.repaired (d : Dev) (ch : Nat) (r : List Nat) : Dev :=
  let d := d.updSub (subKey ch (r.getD 1 0)) (fun s => { s with blocked := s.blocked.filter (· != repairBank r) })
  { d with mch := { d.mch with ppr := tdel d.mch.ppr ch, pprBuf := tdel d.mch.pprBuf ch, pprUsed := d.mch.pprUsed ++ [r.take 7 ++ [0]] } }

theorem Dev.ppr_repaired (d : Dev) (ch : Nat) (r : List Nat) : tfind (d.repaired ch r).mch.ppr ch = none := tfind_tdel_self _ _

theorem Dev.pprBuf_repaired (d : Dev) (ch : Nat) (r : List Nat) : tfind (d.repaired ch r).mch.pprBuf ch = none := tfind_tdel_self _ _

theorem Dev.pprUsed_repaired (d : Dev) (ch : Nat) (r : List Nat) : (d.repaired ch r).mch.pprUsed = d.mch.pprUsed ++ [r.take 7 ++ [0]] := rfl

theorem Acc.softBack_of_held {a : Acc} {ch : Nat} {r : List Nat} {buf : List (Codeword × Codeword)} (h : tfind a.dev.mch.ppr ch = some r)
    (hbuf : tfind a.dev.mch.pprBuf ch = some buf) :
    a.softBack ch = (a.rowBack r buf).upd (fun d => (d.repaired ch r).bgDone (r.getD 7 0) stSuccess noDetail []) := by
  unfold Acc.softBack
  rw [h, hbuf]
  rfl

/-- Settles O16: what a copied frame's release moves leaves the new redirect alone, and a held row has stored nothing. -/
theorem retirementCommandsComplete : Obligations.RetirementCommandsComplete := by
  unfold Obligations.RetirementCommandsComplete
  refine ⟨fun s c f ha hfit hspare hred hf => exec_frameRetire_of_legal ha hfit hspare hred hf,
    fun s f sp first orig bg a h hidle hb horig => ⟨((a.dev.redirected f sp orig).moveReqs f sp).retStats, _, ?_, rfl, ?_, ?_, ?_⟩,
    fun s c ha hok => ?_, fun d b k hnew hfree => Dev.bankRetire_of_free hnew hfree, fun s c ha hok => ?_, fun d r i => d.softStart_blocks r i,
    fun s ch r h hbuf => ⟨(s.acc.rowHeld ch.val r).2.upd (Dev.holds ch.val (s.acc.rowHeld ch.val r).1),
      (s.acc.rowHeld ch.val r).1, ?_, Dev.pprBuf_holds _ _ _, ?_⟩,
    fun s ch r buf h hbuf => ⟨s.acc.rowBack r buf, (s.acc.rowBack r buf).dev.repaired ch.val r, _, ?_, rfl, Dev.ppr_repaired _ _ _,
      Dev.pprBuf_repaired _ _ _, Dev.pprUsed_repaired _ _ _⟩,
    fun s c ha hok => ?_⟩
  · have ha : a = s.acc.copied f sp := hb
    change execRetireCopyDone s = _
    unfold execRetireCopyDone
    rw [runAcc_eq, Acc.retireCopy_of_idle (a := s.acc) h hidle, ← ha, ← horig, ← Acc.upd_const, stSuccess]
  · exact (congrArg (fun x => tfind x orig) ((Dev.SameRetirement.trans (Dev.sameRetirement_moveReqs _ f sp) (.retStats _)).1)).trans (tfind_tins_self _ _ _)
  · exact (Dev.SameRetirement.trans (Dev.sameRetirement_moveReqs _ f sp) (.retStats _)).2.1
  · exact congrArg Flash.retire (Dev.SameRetirement.trans (Dev.sameRetirement_moveReqs _ f sp) (.retStats _)).2.2
  · change execBankRetire c s = _
    unfold execBankRetire
    exact run_command_done ha hok rfl
  · change execPprSoft c s = _
    unfold execPprSoft
    exact run_command_runs ha hok rfl
  · change execPprSoftReadDone ch s = _
    unfold execPprSoftReadDone
    rw [runAcc_eq, Acc.softRead_of_blocked (a := s.acc) h hbuf]
  · rw [Acc.upd_log, Acc.rowHeld_log]
    rfl
  · change execPprSoftWriteback ch s = _
    unfold execPprSoftWriteback
    rw [runAcc_eq, Acc.softBack_of_held (a := s.acc) h hbuf, ← Acc.upd_const, stSuccess]
  · change execPprHard c s = _
    unfold execPprHard
    exact run_command_done ha hok rfl

end Sys2Proof.Machine
end


section
/-! Key ranges (07_encryption_integrity.md R155 to R188): the commands complete. -/

namespace Sys2Proof.Machine

/-! ### Definition and removal (R155) -/

/-- A range defined from the images of its registers, before its generation moves on. -/
def Dev.krDefined (d : Dev) (n : Nat) (img : List Nat) : Dev :=
  let d := (((krPairs n).zip img).foldl (fun d x => d.wrPair x.1.1 x.1.2 x.2) (d.krClear n))
  let d := (d.set (fSEC_KR_STS_STATE n) 1).krAllot n (krNeed (img.getD 0 0 / 2 % 4) (img.getD 2 0 % 2 ^ 25) (img.getD 3 0 % 32))
  if img.getD 0 0 / 2 % 4 = 3 then
    (d.set (fSEC_KR_STS_DEPTH n) (treeDepth (img.getD 2 0 % 2 ^ 25 * 1024) (img.getD 3 0 % 32))).drop fSEC_STS_ROOTS_FREE (2 ^ (img.getD 3 0 % 32))
  else d

theorem Dev.krDefine_eq (d : Dev) (n : Nat) (img : List Nat) : d.krDefine n img = (d.krDefined n img).krChanged n := rfl

theorem Dev.foldl_wrPair_sec {α : Type} (l : List α) (k kc v : α → Nat) (d : Dev) :
    (l.foldl (fun d x => d.wrPair (k x) (kc x) (v x)) d).sec = d.sec := by
  induction l generalizing d with
  | nil => rfl
  | cons x l ih => exact ih (d.wrPair (k x) (kc x) (v x))

theorem Dev.allotMeta_keys (d : Dev) (kind obj base units : Nat) : (d.allotMeta kind obj base units).sec.keys = d.sec.keys := rfl

/-- The metadata structures of a new range touch the two bases of the range alone, and no key. -/
theorem Dev.krAllot_keeps (d : Dev) (n : Nat) (need : List (Nat × Nat)) :
    (d.krAllot n need).sec.keys = d.sec.keys ∧ ∀ f : Fld, f.reg ≠ rSEC_KR_TAGBASE n → f.reg ≠ rSEC_KR_TREEBASE n → (d.krAllot n need).get f = d.get f := by
  unfold Dev.krAllot
  induction need generalizing d with
  | nil => exact ⟨rfl, fun _ _ _ => rfl⟩
  | cons x need ih =>
    rw [List.foldl_cons]
    split
    next b _ =>
      have hallot : ∀ f : Fld, (d.allotMeta x.1 n b x.2).get f = d.get f := fun f => Dev.get_congr rfl f
      split
      · exact ⟨by rw [(ih _).1, Dev.set_sec, Dev.allotMeta_keys], fun f ht hr => by rw [(ih _).2 f ht hr, Dev.get_set_of_ne _ _ ht, hallot]⟩
      · exact ⟨by rw [(ih _).1, Dev.set_sec, Dev.allotMeta_keys], fun f ht hr => by rw [(ih _).2 f ht hr, Dev.get_set_of_ne _ _ hr, hallot]⟩
    next => exact ih d

theorem Dev.krClear_keys (d : Dev) (n : Nat) : (d.krClear n).sec.keys = tdel (tdel d.sec.keys (2 * n)) (2 * n + 1) := rfl

theorem tfind_tdel_pair {α : Type} (t : Tbl α) (n : Nat) :
    tfind (tdel (tdel t (2 * n)) (2 * n + 1)) (2 * n) = none ∧ tfind (tdel (tdel t (2 * n)) (2 * n + 1)) (2 * n + 1) = none :=
  ⟨by rw [tfind_tdel_of_ne _ (by omega), tfind_tdel_self], tfind_tdel_self _ _⟩

theorem Dev.krDefined_keys (d : Dev) (n : Nat) (img : List Nat) : (d.krDefined n img).sec.keys = tdel (tdel d.sec.keys (2 * n)) (2 * n + 1) := by
  have hfold : (((krPairs n).zip img).foldl (fun d x => d.wrPair x.1.1 x.1.2 x.2) (d.krClear n)).sec.keys = tdel (tdel d.sec.keys (2 * n)) (2 * n + 1) := by
    rw [Dev.foldl_wrPair_sec, Dev.krClear_keys]
  unfold Dev.krDefined
  dsimp only
  split
  · exact ((Dev.krAllot_keeps _ n _).1).trans hfold
  · exact ((Dev.krAllot_keeps _ n _).1).trans hfold

theorem Dev.krDefined_state (d : Dev) {n : Nat} (img : List Nat) (hn : n < 16) : (d.krDefined n img).get (fSEC_KR_STS_STATE n) = 1 := by
  have hallot : ∀ x : Dev, ∀ need, ((x.set (fSEC_KR_STS_STATE n) 1).krAllot n need).get (fSEC_KR_STS_STATE n) = 1 := fun x need => by
    rw [(Dev.krAllot_keeps _ n need).2 _ (by simp [fSEC_KR_STS_STATE, rSEC_KR_STS, rSEC_KR_TAGBASE]) (by simp [fSEC_KR_STS_STATE, rSEC_KR_STS, rSEC_KR_TREEBASE]),
      Dev.get_set_self]
    rfl
  unfold Dev.krDefined
  dsimp only
  split
  · unfold Dev.drop
    rw [Dev.get_set_of_ne _ _ (by simp [fSEC_KR_STS_STATE, rSEC_KR_STS, fSEC_STS_ROOTS_FREE, rSEC_STS]; omega),
      Dev.get_set_of_disjoint _ _ (.inl (by simp [fSEC_KR_STS_STATE, fSEC_KR_STS_DEPTH])), hallot]
  · exact hallot _ _

theorem Dev.krRemove_allowed {d : Dev} {n : Nat} (hn : n < 16) (h0 : d.krState n ≠ 0) (h4 : d.krState n ≠ 4) (hu : d.krUsed n = false) :
    firstBad [(decide (15 < n) || d.krState n == 0, stInvalidField, 16), (d.krUsed n || d.krState n == 4, stKrBusy, noDetail)] = none := by
  rw [decide_eq_false (by omega), beq_false_of_ne h0, hu, beq_false_of_ne h4]
  rfl

/-! ### Keys (R159, R181, R187) -/

theorem Dev.keyLoadBad_next {d : Dev} {c : Pkt} (hn : c.at_ 0 1 < 16) (hs : c.at_ 1 1 = 1) (hst : d.krState (c.at_ 0 1) = 3) : d.keyLoadBad c = none := by
  unfold Dev.keyLoadBad
  dsimp only
  rw [hs, hst]
  rw [decide_eq_false (by omega)]
  rfl

theorem Dev.keyLoadBad_current {d : Dev} {c : Pkt} (hn : c.at_ 0 1 < 16) (hs : c.at_ 1 1 = 0) (hst : d.krState (c.at_ 0 1) = 1)
    (hlost : d.flag (fSEC_KR_STS_KLOST (c.at_ 0 1)) = false) : d.keyLoadBad c = none := by
  unfold Dev.keyLoadBad
  dsimp only
  rw [hs, hst]
  rw [decide_eq_false (by omega), hlost]
  rfl

theorem Dev.keyLoad_next {d : Dev} {c : Pkt} (hs : c.at_ 1 1 = 1) :
    d.keyLoad c = (.done [0, 0, 0, 0] 0, (d.putKey (c.at_ 0 1) 1 (loadKey c)).setFlag (fSEC_KR_STS_NEXT_LOADED (c.at_ 0 1)) true) := by
  unfold Dev.keyLoad
  rw [hs]
  rfl

theorem Dev.keyLoad_current {d : Dev} {c : Pkt} (hs : c.at_ 1 1 = 0) (hlost : d.flag (fSEC_KR_STS_KLOST (c.at_ 0 1)) = false)
    (hfresh : d.krFresh (c.at_ 0 1) = false) :
    d.keyLoad c = (.done (leOf 4 (kcvOf (loadKey c))) 0, (((d.putKey (c.at_ 0 1) 0 (loadKey c)).set (fSEC_KR_KCV_KCV (c.at_ 0 1)) (kcvOf (loadKey c))).set
      (fSEC_KR_STS_STATE (c.at_ 0 1)) 3).storedWins (c.at_ 0 1)) := by
  have hkeep : (d.putKey (c.at_ 0 1) 0 (loadKey c)).flag (fSEC_KR_STS_KLOST (c.at_ 0 1)) = false := (Dev.flag_congr rfl _).trans hlost
  have hmode : ((d.putKey (c.at_ 0 1) 0 (loadKey c)).set (fSEC_KR_KCV_KCV (c.at_ 0 1)) (kcvOf (loadKey c))).krFresh (c.at_ 0 1) = false := by
    unfold Dev.krFresh Dev.krMode at hfresh ⊢
    rw [Dev.get_set_of_ne _ _ (by simp [fSEC_KR_CFG_MODE, rSEC_KR_CFG, fSEC_KR_KCV_KCV, rSEC_KR_KCV])]
    exact hfresh
  unfold Dev.keyLoad
  dsimp only
  rw [hs, if_neg (by decide), hkeep, if_neg (by decide), hmode]
  rfl

theorem Acc.treeInit_of_init {a : Acc} {n : Nat} (hi : a.dev.sec.init.contains n = true) (haw : a.dev.sec.away = false) :
    a.treeInit n = (a.initTree n).upd (fun d =>
      Dev.storedWins (Dev.keyLoadEnds (Dev.set { d with sec := { d.sec with init := d.sec.init.filter (· != n) } } (fSEC_KR_STS_STATE n) 3) n 0
        (leOf 4 (d.get (fSEC_KR_KCV_KCV n)))) n) := by
  unfold Acc.treeInit
  rw [hi, haw]
  rfl

/-- The keys of range n are gone, and nothing that rests on them stays. -/
def Dev.keyless (d : Dev) (n : Nat) : Dev :=
  let mine := fun (dl : Nat) => d.winKr ((d.winOf (dl * 64)).getD 256) == n
  { d with sec := { d.sec with keys := tdel (tdel d.sec.keys (2 * n)) (2 * n + 1), init := d.sec.init.filter (· != n)
                               ovf := d.sec.ovf.filter (fun o => o.n != n) }
           home := { d.home with lbuf := d.home.lbuf.filter (fun e => !mine e.1) } }

/-- Range n needs its key again. -/
def Dev.keyWanted (d : Dev) (n : Nat) : Dev :=
  ((d.set (fSEC_KR_STS_STATE n) 1).setFlag (fSEC_KR_STS_NEXT_LOADED n) false).setFlag (fSEC_KR_STS_KLOST n) true

theorem Dev.keyGone_eq (d : Dev) (n : Nat) : d.keyGone n = ((d.keyless n).keyWanted n).raise { src := src 24 2, sev := 4, obj := n } := rfl

theorem Dev.keyWanted_state (d : Dev) (n : Nat) : (d.keyWanted n).get (fSEC_KR_STS_STATE n) = 1 := by
  unfold Dev.keyWanted
  rw [Dev.get_setFlag_of_disjoint _ _ (.inl (by simp [fSEC_KR_STS_STATE, fSEC_KR_STS_KLOST])),
    Dev.get_setFlag_of_disjoint _ _ (.inl (by simp [fSEC_KR_STS_STATE, fSEC_KR_STS_NEXT_LOADED])), Dev.get_set_self]
  rfl

theorem Dev.keyWanted_lost (d : Dev) (n : Nat) : (d.keyWanted n).flag (fSEC_KR_STS_KLOST n) = true := Dev.flag_setFlag_self _ _ _ rfl

theorem Dev.keyWanted_next (d : Dev) (n : Nat) : (d.keyWanted n).flag (fSEC_KR_STS_NEXT_LOADED n) = false := by
  unfold Dev.keyWanted Dev.setFlag
  rw [Dev.flag_set_of_disjoint _ _ (.inl (by simp [fSEC_KR_STS_NEXT_LOADED, fSEC_KR_STS_KLOST]))]
  exact Dev.flag_setFlag_self _ _ _ rfl

theorem Dev.keyWanted_keys (d : Dev) (n : Nat) : (d.keyWanted n).sec = d.sec := by
  unfold Dev.keyWanted
  rw [Dev.setFlag_sec, Dev.setFlag_sec, Dev.set_sec]

theorem Dev.keyless_keys (d : Dev) (n : Nat) : (d.keyless n).sec.keys = tdel (tdel d.sec.keys (2 * n)) (2 * n + 1) := rfl

theorem Dev.keySlotLost_of_active {d : Dev} {n s : Nat} (h : (tfind d.sec.keys (2 * n + s)).isSome = true) (hst : d.krState n = 3) :
    d.keySlotLost n s = ((d.keyless n).keyWanted n).raise { src := src 24 2, sev := 4, obj := n } := by
  unfold Dev.keySlotLost
  rw [if_neg (by rw [← Option.not_isSome, h]; decide), hst]
  exact d.keyGone_eq n

/-- The rotation of range n begins. -/
def Dev.rotStart (d : Dev) (n : Nat) : Dev :=
  { (d.set (fSEC_KR_STS_STATE n) 4).set (fSEC_KR_ROTCUR_CURSOR n) (d.krBase n) with sec := { d.sec with newHw := tdel d.sec.newHw n } }

theorem Dev.rotStart_csr (d : Dev) (n : Nat) : (d.rotStart n).csr = ((d.set (fSEC_KR_STS_STATE n) 4).set (fSEC_KR_ROTCUR_CURSOR n) (d.krBase n)).csr := rfl

theorem Dev.rotStart_state (d : Dev) (n : Nat) : (d.rotStart n).get (fSEC_KR_STS_STATE n) = 4 := by
  rw [Dev.get_congr (d.rotStart_csr n), Dev.get_set_of_ne _ _ (by simp [fSEC_KR_STS_STATE, rSEC_KR_STS, fSEC_KR_ROTCUR_CURSOR, rSEC_KR_ROTCUR]), Dev.get_set_self]
  rfl

theorem Dev.rotStart_cursor (d : Dev) (n : Nat) : (d.rotStart n).get (fSEC_KR_ROTCUR_CURSOR n) = d.krBase n % 2 ^ 46 := by
  rw [Dev.get_congr (d.rotStart_csr n), Dev.get_set_self]
  rfl

theorem firstBad_rotate {d : Dev} {n : Nat} (hn : n < 16) (hnext : d.flag (fSEC_KR_STS_NEXT_LOADED n) = true) (hst : d.krState n = 3) :
    firstBad [(decide (15 < n), stInvalidField, 16), (!d.flag (fSEC_KR_STS_NEXT_LOADED n), stKeyNotLoaded, noDetail),
        (d.krState n == 4, stKrBusy, noDetail), (d.krState n != 3, stInvalidField, 16)] = none := by
  rw [decide_eq_false (by omega), hnext, hst]
  rfl

/-- Settles O17: each command meets none of its refusals, and what it leaves is read off the registers that it sets last. -/
theorem keyCommandsComplete : Obligations.KeyCommandsComplete := by
  unfold Obligations.KeyCommandsComplete
  refine ⟨fun s c img r ha hok himg hr => ?_, fun d n img hn => ⟨d.krDefined n img, d.krDefine_eq n img, d.krDefined_state img hn, ?_, ?_⟩,
    fun s c ha hn h0 h4 hu => ?_, fun s c ha hn hs hst => ?_, fun s c ha hn hs hst hlost hfresh => ?_, fun s n hi haw => ?_,
    fun s n nx hk hst => ⟨(s.dev.keyless n.toNat).keyWanted n.toNat, ?_, Dev.keyWanted_state _ _, Dev.keyWanted_lost _ _, Dev.keyWanted_next _ _, ?_⟩,
    fun s c ha hm => ?_, fun s c ha hn hnext hst => ⟨s.dev.rotStart (c.at_ 0 1), ?_, s.dev.rotStart_state _, s.dev.rotStart_cursor _⟩⟩
  · subst himg hr
    change execKrCreate c s = _
    unfold execKrCreate
    exact run_command_stored (e := s.dev.krDefine (c.at_ 0 1) ((List.range 4).map (krImage c))) (ps := krPairs (c.at_ 0 1))
      (f := fun d => { d with flash := { d.flash with cfg := { d.flash.cfg with krs := tins d.flash.cfg.krs (c.at_ 0 1) (withCompl ((List.range 4).map (krImage c))) } } })
      ha hok rfl
  · rw [Dev.krDefined_keys]
    exact (tfind_tdel_pair _ _).1
  · rw [Dev.krDefined_keys]
    exact (tfind_tdel_pair _ _).2
  · change execKrRemove c s = _
    unfold execKrRemove
    rw [runAcc_eq]
    exact congrArg (fun a => Host.Outcome.next (s.afterAcc a)) (Acc.command_done s.acc (s.acc.krRemove (c.at_ 0 1)) _ c _ _ [] 0 ha (Dev.krRemove_allowed hn h0 h4 hu) rfl)
  · change execKeyLoad c s = _
    unfold execKeyLoad
    exact run_command_done ha (Dev.keyLoadBad_next hn hs hst) (Dev.keyLoad_next hs)
  · change execKeyLoad c s = _
    unfold execKeyLoad
    exact run_command_done ha (Dev.keyLoadBad_current hn hs hst hlost) (Dev.keyLoad_current hs hlost hfresh)
  · change execCounterTreeInitDone n s = _
    unfold execCounterTreeInitDone
    rw [runAcc_eq, Acc.treeInit_of_init (a := s.acc) hi haw]
  · change execKeySlotLost n nx s = _
    unfold execKeySlotLost
    rw [run_eq, Dev.keySlotLost_of_active hk hst]
  · rw [Dev.keyWanted_keys, Dev.keyless_keys]
  · change execSecHalt c s = _
    unfold execSecHalt
    exact run_command_done ha (firstBad_one _ (by rw [hm]; rfl)) rfl
  · change execKeyRotate c s = _
    unfold execKeyRotate
    exact run_command_done ha (firstBad_rotate hn hnext hst) rfl

end Sys2Proof.Machine
end


section
/-! Counter trees (07_encryption_integrity.md R177 to R186): what the engines take up is completed. -/

namespace Sys2Proof.Machine

theorem Acc.underKr_of_ok {a : Acc} {n : Nat} (f : Acc → Acc) (h : a.dev.krCheck n = (true, a.dev)) : a.underKr n f = f a := by
  unfold Acc.underKr
  rw [h]
  rfl

/-! ### Rotation (R181) -/

theorem Acc.pageLines_of_no_window {a : Acc} {pg : Nat} (h : a.dev.winOf (pg * 4096) = none) : a.pageLines pg = ([], a) := by
  unfold Acc.pageLines
  rw [h]

theorem Acc.pageCell_of_no_window {a : Acc} {pg : Nat} (h : a.dev.winOf (pg * 4096) = none) : a.pageCell pg = ([], a) := by
  unfold Acc.pageCell
  rw [h]

/-- A cache that holds nothing is within its capacity. -/
theorem Acc.trimNodes_of_empty {a : Acc} (n : Nat) (h : a.dev.sec.nodes = []) : a.trimNodes n = a := by
  cases n with
  | zero => rfl
  | succ n =>
    unfold Acc.trimNodes
    rw [h]
    rfl

/-- A page that lies in no window, of a range without a tree, moves the cursor past itself; it does not end the rotation before the range's end. -/
theorem Acc.rotDone_of_empty {a : Acc} {n pg : Nat} (hfresh : a.dev.krFresh n = false) (hnodes : a.dev.sec.nodes = [])
    (hmore : pg * 4096 + 4096 < a.dev.krBase n + a.dev.krSize n) :
    a.rotDone n pg [] [] = a.upd (fun d => d.set (fSEC_KR_ROTCUR_CURSOR n) (pg * 4096 + 4096)) := by
  have hmode : (a.dev.set (fSEC_KR_ROTCUR_CURSOR n) (pg * 4096 + 4096)).krFresh n = false := by
    unfold Dev.krFresh Dev.krMode at hfresh ⊢
    rw [Dev.get_set_of_ne _ _ (by simp [fSEC_KR_CFG_MODE, rSEC_KR_CFG, fSEC_KR_ROTCUR_CURSOR, rSEC_KR_ROTCUR])]
    exact hfresh
  have hend : ¬ (a.dev.set (fSEC_KR_ROTCUR_CURSOR n) (pg * 4096 + 4096)).krBase n + (a.dev.set (fSEC_KR_ROTCUR_CURSOR n) (pg * 4096 + 4096)).krSize n ≤
      pg * 4096 + 4096 := by
    unfold Dev.krBase Dev.krSize at hmore ⊢
    rw [Dev.get_set_of_ne _ _ (by simp [fSEC_KR_BASE_BASE, rSEC_KR_BASE, fSEC_KR_ROTCUR_CURSOR, rSEC_KR_ROTCUR]),
      Dev.get_set_of_ne _ _ (by simp [fSEC_KR_SIZE_SIZE, rSEC_KR_SIZE, fSEC_KR_ROTCUR_CURSOR, rSEC_KR_ROTCUR])]
    omega
  have hempty : (a.upd (fun d => d.set (fSEC_KR_ROTCUR_CURSOR n) (pg * 4096 + 4096))).dev.sec.nodes = [] := by
    rw [Acc.upd_dev, Dev.set_sec, hnodes]
  unfold Acc.rotDone Acc.rotWrite
  dsimp only [List.foldl_nil]
  rw [Acc.upd_dev, hmode, if_neg Bool.false_ne_true, Acc.trimNodes_of_empty 32 hempty, Acc.upd_dev, if_neg hend]

theorem Acc.rotPage_of_no_window {a : Acc} {n pg : Nat} (hpg : a.dev.get (fSEC_KR_ROTCUR_CURSOR n) / 4096 = pg) (hfresh : a.dev.krFresh n = false)
    (hwin : a.dev.winOf (pg * 4096) = none) : a.rotPage n = a.rotDone n pg [] [] := by
  simp only [Acc.rotPage, hpg, hfresh, Acc.pageLines_of_no_window hwin, Acc.pageCell_of_no_window hwin, Acc.rotRead, List.foldl_nil,
    Bool.false_eq_true, if_false, if_true, Bool.not_true]

/-! ### The end of a rotation (R181) -/

/-- The next key of range n is its current one. -/
def Dev.keySwapped (d : Dev) (n : Nat) : Dev :=
  { d.putKey n 0 (d.keyBytes n 1) with sec := { (d.putKey n 0 (d.keyBytes n 1)).sec with
      keys := tdel (d.putKey n 0 (d.keyBytes n 1)).sec.keys (2 * n + 1), newHw := tdel d.sec.newHw n } }

/-- The registers of range n after a rotation that leaves high-water marks h and check value v. -/
def Dev.newKeyRegs (d : Dev) (n : Nat) (h : Nat × Nat) (v : Nat) : Dev :=
  let d := (d.setFlag (fSEC_KR_STS_GEN n) (!d.flag (fSEC_KR_STS_GEN n))).setFlag (fSEC_KR_STS_EXH n) false
  let d := ((d.set (fSEC_KR_MHW_MHW n) h.1).set (fSEC_KR_CHW_CHW n) h.2).setFlag (fSEC_KR_STS_NEXT_LOADED n) false
  (d.set (fSEC_KR_KCV_KCV n) v).set (fSEC_KR_STS_STATE n) 3

theorem Dev.rotEnd_eq (d : Dev) (n : Nat) : d.rotEnd n = (d.keySwapped n).newKeyRegs n (tget (fun _ => (0, 0)) d.sec.newHw n) (kcvOf (d.keyBytes n 1)) := rfl

theorem Dev.keySwapped_keys (d : Dev) (n : Nat) : tfind (d.keySwapped n).sec.keys (2 * n + 1) = none := tfind_tdel_self _ _

theorem Dev.keySwapped_csr (d : Dev) (n : Nat) : (d.keySwapped n).csr = d.csr := rfl

section

variable (d : Dev) (n : Nat) (h : Nat × Nat) (v : Nat)

theorem Dev.newKeyRegs_sec : (d.newKeyRegs n h v).sec = d.sec := by
  unfold Dev.newKeyRegs
  dsimp only
  rw [Dev.set_sec, Dev.set_sec, Dev.setFlag_sec, Dev.set_sec, Dev.set_sec, Dev.setFlag_sec, Dev.setFlag_sec]

theorem Dev.newKeyRegs_state : (d.newKeyRegs n h v).get (fSEC_KR_STS_STATE n) = 3 := by
  unfold Dev.newKeyRegs
  exact (Dev.get_set_self _ _ _).trans rfl

theorem Dev.newKeyRegs_next : (d.newKeyRegs n h v).flag (fSEC_KR_STS_NEXT_LOADED n) = false := by
  unfold Dev.newKeyRegs
  dsimp only
  rw [Dev.flag_set_of_disjoint _ _ (.inr (by simp [fSEC_KR_STS_STATE, fSEC_KR_STS_NEXT_LOADED])),
    Dev.flag_set_of_ne _ _ (by simp [fSEC_KR_STS_NEXT_LOADED, rSEC_KR_STS, fSEC_KR_KCV_KCV, rSEC_KR_KCV]), Dev.flag_setFlag_self _ _ _ rfl]

/-- The last four of the registers of a rotation leave GEN and EXH. -/
theorem Dev.flag_newKeyRegs {f : Fld} (hreg : f.reg = rSEC_KR_STS n) (hlo : 3 ≤ f.lo) (hhi : f.lo + f.w ≤ 9) :
    (d.newKeyRegs n h v).flag f =
      ((d.setFlag (fSEC_KR_STS_GEN n) (!d.flag (fSEC_KR_STS_GEN n))).setFlag (fSEC_KR_STS_EXH n) false).flag f := by
  unfold Dev.newKeyRegs
  dsimp only
  rw [Dev.flag_set_of_disjoint _ _ (.inr (by simpa [fSEC_KR_STS_STATE] using hlo)),
    Dev.flag_set_of_ne _ _ (by rw [hreg]; simp [rSEC_KR_STS, fSEC_KR_KCV_KCV, rSEC_KR_KCV]), Dev.setFlag,
    Dev.flag_set_of_disjoint _ _ (.inl (by simpa [fSEC_KR_STS_NEXT_LOADED] using hhi)),
    Dev.flag_set_of_ne _ _ (by rw [hreg]; simp [rSEC_KR_STS, fSEC_KR_CHW_CHW, rSEC_KR_CHW]),
    Dev.flag_set_of_ne _ _ (by rw [hreg]; simp [rSEC_KR_STS, fSEC_KR_MHW_MHW, rSEC_KR_MHW])]

theorem Dev.newKeyRegs_exh : (d.newKeyRegs n h v).flag (fSEC_KR_STS_EXH n) = false := by
  rw [Dev.flag_newKeyRegs d n h v rfl (by simp [fSEC_KR_STS_EXH]) (by simp [fSEC_KR_STS_EXH]), Dev.flag_setFlag_self _ _ _ rfl]

theorem Dev.newKeyRegs_gen : (d.newKeyRegs n h v).flag (fSEC_KR_STS_GEN n) = !d.flag (fSEC_KR_STS_GEN n) := by
  rw [Dev.flag_newKeyRegs d n h v rfl (by simp [fSEC_KR_STS_GEN]) (by simp [fSEC_KR_STS_GEN]), Dev.setFlag,
    Dev.flag_set_of_disjoint _ _ (.inr (by simp [fSEC_KR_STS_GEN, fSEC_KR_STS_EXH])), Dev.flag_setFlag_self _ _ _ rfl]

end

/-! ### Subtrees (R186) -/

theorem Acc.rebuildStep_of_inside {a : Acc} {n : Nat} {q : Quar} (hq : a.dev.sec.quar.find? (fun q => q.n == n) = some q) (hl : q.curLevel ≠ q.level) :
    a.rebuildStep n = (a.rebuildNode q q.ctr).quarStep q (a.dev.quarNext q) := by
  unfold Acc.rebuildStep
  rw [hq]
  dsimp only
  rw [if_neg hl]

/-- Settles O18: a range whose key checks runs its engine, and a page in no window moves nothing but the cursor. -/
theorem counterTreeCommandsComplete : Obligations.CounterTreeCommandsComplete := by
  unfold Obligations.CounterTreeCommandsComplete
  refine ⟨fun s o ho hk => ?_, fun s n hst hh hq hk => ?_, fun a n hfresh hwin hnodes _ hmore =>
    ⟨fun d => d.set (fSEC_KR_ROTCUR_CURSOR n) (a.dev.get (fSEC_KR_ROTCUR_CURSOR n) / 4096 * 4096 + 4096), ?_, Dev.get_set_self _ _ _⟩, fun s n q hu hq hl hk => ?_,
    fun d n => ⟨d.rotEnd n, rfl, ?_⟩⟩
  · change execMinorOverflowReencrypt s = _
    unfold execMinorOverflowReencrypt
    rw [runAcc_eq]
    rw [show s.acc.dev.sec.ovf.find? s.acc.dev.ovfReady = some o from ho]
    dsimp only
    rw [Acc.underKr_of_ok (a := s.acc) _ hk]
  · change execRotationStep n s = _
    unfold execRotationStep
    rw [runAcc_when_of_true (by rw [show s.acc.dev = s.dev from rfl, hst, hh, hq]; rfl), Acc.underKr_of_ok (a := s.acc) _ hk]
  · rw [Acc.rotPage_of_no_window rfl hfresh hwin, Acc.rotDone_of_empty hfresh hnodes (by omega)]
  · change execTreeRebuildStep n s = _
    unfold execTreeRebuildStep
    rw [runAcc_when_of_true hu, Acc.underKr_of_ok (a := s.acc) _ hk, Acc.rebuildStep_of_inside (a := s.acc) hq hl]
    rfl
  · rw [d.rotEnd_eq]
    refine ⟨Dev.newKeyRegs_state _ _ _ _, Dev.newKeyRegs_next _ _ _ _, Dev.newKeyRegs_exh _ _ _ _, ?_, ?_⟩
    · rw [Dev.newKeyRegs_gen, Dev.flag_congr (d.keySwapped_csr n)]
    · rw [Dev.newKeyRegs_sec, d.keySwapped_keys]

end Sys2Proof.Machine
end


section
/-! Capacity (08_compression_tiering.md R213, R214, R220; 02_host_links.md R48): the commands complete. -/

namespace Sys2Proof.Machine

/-- R220: the three watermarks stand in their register. -/
def Dev.marked (d : Dev) (amber red hyst : Nat) : Dev := ((d.set fCDC_WM_AMBER_PM amber).set fCDC_WM_RED_PM red).set fCDC_WM_HYST_PM hyst

theorem Dev.marked_get (d : Dev) {amber red hyst : Nat} (ha : amber < 1024) (hr : red < 1024) (hh : hyst < 256) :
    (d.marked amber red hyst).get fCDC_WM_AMBER_PM = amber ∧ (d.marked amber red hyst).get fCDC_WM_RED_PM = red ∧
      (d.marked amber red hyst).get fCDC_WM_HYST_PM = hyst := by
  unfold Dev.marked
  refine ⟨?_, ?_, ?_⟩
  · rw [Dev.get_set_of_disjoint _ _ (.inl (by decide)), Dev.get_set_of_disjoint _ _ (.inl (by decide)), Dev.get_set_self]
    exact Nat.mod_eq_of_lt ha
  · rw [Dev.get_set_of_disjoint _ _ (.inl (by decide)), Dev.get_set_self]
    exact Nat.mod_eq_of_lt hr
  · rw [Dev.get_set_self]
    exact Nat.mod_eq_of_lt hh

theorem firstBad_watermarks {a r h : Nat} (hra : r < a) (ha : a ≤ 500) (hr : 1 ≤ r) (hh : 1 ≤ h) (hh' : h ≤ 100) :
    firstBad [(a == 0 || decide (a ≤ r) || decide (500 < a), stInvalidField, 16), (r == 0, stInvalidField, 18),
      (h == 0 || decide (100 < h), stInvalidField, 20)] = none := by
  rw [beq_false_of_ne (by omega), decide_eq_false (by omega), decide_eq_false (by omega), beq_false_of_ne (by omega), beq_false_of_ne (by omega),
    decide_eq_false (by omega)]
  rfl

/-- R213: the policy of window n. -/
def Dev.policed (d : Dev) (n mode drop : Nat) : Dev := (d.set (fCDC_WPOL_MODE n) mode).set (fCDC_WPOL_DROP_AT n) drop

theorem Dev.policed_get (d : Dev) (n : Nat) {mode drop : Nat} (hm : mode ≤ 1) (hd : drop ≤ 1) :
    (d.policed n mode drop).get (fCDC_WPOL_MODE n) = mode ∧ (d.policed n mode drop).get (fCDC_WPOL_DROP_AT n) = drop := by
  unfold Dev.policed
  refine ⟨?_, ?_⟩
  · rw [Dev.get_set_of_disjoint _ _ (.inl (by simp [fCDC_WPOL_MODE, fCDC_WPOL_DROP_AT])), Dev.get_set_self]
    exact Nat.mod_eq_of_lt (Nat.lt_succ_of_le hm)
  · rw [Dev.get_set_self]
    exact Nat.mod_eq_of_lt (Nat.lt_succ_of_le hd)

theorem Dev.policed_rd (d : Dev) (n mode drop : Nat) {k : Nat} (h : k ≠ rCDC_WPOL n) : (d.policed n mode drop).rd k = d.rd k := by
  unfold Dev.policed
  rw [Dev.rd_set_of_ne _ _ _ h, Dev.rd_set_of_ne _ _ _ h]

theorem firstBad_policy {d : Dev} {c : Pkt} (hv : d.winValid (c.at_ 0 1) = true) (ht : d.winTiered (c.at_ 0 1) = true) (hm : c.at_ 1 1 ≤ 1)
    (hd : c.at_ 2 1 ≤ 1) (hk : c.at_ 2 1 = 1 → d.winKind (c.at_ 0 1) = 2) :
    firstBad [(!d.winValid (c.at_ 0 1), stInvalidField, 16), (decide (1 < c.at_ 1 1), stInvalidField, 17), (decide (1 < c.at_ 2 1), stInvalidField, 18),
      (!d.winTiered (c.at_ 0 1) || (c.at_ 2 1 == 1 && d.winKind (c.at_ 0 1) != 2), stWinIllegal, noDetail)] = none := by
  have hshed : (c.at_ 2 1 == 1 && d.winKind (c.at_ 0 1) != 2) = false := by
    by_cases h : c.at_ 2 1 = 1
    · rw [hk h]
      exact Bool.and_false _
    · rw [beq_false_of_ne h, Bool.false_and]
  rw [hv, ht, decide_eq_false (by omega), decide_eq_false (by omega), hshed]
  rfl

theorem firstBad_eq_none (l : List (Bool × Nat × Nat)) (h : ∀ x ∈ l, x.1 = false) : firstBad l = none := by
  induction l with
  | nil => rfl
  | cons x l ih =>
    obtain ⟨b, y⟩ := x
    obtain rfl : b = false := h _ List.mem_cons_self
    exact ih (fun x hx => h x (List.mem_cons_of_mem _ hx))

/-- R213: firmware takes the limits of its tiering settings. -/
def Dev.tierLimited (d : Dev) (lim : List Nat) : Dev :=
  { d with mgt := { d.mgt with tierLim := lim }, flash := { d.flash with cfg := { d.flash.cfg with tierLim := lim } } }

theorem getD_range_map (f : Nat → Nat) {n k : Nat} (h : k < n) : ((List.range n).map f).getD k 0 = f k := by
  simp [List.getD_eq_getElem?_getD, h]

theorem firstBad_limits {c : Pkt} (h : ∀ i < 5, c.at_ (2 * i) 1 ≤ c.at_ (2 * i + 1) 1) :
    firstBad ((List.range 5).map (fun i => (decide (((List.range 10).map (fun i => c.at_ i 1)).getD (2 * i + 1) 0 <
      ((List.range 10).map (fun i => c.at_ i 1)).getD (2 * i) 0), stInvalidField, 16 + 2 * i))) = none := by
  refine firstBad_eq_none _ (fun x hx => ?_)
  obtain ⟨i, hi, rfl⟩ := List.mem_map.1 hx
  have hi5 : i < 5 := List.mem_range.1 hi
  rw [getD_range_map _ (by omega), getD_range_map _ (by omega)]
  exact decide_eq_false (Nat.not_lt.2 (h i hi5))

/-- R48: a region takes its base, length and code, or ends. -/
def dcPut (r base len code : Nat) (t : Tbl (Nat × Nat × Nat)) : Tbl (Nat × Nat × Nat) := if len = 0 then tdel t r else tins t r (base, len, code)

theorem tfind_dcPut (r base len code : Nat) (t : Tbl (Nat × Nat × Nat)) :
    tfind (dcPut r base len code t) r = if len = 0 then tfind (tdel t r) r else some (base, len, code) := by
  unfold dcPut
  split
  · rfl
  · exact tfind_tins_self _ _ _

/-- R48: the regions with one of them set. -/
def Dev.regioned (d : Dev) (r base len code : Nat) : Dev :=
  { d with win := { d.win with dc := dcPut r base len code d.win.dc }
           flash := { d.flash with cfg := { d.flash.cfg with dc := dcPut r base len code d.flash.cfg.dc } } }

/-- What every step of a fold leaves as it is, the fold leaves as it is. -/
theorem foldl_keeps {σ α β : Type} (p : σ → β) {g : σ → α → σ} (h : ∀ s x, p (g s x) = p s) (l : List α) (s : σ) : p (l.foldl g s) = p s := by
  induction l generalizing s with
  | nil => rfl
  | cons x l ih => exact (ih (g s x)).trans (h s x)

theorem Dev.cdatFollow_win (d : Dev) : d.cdatFollow.win = d.win := by
  unfold Dev.cdatFollow
  refine foldl_keeps Dev.win (fun d p => ?_) heads d
  dsimp only
  split
  · rfl
  · rw [Dev.emit_win, Dev.updPort_win]

/-- Settles O20: each command's operands meet its limits, so it writes what it sets and completes. -/
theorem capacityCommandsComplete : Obligations.CapacityCommandsComplete := by
  unfold Obligations.CapacityCommandsComplete
  refine ⟨fun s c ha hok => ?_, fun s c ha hra h500 hr hh hh' => ⟨s.dev.marked (c.at_ 0 2) (c.at_ 2 2) (c.at_ 4 2), ?_,
      s.dev.marked_get (by omega) (by omega) (by omega)⟩,
    fun s c ha hv ht hm hd hk => ⟨s.dev.policed (c.at_ 0 1) (c.at_ 1 1) (c.at_ 2 1), ?_, (s.dev.policed_get _ hm hd).1, (s.dev.policed_get _ hm hd).2,
      fun k h => s.dev.policed_rd _ _ _ h⟩,
    fun s c ha hlim => ⟨s.dev.tierLimited ((List.range 10).map (fun i => c.at_ i 1)), ?_, rfl, rfl, rfl⟩,
    fun s c ha hok => ⟨(s.dev.regioned (c.at_ 0 1) (c.at_ 4 4) (c.at_ 8 4) (c.at_ 1 1)).cdatFollow, ?_, ?_⟩⟩
  · change execCapLayout c s = _
    unfold execCapLayout
    exact run_command_done ha hok rfl
  · change execCapThresholds c s = _
    unfold execCapThresholds
    exact run_command_done ha (firstBad_watermarks hra h500 hr hh hh') rfl
  · change execCapWindowPolicy c s = _
    unfold execCapWindowPolicy
    exact run_command_done ha (firstBad_policy hv ht hm hd hk) rfl
  · change execCapTierLimits c s = _
    unfold execCapTierLimits
    exact run_command_done ha (firstBad_limits hlim) rfl
  · change execCapDcRegion c s = _
    unfold execCapDcRegion
    exact run_command_done ha hok rfl
  · rw [Dev.cdatFollow_win]
    exact tfind_dcPut _ _ _ _ _

end Sys2Proof.Machine
end


section
/-! The pair link's states (09_pair_link.md R228, R245 to R252): what each event makes of them. -/

namespace Sys2Proof.Machine

/-! ### Credits of the four virtual channels -/

/-- AVAIL of each virtual channel takes a value, as it stands when its turn comes. -/
def Dev.setAvail (g : Dev → Nat → Nat) (d : Dev) : Dev := (List.range 4).foldl (fun d v => d.set (fPAIR_VC_AVAIL v) (g d v)) d

section

variable (g : Dev → Nat → Nat) (d : Dev)

theorem Dev.setAvail_keeps {α : Type} (p : Dev → α) (h : ∀ (x : Dev) (f : Fld) (v : Nat), p (x.set f v) = p x) : p (d.setAvail g) = p d :=
  foldl_keeps p (fun x v => h x (fPAIR_VC_AVAIL v) (g x v)) _ d

theorem Dev.setAvail_eq : d.setAvail g =
    let d0 := d.set (fPAIR_VC_AVAIL 0) (g d 0)
    let d1 := d0.set (fPAIR_VC_AVAIL 1) (g d0 1)
    let d2 := d1.set (fPAIR_VC_AVAIL 2) (g d1 2)
    d2.set (fPAIR_VC_AVAIL 3) (g d2 3) := rfl

theorem Dev.setAvail_get {f : Fld} (h : ∀ v < 4, f.reg ≠ rPAIR_VC v) : (d.setAvail g).get f = d.get f := by
  rw [Dev.setAvail_eq]
  dsimp only
  rw [Dev.get_set_of_ne _ _ (h 3 (by decide)), Dev.get_set_of_ne _ _ (h 2 (by decide)), Dev.get_set_of_ne _ _ (h 1 (by decide)),
    Dev.get_set_of_ne _ _ (h 0 (by decide))]

theorem rPAIR_VC_inj {v w : Nat} (h : v ≠ w) : rPAIR_VC v ≠ rPAIR_VC w := by
  unfold rPAIR_VC
  omega

/-- Where the values do not depend on AVAIL, each AVAIL holds its own. -/
theorem Dev.setAvail_avail (hg : ∀ (x : Dev) (w v : Nat), g (x.set (fPAIR_VC_AVAIL w) v) = g x) {v : Nat} (hv : v < 4) :
    (d.setAvail g).get (fPAIR_VC_AVAIL v) = g d v % 2 ^ 11 := by
  have hne : ∀ {v w : Nat} (x : Dev) (n : Nat), v ≠ w → (x.set (fPAIR_VC_AVAIL w) n).get (fPAIR_VC_AVAIL v) = x.get (fPAIR_VC_AVAIL v) :=
    fun x n h => x.get_set_of_ne n (rPAIR_VC_inj h)
  have hself : ∀ (w : Nat) (x : Dev) (n : Nat), (x.set (fPAIR_VC_AVAIL w) n).get (fPAIR_VC_AVAIL w) = n % 2 ^ 11 :=
    fun w x n => x.get_set_self _ n
  rw [Dev.setAvail_eq]
  interval_cases v
  · simp only [hg, hne _ _ (show (0 : Nat) ≠ 3 by decide), hne _ _ (show (0 : Nat) ≠ 2 by decide), hne _ _ (show (0 : Nat) ≠ 1 by decide), hself]
  · simp only [hg, hne _ _ (show (1 : Nat) ≠ 3 by decide), hne _ _ (show (1 : Nat) ≠ 2 by decide), hself]
  · simp only [hg, hne _ _ (show (2 : Nat) ≠ 3 by decide), hself]
  · simp only [hg, hself]

end

/-! ### Training (R228, R246) -/

/-- The registers of the link at entry to TRAIN. -/
def Dev.trainRegs (d : Dev) : Dev :=
  ((((d.wr rPAIR_SEQ 0).set fPAIR_SEQ_ACKED 4095).set fPAIR_STS_STATE 1).set fPAIR_STS_KEYPH_TX 0).set fPAIR_STS_KEYPH_RX 0

theorem Dev.enterTrain_csr (d : Dev) : d.enterTrain.csr = d.trainRegs.csr := rfl

theorem Dev.enterTrain_linkSt (d : Dev) : d.enterTrain.linkSt = 1 := by
  unfold Dev.linkSt
  rw [Dev.get_congr d.enterTrain_csr]
  unfold Dev.trainRegs
  rw [Dev.get_set_of_disjoint _ _ (.inl (by decide)), Dev.get_set_of_disjoint _ _ (.inl (by decide)), Dev.get_set_self]
  rfl

theorem Dev.enterTrain_seq (d : Dev) : d.enterTrain.rd rPAIR_SEQ = wordPut 0 fPAIR_SEQ_ACKED.lo fPAIR_SEQ_ACKED.w 4095 := by
  rw [Dev.rd_congr d.enterTrain_csr]
  unfold Dev.trainRegs
  rw [Dev.rd_set_of_ne _ _ _ (by decide), Dev.rd_set_of_ne _ _ _ (by decide), Dev.rd_set_of_ne _ _ _ (by decide)]
  exact (Dev.rd_wr_self _ _ _).trans (by rw [show fPAIR_SEQ_ACKED.reg = rPAIR_SEQ from rfl, Dev.rd_wr_self])

theorem Dev.tryTrain_of_canTrain {d : Dev} (h : d.canTrain = true) : d.tryTrain = d.enterTrain := by
  unfold Dev.tryTrain
  rw [h]
  rfl

/-- Both directions have trained on enough lanes: the link is in SETUP. -/
def Dev.setUp (d : Dev) (tx rx : Nat) (slow : Bool) : Dev :=
  let d := ((d.setLanes tx rx slow).set fPAIR_STS_STATE 2).setAvail (fun d v => d.get (fPAIR_VC_LIMIT v))
  { d with pair := { d.pair with trainFails := 0 } }

theorem Dev.setLanes_mir (d : Dev) (tx rx : Nat) (slow : Bool) : (d.setLanes tx rx slow).mir = d.mir := by
  unfold Dev.setLanes
  dsimp only
  rw [Dev.setFlag_mir, Dev.set_mir, Dev.set_mir, Dev.set_mir, Dev.set_mir]

theorem Dev.setLanes_pair (d : Dev) (tx rx : Nat) (slow : Bool) : (d.setLanes tx rx slow).pair = d.pair := by
  unfold Dev.setLanes
  dsimp only
  rw [Dev.setFlag_pair, Dev.set_pair, Dev.set_pair, Dev.set_pair, Dev.set_pair]

/-- The lanes as a device in state st of the link shows them. -/
theorem Dev.setLanes_get (d : Dev) {tx rx st : Nat} (slow : Bool) (htx : tx < 2 ^ 16) (hrx : rx < 2 ^ 16) (hst : st < 8) :
    ((d.setLanes tx rx slow).set fPAIR_STS_STATE st).get fPAIR_STS_STATE = st ∧
    ((d.setLanes tx rx slow).set fPAIR_STS_STATE st).get fPAIR_LANE_STS_TX_ACTIVE = tx ∧
    ((d.setLanes tx rx slow).set fPAIR_STS_STATE st).get fPAIR_LANE_STS_RX_ACTIVE = rx ∧
    ((d.setLanes tx rx slow).set fPAIR_STS_STATE st).get fPAIR_STS_TX_W = popCount 16 tx % 32 ∧
    ((d.setLanes tx rx slow).set fPAIR_STS_STATE st).flag fPAIR_STS_RATE = slow := by
  unfold Dev.setLanes
  dsimp only
  refine ⟨?_, ?_, ?_, ?_, ?_⟩
  · rw [Dev.get_set_self]
    exact Nat.mod_eq_of_lt hst
  · rw [Dev.get_set_of_ne _ _ (by decide), Dev.setFlag, Dev.get_set_of_ne _ _ (by decide), Dev.get_set_of_ne _ _ (by decide), Dev.get_set_of_ne _ _ (by decide),
      Dev.get_set_of_disjoint _ _ (.inl (by decide)), Dev.get_set_self]
    exact Nat.mod_eq_of_lt htx
  · rw [Dev.get_set_of_ne _ _ (by decide), Dev.setFlag, Dev.get_set_of_ne _ _ (by decide), Dev.get_set_of_ne _ _ (by decide), Dev.get_set_of_ne _ _ (by decide),
      Dev.get_set_self]
    exact Nat.mod_eq_of_lt hrx
  · rw [Dev.get_set_of_disjoint _ _ (.inr (by decide)), Dev.setFlag, Dev.get_set_of_disjoint _ _ (.inl (by decide)), Dev.get_set_of_disjoint _ _ (.inl (by decide)),
      Dev.get_set_self]
    rfl
  · rw [Dev.flag_set_of_disjoint _ _ (.inr (by decide)), Dev.flag_setFlag_self _ _ _ rfl]

theorem Dev.setUp_csr (d : Dev) (tx rx : Nat) (slow : Bool) : (d.setUp tx rx slow).csr =
    (((d.setLanes tx rx slow).set fPAIR_STS_STATE 2).setAvail (fun d v => d.get (fPAIR_VC_LIMIT v))).csr := rfl

theorem Dev.setUp_mir (d : Dev) (tx rx : Nat) (slow : Bool) : (d.setUp tx rx slow).mir = d.mir := by
  unfold Dev.setUp
  dsimp only
  rw [Dev.setAvail_keeps _ _ Dev.mir Dev.set_mir, Dev.set_mir, Dev.setLanes_mir]

theorem Dev.setUp_get (d : Dev) (tx rx : Nat) (slow : Bool) {f : Fld} (h : ∀ v < 4, f.reg ≠ rPAIR_VC v) :
    (d.setUp tx rx slow).get f = ((d.setLanes tx rx slow).set fPAIR_STS_STATE 2).get f := by
  rw [Dev.get_congr (d.setUp_csr tx rx slow), Dev.setAvail_get _ _ h]

theorem Dev.trained_eq {d : Dev} {tx rx : Nat} {slow : Bool} (htx : 4 ≤ popCount 16 tx) (hrx : 4 ≤ popCount 16 rx) :
    d.trained tx rx slow = if (d.setUp tx rx slow).mir.pairing.isSome ∧ (d.setUp tx rx slow).get fPAIR_STS_ROLE = 0 then (d.setUp tx rx slow).spdmSend
      else d.setUp tx rx slow := by
  unfold Dev.trained
  rw [if_neg (by omega)]
  rfl

theorem Dev.trained_of_lanes {d : Dev} {tx rx : Nat} {slow : Bool} (htx : 4 ≤ popCount 16 tx) (hrx : 4 ≤ popCount 16 rx) (hp : d.mir.pairing = none) :
    d.trained tx rx slow = d.setUp tx rx slow := by
  rw [Dev.trained_eq htx hrx, d.setUp_mir, hp, if_neg (fun h => Bool.false_ne_true h.1)]

/-! ### Pause (R249) -/

/-- R249: both directions are retrained, and what was outstanding is replayed. -/
def Dev.unpaused (d : Dev) (tx rx : Nat) : Dev :=
  let d := ((d.setLanes tx rx (d.pair.pauseR == 1)).set fPAIR_STS_STATE 3).setAvail (fun d v => cnt d.pair.credits v)
  { d with pair := { d.pair with pause := 0, pauseBg := none, pauseSeq := none, credits := [], rxDrop := d.pair.rxDrop.filter rx.testBit
                                 txRestripe := d.pair.txRestripe.filter tx.testBit, replay := d.pair.outst.map (fun (f : PFrame) => f.seq)
                                 str := { epoch := d.pair.str.epoch + 1 } } }

theorem Dev.unpaused_csr (d : Dev) (tx rx : Nat) : (d.unpaused tx rx).csr =
    (((d.setLanes tx rx (d.pair.pauseR == 1)).set fPAIR_STS_STATE 3).setAvail (fun d v => cnt d.pair.credits v)).csr := rfl

theorem Dev.unpaused_mir (d : Dev) (tx rx : Nat) : (d.unpaused tx rx).mir = d.mir := by
  unfold Dev.unpaused
  dsimp only
  rw [Dev.setAvail_keeps _ _ Dev.mir Dev.set_mir, Dev.set_mir, Dev.setLanes_mir]

theorem Dev.unpaused_linkSt (d : Dev) (tx rx : Nat) : (d.unpaused tx rx).linkSt = 3 := by
  unfold Dev.linkSt
  rw [Dev.get_congr (d.unpaused_csr tx rx), Dev.setAvail_get _ _ (by decide), Dev.get_set_self]
  rfl

theorem Dev.unpaused_replay (d : Dev) (tx rx : Nat) : (d.unpaused tx rx).pair.replay = d.pair.outst.map (fun f => f.seq) := by
  have hpair : (((d.setLanes tx rx (d.pair.pauseR == 1)).set fPAIR_STS_STATE 3).setAvail (fun d v => cnt d.pair.credits v)).pair = d.pair := by
    rw [Dev.setAvail_keeps _ _ Dev.pair Dev.set_pair, Dev.set_pair, Dev.setLanes_pair]
  unfold Dev.unpaused
  dsimp only
  rw [hpair]

theorem Dev.unpaused_avail (d : Dev) (tx rx : Nat) {v : Nat} (hv : v < 4) :
    (d.unpaused tx rx).get (fPAIR_VC_AVAIL v) = cnt d.pair.credits v % 2 ^ (fPAIR_VC_AVAIL v).w := by
  rw [Dev.get_congr (d.unpaused_csr tx rx), Dev.setAvail_avail _ _ (fun x w v => by rw [Dev.set_pair]) hv, Dev.set_pair, Dev.setLanes_pair]
  rfl

theorem Dev.pairRetrained_of_lanes {d : Dev} {tx rx : Nat} (htx : 4 ≤ popCount 16 (firstLanes tx d.pair.pauseW))
    (hrx : 4 ≤ popCount 16 (firstLanes rx d.pair.pauseW)) :
    d.pairRetrained tx rx = (if d.mir.shGot then (d.unpaused (firstLanes tx d.pair.pauseW) (firstLanes rx d.pair.pauseW)).resumeAll
      else d.unpaused (firstLanes tx d.pair.pauseW) (firstLanes rx d.pair.pauseW)).bgDoneOpt d.pair.pauseBg 0 noDetail [] := by
  rw [← Dev.unpaused_mir d (firstLanes tx d.pair.pauseW) (firstLanes rx d.pair.pauseW)]
  unfold Dev.pairRetrained
  dsimp only
  rw [if_neg (by omega)]
  rfl

/-! ### Lanes (R250) -/

theorem Dev.laneFails_of_spare {d : Dev} {k : Nat} (hdrop : d.pair.rxDrop = []) (hw : 5 ≤ d.get fPAIR_STS_RX_W) :
    d.laneFails k = (({ d with pair := { d.pair with rxDrop := [k] } } : Dev).setTxq 2 ([pmsg 0x23 (leOf 1 k)] ++ d.txq 2)).raise
      { src := src 31 0, sev := 3, code := 250, obj := k } := by
  have hspare : ¬ ({ d with pair := { d.pair with rxDrop := [k] } } : Dev).get fPAIR_STS_RX_W < 4 + 1 :=
    Nat.not_lt.2 (le_of_le_of_eq hw (Dev.get_congr rfl _).symm)
  unfold Dev.laneFails
  rw [hdrop]
  exact if_neg hspare

theorem Dev.laneBad_of_within {d : Dev} {n : Nat} (h : d.get fPAIR_LANE_SER_THR = 0 ∨ n ≤ d.get fPAIR_LANE_SER_THR) : d.laneBad (some n) = false := by
  unfold Dev.laneBad
  dsimp only
  obtain h | h := h
  · rw [h]
    rfl
  · rw [decide_eq_false (by omega), Bool.and_false]

/-- The first lane that waits to be dropped leaves the striping. -/
def Dev.unstriped (d : Dev) (k : Nat) (t : List Nat) : Dev :=
  let d := (({ d with pair := { d.pair with rxDrop := t } } : Dev).setBit fPAIR_LANE_STS_RX_ACTIVE k false).bumpSat fPAIR_ERRCNT1_LANE_DROPS 1
  d.set fPAIR_STS_RX_W (popCount 16 (d.get fPAIR_LANE_STS_RX_ACTIVE))

theorem Dev.restripeIn_of_cons {d : Dev} {k : Nat} {t : List Nat} (h : d.pair.rxDrop = k :: t) : d.restripeIn = d.unstriped k t := by
  unfold Dev.restripeIn
  rw [h]
  rfl

theorem Dev.unstriped_rxDrop (d : Dev) (k : Nat) (t : List Nat) : (d.unstriped k t).pair.rxDrop = t := by
  unfold Dev.unstriped
  dsimp only
  rw [Dev.set_pair, Dev.bumpSat, Dev.set_pair, Dev.setBit, Dev.set_pair]

theorem Dev.unstriped_width (d : Dev) (k : Nat) (t : List Nat) :
    (d.unstriped k t).get fPAIR_STS_RX_W = popCount 16 ((d.unstriped k t).get fPAIR_LANE_STS_RX_ACTIVE) % 32 := by
  unfold Dev.unstriped
  dsimp only
  rw [Dev.get_set_self, Dev.get_set_of_ne _ _ (by decide)]
  rfl

theorem Dev.bit_of_le (d : Dev) {f : Fld} {i : Nat} (h : f.w ≤ i) : d.bit f i = false :=
  Nat.testBit_lt_two_pow (lt_of_lt_of_le (d.get_lt f) (Nat.pow_le_pow_right (by decide) h))

theorem Dev.unstriped_lane (d : Dev) (k : Nat) (t : List Nat) : (d.unstriped k t).bit fPAIR_LANE_STS_RX_ACTIVE k = false := by
  by_cases hk : k < 16
  · unfold Dev.unstriped
    dsimp only
    rw [Dev.bit_set_of_ne _ _ _ (by decide), Dev.bumpSat, Dev.bit_set_of_ne _ _ _ (by decide)]
    exact Dev.bit_setBit_self _ _ _ hk
  · exact Dev.bit_of_le _ (Nat.le_of_not_lt hk)

theorem Dev.framing_of {d : Dev} (h : d.linkSt = 2 ∨ d.linkSt = 3) : d.framing = true := by
  unfold Dev.framing
  obtain h | h := h
  · rw [h]
    rfl
  · rw [h]
    rfl

theorem Dev.credit_of_le {d : Dev} {v : Nat} (h : d.get (fPAIR_VC_AVAIL v) ≤ (if v = 2 then 1 else 0)) : d.credit v = 0 := Nat.sub_eq_zero_of_le h

/-- Settles O21: each event finds the link in its state, and its effect is read off the registers that it sets. -/
theorem pairLinkEventsComplete : Obligations.PairLinkEventsComplete := by
  unfold Obligations.PairLinkEventsComplete
  refine ⟨fun s h => ?_, fun s => rfl, fun s => rfl, fun s w ha => ⟨?_, ?_⟩, fun d h => ?_, fun s tx rx slow hst hs htx hrx hp => ?_, fun s h => ?_,
    fun s h => ?_, fun s h => ?_, fun s vc h hq hav => ?_, fun s h => ?_, fun s tx rx h => ?_, fun d tx rx htx hrx => ?_,
    fun s lane h hen hact hdrop hw => ?_, fun s lane n h => ?_, fun s k t h hdrop => ?_, fun s h => ?_, fun s h hw => ?_⟩
  · change execRetryTimerExpiry s = _
    exact run_when_of_true (by rw [h]; rfl)
  · change execPairCtlEn w true s = _
    unfold execPairCtlEn
    rw [run_eq, Dev.writeBy_allowed _ _ _ _ ha]
    rfl
  · change execPairCtlEn w false s = _
    unfold execPairCtlEn
    rw [run_eq, Dev.writeBy_allowed _ _ _ _ ha]
    rfl
  · rw [Dev.tryTrain_of_canTrain h]
    exact ⟨d.enterTrain_linkSt, d.enterTrain_seq, rfl, rfl⟩
  · obtain ⟨hst2, htxa, hrxa, hw, hrate⟩ := s.dev.setLanes_get (st := 2) slow tx.isLt rx.isLt (by decide)
    refine ⟨s.dev.setUp tx.toNat rx.toNat slow, ?_, ?_, ?_, ?_, ?_, ?_, rfl⟩
    · change execPairTrainingDone tx rx slow s = _
      unfold execPairTrainingDone
      rw [run_when_of_true (by rw [hst, hs]; exact BEq.rfl), Dev.trained_of_lanes htx hrx hp]
    · exact (Dev.setUp_get _ _ _ _ (by decide)).trans hst2
    · exact (Dev.setUp_get _ _ _ _ (by decide)).trans htxa
    · exact (Dev.setUp_get _ _ _ _ (by decide)).trans hrxa
    · exact (Dev.setUp_get _ _ _ _ (by decide)).trans hw
    · unfold Dev.flag
      rw [Dev.setUp_get _ _ _ _ (by decide)]
      exact hrate
  · change execTrainTimeout s = _
    exact run_when_of_true (by rw [h]; rfl)
  · change execSetupTimeout s = _
    exact run_when_of_true (by rw [h]; rfl)
  · change execLockLoss s = _
    exact run_when_of_true (Dev.framing_of h)
  · change execCreditTimeout vc s = _
    unfold execCreditTimeout
    exact run_when_of_true (by rw [Dev.framing_of h, List.isEmpty_eq_false_iff.2 hq, Dev.credit_of_le hav]; rfl)
  · change execPauseTimeout s = _
    exact run_when_of_true (by rw [h]; rfl)
  · change execPairRetrainDone tx rx s = _
    unfold execPairRetrainDone
    rw [run_when_of_true (by rw [h]; rfl), if_pos h]
  · exact ⟨d.unpaused (firstLanes tx d.pair.pauseW) (firstLanes rx d.pair.pauseW), Dev.pairRetrained_of_lanes htx hrx, Dev.unpaused_linkSt _ _ _, rfl,
      Dev.unpaused_replay _ _ _, fun v hv => Dev.unpaused_avail _ _ _ hv⟩
  · change execLaneFailure ⟨lane, none⟩ s = _
    unfold execLaneFailure
    dsimp only
    rw [run_when_of_true (by rw [Dev.linkUp, h, hen, hact, hdrop]; rfl), Dev.laneFails_of_spare hdrop hw]
  · change execLaneFailure ⟨lane, some n⟩ s = _
    unfold execLaneFailure
    dsimp only [Option.map_some]
    rw [run_eq, Dev.when_of_false _ _ _ (by rw [Dev.laneBad_of_within h]; rfl)]
  · refine ⟨s.dev.unstriped k t, ?_, ?_, ?_, ?_⟩
    · change execRestripeSlot s = _
      unfold execRestripeSlot
      rw [run_when_of_true (Dev.framing_of h), Dev.restripeIn_of_cons hdrop]
    · exact s.dev.unstriped_rxDrop k t
    · exact s.dev.unstriped_lane k t
    · exact s.dev.unstriped_width k t
  · change execWakePatternDetect s = _
    exact runAcc_when_of_true (by rw [show s.acc.dev = s.dev from rfl, h]; rfl)
  · change execWakePatternEnd s = _
    exact run_when_of_true (by rw [h, hw]; rfl)

end Sys2Proof.Machine
end


section
/-! Frames of the pair link (09_pair_link.md R236 to R244): sent, received and replayed. -/

namespace Sys2Proof.Machine

/-! ### Sending (R236) -/

/-- What counts events in unit u touches registers and messages alone. -/
theorem Dev.Counts.pair_eq {d e : Dev} {u : Nat} (h : d.Counts u e) : e.pair = d.pair := by
  obtain ⟨⟨c, o, rfl⟩, _⟩ := h
  rfl

theorem Dev.restripe_of_nil {d : Dev} (h : d.pair.txRestripe = []) : d.restripe = d := by
  unfold Dev.restripe
  rw [h]
  exact ite_self d

theorem Dev.with_replay_self {d : Dev} (h : d.pair.replay = []) : ({ d with pair := { d.pair with replay := [] } } : Dev) = d := by
  rw [← h]

theorem Dev.takeKey_sleepOk (d : Dev) : d.takeKey.pair.sleepOk = d.pair.sleepOk := by
  unfold Dev.takeKey
  split
  · rfl
  · rfl

theorem Dev.carry_sleepOk (d : Dev) (f : List Byte) : (d.carry f).pair.sleepOk = d.pair.sleepOk := by
  unfold Dev.carry
  dsimp only
  split
  · rfl
  · split
    · rfl
    · rfl

theorem Dev.sendNull_sleepOk (d : Dev) : d.sendNull.pair.sleepOk = d.pair.sleepOk := by
  have hframed : ∀ x : Dev, x.framed.pair.sleepOk = x.pair.sleepOk := fun x => rfl
  unfold Dev.sendNull Dev.putFrame
  dsimp only
  rw [hframed, (Dev.counts_pmu _ 41 0x61 0 8 1).pair_eq, Dev.carry_sleepOk, Dev.emit_pair, Dev.takeKey_sleepOk]

section

variable {d : Dev} (hr : d.pair.txRestripe = []) (hc : d.pair.txCnt < keyLimit) (hp : d.pair.replay = []) (hh : d.pair.halt = none)
include hr hc hp hh

theorem Dev.frameSlot_of_vc {v : Nat} (hv : d.nextVc = some v) : d.frameSlot = (d.sendSome v).tryUp := by
  unfold Dev.frameSlot
  rw [Dev.restripe_of_nil hr]
  dsimp only
  rw [if_neg (by rw [decide_eq_false (Nat.not_le.2 hc), Bool.false_and]; exact Bool.false_ne_true), hp]
  simp only [List.filterMap_nil, Dev.with_replay_self hp]
  rw [hh, hv]

theorem Dev.frameSlot_of_idle (hv : d.nextVc = none) (hs : d.pair.sleepOk = false) : d.frameSlot = d.sendNull.tryUp := by
  unfold Dev.frameSlot
  rw [Dev.restripe_of_nil hr]
  dsimp only
  rw [if_neg (by rw [decide_eq_false (Nat.not_le.2 hc), Bool.false_and]; exact Bool.false_ne_true), hp]
  simp only [List.filterMap_nil, Dev.with_replay_self hp]
  rw [hh, hv]
  dsimp only
  rw [d.sendNull_sleepOk, hs, Bool.false_and, if_neg Bool.false_ne_true]

end

/-! ### Replay (R243) -/

/-- R243: the replay timer expires once more, and every outstanding frame is to be replayed. -/
def Dev.expired (d : Dev) : Dev :=
  let d := d.bumpSat fPAIR_ERRCNT0_REPLAYS 1
  { d with pair := { d.pair with expiries := d.pair.expiries + 1, replay := d.pair.outst.map (fun (f : PFrame) => f.seq) } }

theorem Dev.expired_csr (d : Dev) : d.expired.csr = (d.bumpSat fPAIR_ERRCNT0_REPLAYS 1).csr := rfl

theorem Dev.expired_expiries (d : Dev) : d.expired.pair.expiries = d.pair.expiries + 1 := rfl

theorem Dev.expired_replay (d : Dev) : d.expired.pair.replay = d.pair.outst.map (fun f => f.seq) := rfl

theorem Dev.expired_rd (d : Dev) {k : Nat} (h : k ≠ rPAIR_ERRCNT0) : d.expired.rd k = d.rd k := by
  rw [Dev.rd_congr d.expired_csr, Dev.bumpSat, Dev.rd_set_of_ne _ _ _ h]

theorem Dev.pauseSent_bump (d : Dev) : (d.bumpSat fPAIR_ERRCNT0_REPLAYS 1).pauseSent = d.pauseSent := by
  unfold Dev.pauseSent Dev.linkUp Dev.linkSt Dev.bumpSat
  rw [Dev.get_set_of_ne _ _ (by decide), Dev.set_pair]

theorem Dev.replayExpiry_of_few {d : Dev} (hp : d.pauseSent = false)
    (h : d.pair.expiries + 1 < (if d.get fPAIR_TMR1_REPLAY_MAX = 0 then 15 else d.get fPAIR_TMR1_REPLAY_MAX)) : d.replayExpiry = d.expired := by
  have hmax : (d.bumpSat fPAIR_ERRCNT0_REPLAYS 1).get fPAIR_TMR1_REPLAY_MAX = d.get fPAIR_TMR1_REPLAY_MAX := d.get_set_of_ne _ (by decide)
  unfold Dev.replayExpiry
  dsimp only
  rw [Dev.pauseSent_bump, hp, hmax]
  exact if_neg (by rw [if_neg Bool.false_ne_true]; exact Nat.not_le.2 h)

/-! ### Keys (R244) -/

theorem Dev.spdmSend_keys (d : Dev) : d.spdmSend.pair.txNext = d.pair.txNext ∧ d.spdmSend.pair.rxNew = d.pair.rxNew := by
  unfold Dev.spdmSend
  exact ⟨foldl_keeps (fun x : Dev => x.pair.txNext) (g := fun d m => d.pairPush 2 m) (fun x m => rfl) _ _,
    foldl_keeps (fun x : Dev => x.pair.rxNew) (g := fun d m => d.pairPush 2 m) (fun x m => rfl) _ _⟩

theorem Dev.newPairKey_pair (d : Dev) : d.newPairKey.2.pair = d.pair := rfl

theorem Dev.epochBump_pair (d : Dev) : (d.bumpSat fSEC_PAIR_STS_KEY_EPOCH 1).pair = d.pair := Dev.set_pair _ _ _

/-- The next key of a direction, and the device that drew it. -/
def Dev.exchanged (d : Dev) : PKey × Dev := (d.bumpSat fSEC_PAIR_STS_KEY_EPOCH 1).spdmSend.newPairKey

theorem Dev.exchanged_keys (d : Dev) : d.exchanged.2.pair.txNext = d.pair.txNext ∧ d.exchanged.2.pair.rxNew = d.pair.rxNew := by
  unfold Dev.exchanged
  rw [Dev.newPairKey_pair, (Dev.spdmSend_keys _).1, (Dev.spdmSend_keys _).2, Dev.epochBump_pair]
  exact ⟨rfl, rfl⟩

/-- The partner's direction, and this controller's, have their next key. -/
def Dev.rxKeyed (d : Dev) (k : PKey) : Dev := { d with pair := { d.pair with rxNew := some k } }
def Dev.txKeyed (d : Dev) (k : PKey) : Dev := { d with pair := { d.pair with txNext := some k } }

theorem Dev.keyUpdate_rx {d : Dev} (hl : d.linkSt = 3) (hf : d.fwUp = true) (hn : d.pair.rxNew = none) :
    d.keyUpdate true = d.exchanged.2.rxKeyed d.exchanged.1 := by
  unfold Dev.keyUpdate Dev.linkUp
  dsimp only
  rw [hl, hf, hn]
  rfl

theorem Dev.keyUpdate_tx {d : Dev} (hl : d.linkSt = 3) (hf : d.fwUp = true) (hn : d.pair.txNext = none) (hc : 2 ^ 31 ≤ d.pair.txCnt) :
    d.keyUpdate false = d.exchanged.2.txKeyed d.exchanged.1 := by
  unfold Dev.keyUpdate Dev.linkUp
  dsimp only
  rw [hl, hf, hn, decide_eq_true hc]
  rfl

/-! ### Receiving (R239) -/

theorem Dev.frameIn_of_verified {d : Dev} {f : FrameIn} {ph : RxPhase} {k : PKey} {c : Nat} (hf : f.fecOk = true)
    (hk : d.frameKey (inHdr f) = some (ph, k, c)) (hv : k.verifies c f.bytes = true) : d.frameIn f = d.verified (inHdr f) (k.body c f.bytes) ph c := by
  unfold Dev.frameIn
  rw [hf, hk]
  dsimp only
  rw [hv]
  rfl

theorem Dev.frameIn_of_uncorrectable {d : Dev} {f : FrameIn} (hf : f.fecOk = false) : d.frameIn f = d.bumpSat fPAIR_ERRCNT0_FEC_UNC 1 := by
  unfold Dev.frameIn
  rw [hf]
  rfl

theorem Dev.frameGood_of_uncorrectable {d : Dev} {f : FrameIn} (hf : f.fecOk = false) : d.frameGood f = false := by
  unfold Dev.frameGood
  split
  · rw [hf, Bool.false_and]
  · rfl

/-- Settles O22: with nothing to replay, restripe or halt for, a slot sends the next frame; an expiry below the limit only resends. -/
theorem pairFramesComplete : Obligations.PairFramesComplete := by
  unfold Obligations.PairFramesComplete
  refine ⟨fun s h => ?_, fun d v hr hc hp hh hv => Dev.frameSlot_of_vc hr hc hp hh hv, fun d hr hc hp hh hv hs => Dev.frameSlot_of_idle hr hc hp hh hv hs,
    fun s h ho hps hx => ⟨s.dev.expired, ?_, s.dev.expired_replay, s.dev.expired_expiries, fun k hk => s.dev.expired_rd hk⟩,
    fun s hl hf hn => ⟨s.dev.exchanged.2.rxKeyed s.dev.exchanged.1, ?_, rfl, s.dev.exchanged_keys.1⟩,
    fun s hl hf hn hc => ⟨s.dev.exchanged.2.txKeyed s.dev.exchanged.1, ?_, rfl, s.dev.exchanged_keys.2⟩,
    fun s f h hg => ?_, fun d f ph k c hf hk hv => Dev.frameIn_of_verified hf hk hv, fun s f h hf => ?_⟩
  · change execFrameSlotSend s = _
    exact run_when_of_true (Dev.framing_of h)
  · change execReplayTimerExpiry s = _
    unfold execReplayTimerExpiry
    rw [run_when_of_true (by rw [Dev.framing_of h, List.isEmpty_eq_false_iff.2 ho]; rfl), Dev.replayExpiry_of_few hps hx]
  · change execKeyUpdate true s = _
    unfold execKeyUpdate
    rw [run_eq, Dev.keyUpdate_rx hl hf hn]
  · change execKeyUpdate false s = _
    unfold execKeyUpdate
    rw [run_eq, Dev.keyUpdate_tx hl hf hn hc]
  · change execPairFrameReceive f s = _
    unfold execPairFrameReceive
    rw [runAcc_when_of_true (Dev.framing_of h)]
    dsimp only
    rw [show s.acc.dev.frameGood f = true from hg]
    cases (inHdr f).null with
    | true => rfl
    | false => rfl
  · change execPairFrameReceive f s = _
    unfold execPairFrameReceive
    rw [runAcc_when_of_true (Dev.framing_of h)]
    dsimp only
    rw [Dev.frameGood_of_uncorrectable hf, Bool.false_and, if_neg Bool.false_ne_true]
    simp only [Dev.frameIn_of_uncorrectable hf]

end Sys2Proof.Machine
end


section
/-! Messages of the pair link's own (09_pair_link.md R233 to R235, R249 to R253): what each does when it arrives. -/

namespace Sys2Proof.Machine

/-! ### Messages taken (R238) -/

section

variable {d : Dev} {m : PMsg} {v ty : Nat}

theorem Dev.onMsg_of_head (f : PMsg → Dev → Dev) (h : d.rxHead v = some m) (ht : m.mtype = ty) : d.onMsg v ty f = f m (d.rxTake v) := by
  unfold Dev.onMsg
  rw [h]
  exact if_pos ht

theorem Dev.linkMsg_of_head {ok : Bool} (f : PMsg → Dev → Dev) (h : d.rxHead 2 = some m) (ht : m.mtype = ty) (hok : ok = true) :
    d.linkMsg ty ok f = f m (d.rxTake 2) := by
  unfold Dev.linkMsg
  rw [Dev.onMsg_of_head _ h ht]
  exact if_pos hok

end

/-- Taking a message changes what is received alone. -/
theorem Dev.rxTake_keeps (d : Dev) (v : Nat) : (d.rxTake v).csr = d.csr ∧ (∀ w, (d.rxTake v).txq w = d.txq w) ∧
    (d.rxTake v).pair.txRestripe = d.pair.txRestripe := by
  unfold Dev.rxTake
  dsimp only
  split
  · exact ⟨rfl, fun _ => rfl, rfl⟩
  · exact ⟨rfl, fun _ => rfl, rfl⟩
  · exact ⟨rfl, fun _ => rfl, rfl⟩

theorem Dev.rxTake_get (d : Dev) (v : Nat) (f : Fld) : (d.rxTake v).get f = d.get f := Dev.get_congr (d.rxTake_keeps v).1 f

/-! ### Messages queued -/

theorem Dev.txq_setTxq_self (d : Dev) (v : Nat) (l : List PMsg) : (d.setTxq v l).txq v = l := tget_tset_self _ _ _ _

theorem Dev.txq_pairPush_self (d : Dev) (v : Nat) (m : PMsg) : (d.pairPush v m).txq v = d.txq v ++ [m] := d.txq_setTxq_self v _

/-! ### The session (R235, R356) -/

section

variable {d : Dev} {m : PMsg} (hs : PairHs) (peer : Nat) (hf : (m.at_ 0 1).testBit 0 = true) (hn : d.pair.spdmIn = none)
include hf hn

theorem Dev.spdmFragment_of_whole (hl : (m.at_ 0 1).testBit 1 = true) :
    d.spdmFragment m hs peer = Dev.pairSpdmIn { d with pair := { d.pair with spdmIn := none } } hs peer := by
  unfold Dev.spdmFragment
  dsimp only
  rw [if_neg (by rw [hf, hn]; decide), if_pos hl]

theorem Dev.spdmFragment_of_first (hl : (m.at_ 0 1).testBit 1 = false) :
    d.spdmFragment m hs peer = { d with pair := { d.pair with spdmIn := some (m.payload.drop 1) } } := by
  unfold Dev.spdmFragment
  dsimp only
  rw [if_neg (by rw [hf, hn]; decide), if_neg (by rw [hl]; decide), hn]
  rfl

end

theorem Dev.spdmSend_keeps {α : Type} (p : Dev → α) (hpush : ∀ (x : Dev) (m : PMsg), p (x.pairPush 2 m) = p x)
    (hdraw : ∀ (x : Dev) (n : Nat), p { x with freeN := n } = p x) (d : Dev) : p d.spdmSend = p d := by
  unfold Dev.spdmSend
  exact (foldl_keeps p hpush _ _).trans (hdraw d _)

/-- A session with fresh keys for both directions. -/
def Dev.inSession (d : Dev) : Dev :=
  let d := d.set fSEC_PAIR_STS_KEY_EPOCH 0
  let t := d.newPairKey
  let r := t.2.newPairKey
  { r.2 with pair := { r.2.pair with session := true, txNext := some t.1, rxNew := some r.1 } }

theorem Dev.inSession_csr (d : Dev) : d.inSession.csr = (d.set fSEC_PAIR_STS_KEY_EPOCH 0).csr := rfl

theorem Dev.inSession_epoch (d : Dev) : d.inSession.get fSEC_PAIR_STS_KEY_EPOCH = 0 := by
  rw [Dev.get_congr d.inSession_csr, Dev.get_set_self]
  rfl

theorem Dev.pairSpdmIn_of_accepted {d : Dev} {peer : Nat} {r : Nat × Nat} (hf : d.fwUp = true) (hl : d.linkSt = 2) (hp : d.mir.pairing = some r)
    (hr : r.2 = ofBytes (sha256 (toBytes 32 peer))) (hs : d.pair.session = false) : d.pairSpdmIn (.done true) peer = d.spdmSend.inSession := by
  have hmir : d.spdmSend.mir = d.mir := d.spdmSend_keeps Dev.mir (fun _ _ => rfl) (fun _ _ => rfl)
  have hsess : d.spdmSend.pair.session = d.pair.session := d.spdmSend_keeps (fun x => x.pair.session) (fun _ _ => rfl) (fun _ _ => rfl)
  have hst : d.spdmSend.linkSt = d.linkSt := d.spdmSend_keeps Dev.linkSt (fun _ _ => Dev.get_congr rfl _) (fun _ _ => Dev.get_congr rfl _)
  have hok : d.spdmSend.peerOk (.done true) peer = true := by
    unfold Dev.peerOk
    rw [hmir, hp]
    exact decide_eq_true hr
  unfold Dev.pairSpdmIn
  dsimp only
  rw [hf, hok, hst, hl, hsess, hs]
  rfl

/-! ### Pause (R249) -/

/-- The partner's pause is served: its PAUSE_ACK waits to be sent. -/
def Dev.pauseServed (d : Dev) (m : PMsg) : Dev :=
  let d := (d.setTxq 2 ((d.txq 2).filter (fun x => x.mtype != 0x21))).pairPush 2 (pmsg 0x22 [])
  { d with pair := { d.pair with pause := 2, pauseW := m.at_ 0 1, pauseR := m.at_ 1 1, pauseBg := none, pauseSeq := none } }

theorem Dev.pauseReqIn_of_idle {d : Dev} (m : PMsg) (hp : d.pair.pause = 0) (hb : d.pair.pauseBg = none) : d.pauseReqIn m = d.pauseServed m := by
  unfold Dev.pauseReqIn
  rw [if_neg (by rw [hp]; exact fun h => absurd h.1 (by decide)), hb]
  rfl

theorem Dev.pauseServed_linkSt (d : Dev) (m : PMsg) : (d.pauseServed m).linkSt = d.linkSt := Dev.get_congr rfl _

theorem Dev.pauseServed_txq {d : Dev} (m : PMsg) (h : ∀ x ∈ d.txq 2, x.mtype ≠ 0x21) : (d.pauseServed m).txq 2 = d.txq 2 ++ [pmsg 0x22 []] := by
  have hall : (d.txq 2).filter (fun x => x.mtype != 0x21) = d.txq 2 := List.filter_eq_self.2 (fun x hx => bne_iff_ne.2 (h x hx))
  exact (Dev.txq_pairPush_self _ 2 _).trans (by rw [Dev.txq_setTxq_self, hall])

/-- Credits stand while AVAIL reads 0. -/
def Dev.creditsHeld (d : Dev) : Tbl Nat := (List.range 4).foldl (fun (t : Tbl Nat) v => setCnt t v (d.get (fPAIR_VC_AVAIL v))) []

theorem Dev.creditsHeld_cnt (d : Dev) {v : Nat} (hv : v < 4) : cnt d.creditsHeld v = d.get (fPAIR_VC_AVAIL v) := by
  have hself : ∀ (t : Tbl Nat) (w n : Nat), cnt (setCnt t w n) w = n := fun t w n => tget_tset_self _ t w n
  have hne : ∀ (t : Tbl Nat) {w u : Nat} (n : Nat), u ≠ w → cnt (setCnt t w n) u = cnt t u := fun t _ _ n h => tget_tset_of_ne _ t n h
  have heq : d.creditsHeld = setCnt (setCnt (setCnt (setCnt [] 0 (d.get (fPAIR_VC_AVAIL 0))) 1 (d.get (fPAIR_VC_AVAIL 1))) 2 (d.get (fPAIR_VC_AVAIL 2)))
      3 (d.get (fPAIR_VC_AVAIL 3)) := rfl
  rw [heq]
  interval_cases v
  · rw [hne _ _ (by decide), hne _ _ (by decide), hne _ _ (by decide), hself]
  · rw [hne _ _ (by decide), hne _ _ (by decide), hself]
  · rw [hne _ _ (by decide), hself]
  · rw [hself]

theorem Dev.enterPaused_eq (d : Dev) : d.enterPaused =
    (({ d with pair := { d.pair with credits := d.creditsHeld } } : Dev).set fPAIR_STS_STATE 4).setAvail (fun _ _ => 0) := rfl

theorem Dev.enterPaused_linkSt (d : Dev) : d.enterPaused.linkSt = 4 := by
  rw [d.enterPaused_eq, Dev.linkSt, Dev.setAvail_get _ _ (by decide), Dev.get_set_self]
  rfl

theorem Dev.enterPaused_avail (d : Dev) {v : Nat} (hv : v < 4) : d.enterPaused.get (fPAIR_VC_AVAIL v) = 0 := by
  rw [d.enterPaused_eq, Dev.setAvail_avail _ _ (fun _ _ _ => rfl) hv]
  rfl

theorem Dev.enterPaused_pair (d : Dev) : d.enterPaused.pair = { d.pair with credits := d.creditsHeld } := by
  rw [d.enterPaused_eq, Dev.setAvail_keeps _ _ Dev.pair Dev.set_pair, Dev.set_pair]

/-! ### Lanes and sleep (R250, R251) -/

theorem Dev.laneDropIn_of_active {d : Dev} {k : Nat} (hb : d.bit fPAIR_LANE_STS_TX_ACTIVE k = true) (hr : d.pair.txRestripe = [])
    (hw : 5 ≤ d.get fPAIR_STS_TX_W) : d.laneDropIn k = { d with pair := { d.pair with txRestripe := [k] } } := by
  unfold Dev.laneDropIn
  rw [hb, hr]
  dsimp only [List.length_nil]
  rw [if_pos (by rfl), if_neg (by omega)]
  rfl

theorem Dev.sleepReqIn_of_live {d : Dev} {m : PMsg} (h : d.rxHead 2 = some m) (ht : m.mtype = 0x24) (hl : (List.range 256).any d.mirLive = true) :
    d.sleepReqIn = (d.rxTake 2).pairPush 2 (pmsg 0x25 (leOf 1 1)) := by
  unfold Dev.sleepReqIn
  rw [if_pos hl, Dev.onMsg_of_head _ h ht]

/-- The partner's sleep request is accepted. -/
def Dev.sleepAccepted (d : Dev) : Dev :=
  { d.pairPush 2 (pmsg 0x25 (leOf 1 0)) with pair := { (d.pairPush 2 (pmsg 0x25 (leOf 1 0))).pair with sleepAcked := true } }

theorem Dev.sleepReqIn_of_quiet {d : Dev} {m : PMsg} (h : d.rxHead 2 = some m) (ht : m.mtype = 0x24) (hl : (List.range 256).any d.mirLive = false)
    (hq : ∀ v < 4, d.txq v = []) (ho : d.pair.outst = []) : d.sleepReqIn = (d.rxTake 2).sleepAccepted := by
  have hall : (List.range 4).all (fun v => (d.txq v).isEmpty) = true :=
    List.all_eq_true.2 (fun v hv => by rw [hq v (List.mem_range.1 hv)]; rfl)
  unfold Dev.sleepReqIn
  rw [if_neg (by rw [hl]; exact Bool.false_ne_true), if_pos (by rw [hall, ho]; rfl), Dev.onMsg_of_head _ h ht]
  rfl

theorem Dev.sleepAccepted_txq (d : Dev) : d.sleepAccepted.txq 2 = d.txq 2 ++ [pmsg 0x25 (leOf 1 0)] := Dev.txq_pairPush_self _ 2 _

/-- PAUSE_REQ is to be sent, and command i waits for the pause. -/
def Dev.pauseAsked (d : Dev) (w r i : Nat) : Dev :=
  { d.pairPush 2 (pmsg 0x21 (leOf 1 w ++ leOf 1 r)) with
    pair := { (d.pairPush 2 (pmsg 0x21 (leOf 1 w ++ leOf 1 r))).pair with pause := 1, pauseW := w, pauseR := r, pauseBg := some i } }

theorem Dev.pauseAsked_txq (d : Dev) (w r i : Nat) : (d.pauseAsked w r i).txq 2 = d.txq 2 ++ [pmsg 0x21 (leOf 1 w ++ leOf 1 r)] :=
  Dev.txq_pairPush_self _ 2 _

theorem firstBad_linkSet {d : Dev} {w r : Nat} (hw : 4 ≤ w) (hw' : w ≤ 16) (hr : r ≤ 1) (hl : d.linkSt = 3) (hp : d.pair.pause = 0) :
    firstBad [(decide (w < 4) || decide (16 < w), stInvalidField, 16), (decide (1 < r), stInvalidField, 17), (!d.linkUp, stPairLinkDown, noDetail),
      (d.pair.pause != 0, stPairBusy, noDetail)] = none := by
  rw [decide_eq_false (by omega), decide_eq_false (by omega), decide_eq_false (by omega), Dev.linkUp, hl, hp]
  rfl

theorem Dev.linkUp_of {d : Dev} (h : d.linkSt = 3) : d.linkUp = true := by
  rw [Dev.linkUp, h]
  rfl

/-- Settles O23: each message is the one at the head of its virtual channel, and arrives in the state in which it makes sense. -/
theorem pairMessagesComplete : Obligations.PairMessagesComplete := by
  unfold Obligations.PairMessagesComplete
  refine ⟨fun s m hs peer h ht hf hl hn => ?_, fun s m hs peer h ht hf hl hn => ?_, fun d peer r hf hl hp hr hs => ?_, fun s m h ht hl hp => ?_,
    fun d m hp hb hq => ?_, fun s m h ht hl hp => ⟨({ s.dev.rxTake 2 with pair := { (s.dev.rxTake 2).pair with pause := 3 } } : Dev).enterPaused,
      ?_, Dev.enterPaused_linkSt _, ?_, fun v hv => Dev.enterPaused_avail _ hv, fun v hv => ?_⟩,
    fun s m h ht hl hb hr hw => ⟨({ s.dev.rxTake 2 with pair := { (s.dev.rxTake 2).pair with txRestripe := [m.at_ 0 1] } } : Dev), ?_, rfl⟩,
    fun s m h ht hl hlive => ?_, fun s m h ht hl hlive hq ho => ⟨(s.dev.rxTake 2).sleepAccepted, ?_, ?_, rfl⟩, fun s m h ht hl hsl => ?_,
    fun s m h ht => ?_, fun s c ha hw hw' hr hl hp => ⟨s.dev.pauseAsked (c.at_ 0 1) (c.at_ 1 1) s.dev.mgt.nextBg, ?_, Dev.pauseAsked_txq _ _ _ _, rfl, rfl, rfl⟩⟩
  · change execSpdm hs peer s = _
    unfold execSpdm
    rw [run_eq, Dev.onMsg_of_head _ h ht, Dev.spdmFragment_of_whole _ _ hf hn hl]
  · change execSpdm hs peer s = _
    unfold execSpdm
    rw [run_eq, Dev.onMsg_of_head _ h ht, Dev.spdmFragment_of_first _ _ hf hn hl]
  · rw [Dev.pairSpdmIn_of_accepted hf hl hp hr hs]
    exact ⟨rfl, rfl, rfl, Dev.inSession_epoch _⟩
  · change execPauseReq s = _
    unfold execPauseReq
    rw [run_eq, Dev.linkMsg_of_head _ h ht (by rw [Dev.linkUp_of hl, hp]; rfl)]
  · rw [Dev.pauseReqIn_of_idle m hp hb]
    exact ⟨Dev.pauseServed_linkSt d m, Dev.pauseServed_txq m hq, rfl, rfl, rfl⟩
  · change execPauseAck s = _
    unfold execPauseAck
    rw [run_eq, Dev.linkMsg_of_head _ h ht (by rw [Dev.linkUp_of hl, hp]; rfl)]
  · rw [Dev.enterPaused_pair]
  · rw [Dev.enterPaused_pair]
    exact (Dev.creditsHeld_cnt _ hv).trans (s.dev.rxTake_get 2 _)
  · change execLaneDrop s = _
    unfold execLaneDrop
    rw [run_eq, Dev.linkMsg_of_head _ h ht (Dev.linkUp_of hl),
      Dev.laneDropIn_of_active (by unfold Dev.bit at hb ⊢; rw [Dev.rxTake_get]; exact hb) ((s.dev.rxTake_keeps 2).2.2.trans hr) (by rw [Dev.rxTake_get]; exact hw)]
  · change execSleepReq s = _
    unfold execSleepReq
    rw [run_when_of_true (Dev.linkUp_of hl), Dev.sleepReqIn_of_live h ht hlive]
  · change execSleepReq s = _
    unfold execSleepReq
    rw [run_when_of_true (Dev.linkUp_of hl), Dev.sleepReqIn_of_quiet h ht hlive hq ho]
  · rw [Dev.sleepAccepted_txq, (s.dev.rxTake_keeps 2).2.1, hq 2 (by decide)]
    rfl
  · change execSleepAck s = _
    unfold execSleepAck
    rw [run_eq, Dev.linkMsg_of_head _ h ht (by rw [Dev.linkUp_of hl, hsl]; rfl)]
  · change execPairHalt s = _
    unfold execPairHalt
    rw [run_eq, Dev.onMsg_of_head _ h ht]
  · change execPairLinkSet c s = _
    unfold execPairLinkSet
    exact run_command_runs ha (firstBad_linkSet hw hw' hr hl hp) rfl

end Sys2Proof.Machine
end


section
/-! Mirroring (10_mirroring.md R254 to R272): its commands, and the mirror messages that arrive. -/

namespace Sys2Proof.Machine

/-! ### Targets (R255) -/

/-- R255: target t has peer p, and is not valid yet. -/
def Dev.targeted (d : Dev) (t p : Nat) : Dev :=
  let d := ((d.set (fPAIR_MIRW_STS_PEER t) p).setFlag (fPAIR_MIRW_STS_PEER_SET t) true).setFlag (fPAIR_MIRW_STS_VALID t) false
  { d with flash := { d.flash with cfg := { d.flash.cfg with targets := tins d.flash.cfg.targets t p } } }

/-- The registers of a target. -/
def Dev.targetRegs (d : Dev) (t p : Nat) : Dev :=
  ((d.set (fPAIR_MIRW_STS_PEER t) p).setFlag (fPAIR_MIRW_STS_PEER_SET t) true).setFlag (fPAIR_MIRW_STS_VALID t) false

theorem Dev.targeted_csr (d : Dev) (t p : Nat) : (d.targeted t p).csr = (d.targetRegs t p).csr := rfl

theorem Dev.targetRegs_peer (d : Dev) (t p : Nat) : (d.targetRegs t p).get (fPAIR_MIRW_STS_PEER t) = p % 2 ^ 8 := by
  unfold Dev.targetRegs Dev.setFlag
  rw [Dev.get_set_of_disjoint _ _ (.inr (by simp [fPAIR_MIRW_STS_PEER, fPAIR_MIRW_STS_VALID])),
    Dev.get_set_of_disjoint _ _ (.inr (by simp [fPAIR_MIRW_STS_PEER, fPAIR_MIRW_STS_PEER_SET])), Dev.get_set_self]
  rfl

theorem Dev.targetRegs_peerSet (d : Dev) (t p : Nat) : (d.targetRegs t p).flag (fPAIR_MIRW_STS_PEER_SET t) = true := by
  unfold Dev.targetRegs
  rw [Dev.setFlag, Dev.flag_set_of_disjoint _ _ (.inr (by simp [fPAIR_MIRW_STS_PEER_SET, fPAIR_MIRW_STS_VALID])), Dev.flag_setFlag_self _ _ _ rfl]

theorem Dev.targetRegs_valid (d : Dev) (t p : Nat) : (d.targetRegs t p).flag (fPAIR_MIRW_STS_VALID t) = false := Dev.flag_setFlag_self _ _ _ rfl

theorem Dev.targeted_targets (d : Dev) (t p : Nat) : tfind (d.targeted t p).flash.cfg.targets t = some p := tfind_tins_self _ _ _

theorem firstBad_target {d : Dev} {t : Nat} (hv : d.winValid t = true) (hk : d.winKind t = 0) (hs : d.winShared t = false) (hm : d.winMirrored t = false)
    (hc : d.winCovered t = false) (hst : d.mirSt t = 0 ∨ d.mirSt t = mirPromoted) :
    firstBad [(!d.winValid t, stInvalidField, 16), (d.winKind t != 0 || d.winShared t || d.winMirrored t, stWinIllegal, noDetail),
      (d.winCovered t, stWinBusy, noDetail), (d.mirSt t != 0 && d.mirSt t != mirPromoted, stMirState, noDetail)] = none := by
  rw [hv, hk, hs, hm, hc]
  obtain h | h := hst
  · rw [h]
    rfl
  · rw [h]
    rfl

/-- R255: target t is one no longer. -/
def Dev.untargeted (d : Dev) (t : Nat) : Dev := (d.setFlag (fPAIR_MIRW_STS_PEER_SET t) false).setFlag (fPAIR_MIRW_STS_VALID t) false

theorem Dev.untargeted_flags (d : Dev) (t : Nat) :
    (d.untargeted t).flag (fPAIR_MIRW_STS_PEER_SET t) = false ∧ (d.untargeted t).flag (fPAIR_MIRW_STS_VALID t) = false := by
  unfold Dev.untargeted
  refine ⟨?_, Dev.flag_setFlag_self _ _ _ rfl⟩
  rw [Dev.setFlag, Dev.flag_set_of_disjoint _ _ (.inr (by simp [fPAIR_MIRW_STS_PEER_SET, fPAIR_MIRW_STS_VALID])), Dev.flag_setFlag_self _ _ _ rfl]

/-! ### The bitmap area and promotion (R264, R272) -/

/-- R264: the bitmap area has u units. -/
def Dev.mapped (d : Dev) (u : Nat) : Dev :=
  { d.set fPAIR_MIR_BMAREA_UNITS u with flash := { d.flash with cfg := { d.flash.cfg with bmUnits := u } } }

theorem Dev.mapped_csr (d : Dev) (u : Nat) : (d.mapped u).csr = (d.set fPAIR_MIR_BMAREA_UNITS u).csr := rfl

theorem Dev.mapped_units (d : Dev) {u : Nat} (h : u ≤ 256) : (d.mapped u).get fPAIR_MIR_BMAREA_UNITS = u := by
  rw [Dev.get_congr (d.mapped_csr u), Dev.get_set_self]
  exact Nat.mod_eq_of_lt (lt_of_le_of_lt h (by decide))

theorem Dev.mapped_bmUnits (d : Dev) (u : Nat) : (d.mapped u).flash.cfg.bmUnits = u := rfl

theorem firstBad_promote {d : Dev} {t q : Nat} (ht : d.mirSt t = mirTarget) (hl : d.linkSt ≠ 3) (hq : (!d.flag fPAIR_MIR_STS_SB_ALIVE && q % 2 == 0) = false)
    (hc : d.mir.claim = none) :
    firstBad [(d.mirSt t != mirTarget, stMirState, noDetail), (d.linkUp, stPeerAlive, noDetail),
      (!d.flag fPAIR_MIR_STS_SB_ALIVE && q % 2 == 0, stPeerUnknown, noDetail), (d.mir.claim.isSome, stCmdBusy, noDetail)] = none := by
  rw [ht, Dev.linkUp, beq_false_of_ne hl, hq, hc]
  rfl

/-- R272: a claim of the partner's window p waits for its answer. -/
def Dev.claims (d : Dev) (t p i : Nat) : Dev := { d with mir := { d.mir with claim := some (t, p, some i) } }

theorem Dev.claims_claim (d : Dev) (t p i : Nat) : (d.claims t p i).mir.claim = some (t, p, some i) := rfl

theorem ofBytes_lt {l : List Nat} (h : ∀ x ∈ l, x < 256) : ofBytes l < 256 ^ l.length := by
  induction l with
  | nil => exact Nat.one_pos
  | cons b t ih =>
    have hb : b < 256 := h b List.mem_cons_self
    have ht : ofBytes t < 256 ^ t.length := ih (fun x hx => h x (List.mem_cons_of_mem b hx))
    rw [ofBytes, List.length_cons, Nat.pow_succ]
    omega

/-- A field of n bytes is below 256 ^ n. -/
theorem leBytes_lt (l : List Byte) (off n : Nat) : leBytes l off n < 256 ^ n := by
  refine lt_of_lt_of_le (ofBytes_lt (fun x hx => ?_)) (Nat.pow_le_pow_right (by decide) ?_)
  · obtain ⟨b, _, rfl⟩ := List.mem_map.1 hx
    exact b.isLt
  · rw [List.length_map]
    exact List.length_take_le n _

/-- Settles O24: no refusal of a command applies, and each writes the records of its windows. -/
theorem mirrorCommandsComplete : Obligations.MirrorCommandsComplete := by
  unfold Obligations.MirrorCommandsComplete
  refine ⟨fun s c ha hr => ?_, fun s c ha hv hk hs hm hc hst => ⟨s.dev.targeted (c.at_ 0 1) (c.at_ 1 1), ?_, ?_, ?_, ?_, Dev.targeted_targets _ _ _⟩,
    fun s c ha hst => ⟨s.dev.untargeted (c.at_ 0 1), ?_, Dev.untargeted_flags _ _⟩, fun s c ha hst hl => ?_, fun s c ha hst hl => ?_,
    fun s c ha hu hw => ⟨s.dev.mapped (c.at_ 0 2), ?_, s.dev.mapped_units hu, s.dev.mapped_bmUnits _⟩, fun s c r ha hk hr => ?_,
    fun s c ha hst hl hal hh hc => ⟨s.dev.claims (c.at_ 0 1) (s.dev.get (fPAIR_MIRW_STS_PEER (c.at_ 0 1))) s.dev.mgt.nextBg, ?_, Dev.claims_claim _ _ _ _⟩,
    fun s c ha hst hl hal hq hc => ?_⟩
  · change execMirPair c s = _
    unfold execMirPair
    exact run_command_done ha (firstBad_one _ (decide_eq_false (Nat.not_lt.2 hr))) rfl
  · change execMirTarget c s = _
    unfold execMirTarget
    exact run_command_done ha (firstBad_target hv hk hs hm hc hst) rfl
  · rw [Dev.get_congr (Dev.targeted_csr _ _ _), Dev.targetRegs_peer]
    exact Nat.mod_eq_of_lt (leBytes_lt _ 1 1)
  · rw [Dev.flag_congr (Dev.targeted_csr _ _ _), Dev.targetRegs_peerSet]
  · rw [Dev.flag_congr (Dev.targeted_csr _ _ _), Dev.targetRegs_valid]
  · change execMirUntarget c s = _
    unfold execMirUntarget
    exact run_command_done ha (firstBad_one _ (by rw [hst]; rfl)) rfl
  · change execMirResume c s = _
    unfold execMirResume
    exact run_command_done ha (firstBad_one _ (by rw [hst]; rfl)) (by rw [Dev.linkUp_of hl, if_pos rfl])
  · change execMirResume c s = _
    unfold execMirResume
    exact run_command_done ha (firstBad_one _ (by rw [hst]; rfl)) (by rw [Dev.linkUp, beq_false_of_ne hl, if_neg Bool.false_ne_true])
  · change execMirBitmapArea c s = _
    unfold execMirBitmapArea
    exact run_command_done ha (by rw [hw, decide_eq_false (Nat.not_lt.2 hu)]; rfl) rfl
  · change execMirShadowRead c s = _
    unfold execMirShadowRead
    exact run_command_done ha (firstBad_one _ (by rw [hk]; rfl)) (by rw [hk]; dsimp only; rw [if_pos rfl, hr]; rfl)
  · change execMirPromote c s = _
    unfold execMirPromote
    exact run_command_runs ha (firstBad_promote hst hl (by rw [hal]; rfl) hc) (by rw [hal, hh]; rfl)
  · change execMirPromote c s = _
    unfold execMirPromote
    exact run_command_done ha (firstBad_promote hst hl (by rw [hal, hq]; rfl) hc) (by rw [hal]; rfl)

end Sys2Proof.Machine
end


section
/-! Mirror messages (10_mirroring.md R257 to R268): what each leaves. -/

namespace Sys2Proof.Machine

/-! ### Records (R257) -/

theorem Dev.shadowPut_window {d : Dev} {i gen g0 : Nat} {words old : List Nat} (h : tfind d.mir.shWin i = some (g0 :: old)) :
    d.shadowPut 0 i gen words = if 1 ≤ (gen + 2 ^ 32 - g0) % 2 ^ 32 ∧ (gen + 2 ^ 32 - g0) % 2 ^ 32 ≤ 2 ^ 31 then
      { d with mir := { d.mir with shWin := tins d.mir.shWin i (gen :: words) } } else d := by
  simp only [Dev.shadowPut, if_true, h, List.headD_cons, Bool.and_eq_true, List.singleton_append]
  exact if_congr (and_congr decide_eq_true_iff decide_eq_true_iff) rfl rfl

theorem Dev.sackIn_of_first {d : Dev} (h : d.mir.shGot = false) : d.sackIn = ({ d with mir := { d.mir with shGot := true } } : Dev).resumeAll := by
  unfold Dev.sackIn
  rw [h]
  rfl

/-- R257: the shadow shows the partner's window w as an MSTATE gives it. -/
def Dev.shadowed (d : Dev) (m : PMsg) : Dev :=
  { d with mir := { d.mir with shMst := tins d.mir.shMst (m.at_ 0 1) [m.at_ 1 1, m.at_ 2 1, m.at_ 3 2] } }

theorem Dev.mstateIn_eq (d : Dev) (m : PMsg) : d.mstateIn m = (d.shadowed m).targetValid (m.at_ 0 1) (m.at_ 1 1) ((m.at_ 2 1).testBit 1) := rfl

theorem Dev.shadowed_shMst (d : Dev) (m : PMsg) : tfind (d.shadowed m).mir.shMst (m.at_ 0 1) = some [m.at_ 1 1, m.at_ 2 1, m.at_ 3 2] :=
  tfind_tins_self _ _ _

/-! ### Messages of data (R259, R268) -/

/-- A message waits to be applied. -/
def Dev.queued (d : Dev) (m : PMsg) : Dev := { d with mir := { d.mir with apply := d.mir.apply ++ [m] } }

theorem Dev.toApply_of_head {d : Dev} {m : PMsg} {ty : Nat} (hl : d.linkSt = 3) (h : d.rxHead 0 = some m) (ht : m.mtype = ty) :
    d.toApply ty = (d.rxTake 0).queued m := by
  unfold Dev.toApply
  rw [Dev.when_of_true _ _ _ (Dev.linkUp_of hl), Dev.onMsg_of_head _ h ht]
  rfl

theorem Dev.queued_apply (d : Dev) (m : PMsg) : (d.queued m).mir.apply = d.mir.apply ++ [m] := rfl

theorem Dev.mfailIn_of_found {d : Dev} {num : Nat} {x : PMsg} (h : d.mir.unacked.find? (fun y => y.num == num) = some x) :
    d.mfailIn num = (d.enterSolo x.win 2).markDirty x.win x.granule := by
  unfold Dev.mfailIn
  rw [h]

section

variable {a : Acc} {m : PMsg} {rest : List PMsg} {d : Dev} (hm : a.dev.mir.apply = m :: rest)
include hm

theorem Acc.mirrorApply_of_fault {f : Nat} (hf : a.dev.mirFault (m.at_ 0 1) (m.at_ 2 5) = (f, d)) (h0 : f ≠ 0) :
    a.mirrorApply = (a.upd (fun _ => Dev.pairPush { d.pairPush 1 (pmsg 0x11 (leOf 4 d.mir.applied ++ leOf 1 f)) with
        mir := { (d.pairPush 1 (pmsg 0x11 (leOf 4 d.mir.applied ++ leOf 1 f))).mir with apply := rest, applied := (d.mir.applied + 1) % 2 ^ 32 } }
        1 (pmsg 0x10 (leOf 4 ((d.mir.applied + 1) % 2 ^ 32))))).releaseRt := by
  unfold Acc.mirrorApply
  rw [hm]
  dsimp only
  rw [hf]
  dsimp only
  rw [if_pos (bne_iff_ne.2 h0)]
  rfl

theorem Acc.mirrorApply_of_ok {b : Acc} (hf : a.dev.mirFault (m.at_ 0 1) (m.at_ 2 5) = (0, d)) (hb : (a.upd (fun _ => d)).applyMsg (m.at_ 0 1) m = (.ok, b)) :
    a.mirrorApply = (b.upd (fun e => Dev.pairPush { e with mir := { e.mir with apply := rest, applied := (e.mir.applied + 1) % 2 ^ 32 } }
      1 (pmsg 0x10 (leOf 4 ((e.mir.applied + 1) % 2 ^ 32))))).releaseRt := by
  unfold Acc.mirrorApply
  rw [hm]
  dsimp only
  rw [hf]
  dsimp only
  rw [if_neg (by decide), show ({ a with dev := d } : Acc) = a.upd (fun _ => d) from rfl, hb]

end

theorem Acc.applyMsg_of_poison {a : Acc} {t : Nat} {m : PMsg} (hm : m.mtype = 3) (hlock : a.dev.ovfLocked t (a.dev.winBase t / 64 + m.at_ 2 5) = false)
    (hleaf : (a.dev.krFresh (a.dev.winKr t) && a.dev.inQuar (a.dev.winKr t) 0 (a.dev.leafOf (a.dev.winKr t) (a.dev.winBase t / 64 + m.at_ 2 5))) = false)
    (hout : a.dev.lineOut (a.dev.backedMpa t ((a.dev.winBase t / 64 + m.at_ 2 5) * 64) / 64) = false) :
    a.applyMsg t m = (.ok, a.upd (fun d => d.storeMarker (a.dev.winBase t / 64 + m.at_ 2 5)
      (a.dev.backedMpa t ((a.dev.winBase t / 64 + m.at_ 2 5) * 64) / 64) 8 (max 1 (m.at_ 1 1 % 8)) false none)) := by
  have hfree : ¬ (a.dev.ovfLocked t (a.dev.winBase t / 64 + m.at_ 2 5) = true ∨ (a.dev.krFresh (a.dev.winKr t) = true ∧
      a.dev.inQuar (a.dev.winKr t) 0 (a.dev.leafOf (a.dev.winKr t) (a.dev.winBase t / 64 + m.at_ 2 5)) = true)) := by
    rw [hlock, ← Bool.and_eq_true, hleaf]
    exact fun h => h.elim Bool.false_ne_true Bool.false_ne_true
  unfold Acc.applyMsg
  dsimp only
  rw [if_pos hm]
  unfold Acc.storePoison
  rw [if_neg hfree]
  refine congrArg (Prod.mk SRes.ok) ?_
  unfold Acc.upd
  dsimp only
  rw [if_neg (by rw [hout]; exact Bool.false_ne_true)]

theorem Acc.applyMsg_of_write {a a1 b : Acc} {t : Nat} {m : PMsg} {q : Req} (hm : m.mtype = 1) (hk : a.dev.winNoKey t = false)
    (hq : q = agentReq .apply 8 t (a.dev.winBase t / 64 + m.at_ 2 5) (.wr .i (lineOfBytes (m.payload.drop 8)) false))
    (hd : a.dropWrite q = (false, a1)) (hw : a1.tryWrite q .cmp = (.ok, b)) : a.applyMsg t m = (.ok, b.upd (fun d => d.retired q)) := by
  subst hq
  unfold Acc.applyMsg
  dsimp only
  rw [hm, if_neg (by decide), if_neg (by rw [hk]; exact Bool.false_ne_true)]
  simp only [if_neg (show ¬ (1 : Nat) = 2 by decide), hd, hw]

/-- Settles O25: each message stands at the head of its virtual channel on a link that is up, and its effect is that of its type. -/
theorem mirrorMessagesComplete : Obligations.MirrorMessagesComplete := by
  unfold Obligations.MirrorMessagesComplete
  refine ⟨fun s m hl h ht => ?_, fun d kind i gen g0 words old hk h => ?_, fun s m hl h ht hg => ?_,
    fun s m hl h ht => ⟨(s.dev.rxTake 2).shadowed m, ?_, Dev.shadowed_shMst _ m⟩, fun s m hl h ht => ⟨(s.dev.rxTake 0).queued m, ?_, Dev.queued_apply _ m⟩,
    fun s m hl h ht => ⟨(s.dev.rxTake 0).queued m, ?_, Dev.queued_apply _ m⟩, fun s m hl h ht => ⟨(s.dev.rxTake 0).queued m, ?_, Dev.queued_apply _ m⟩,
    fun s m hl h ht => ?_, fun s m x hl h ht hx => ?_, fun s m hl h ht => ?_, fun s m hl h ht => ?_, fun s m rest f d hl hh hm hf h0 => ?_,
    fun s m rest d b hl hh hm hf hb => ?_, fun a t m hm hlock hleaf hout => Acc.applyMsg_of_poison hm hlock hleaf hout,
    fun a a1 b t m q hm hk hq hd hw => Acc.applyMsg_of_write hm hk hq hd hw⟩
  · change execSrec s = _
    unfold execSrec
    rw [run_when_of_true (Dev.linkUp_of hl), Dev.onMsg_of_head _ h ht]
  · rw [hk, Dev.shadowPut_window h]
  · change execSack s = _
    unfold execSack
    rw [run_when_of_true (Dev.linkUp_of hl), Dev.onMsg_of_head _ h ht, Dev.sackIn_of_first hg]
  · change execMstate s = _
    unfold execMstate
    rw [run_when_of_true (Dev.linkUp_of hl), Dev.onMsg_of_head _ h ht, Dev.mstateIn_eq]
  · change execMwr s = _
    unfold execMwr
    rw [run_eq, Dev.toApply_of_head hl h ht]
  · change execMwrp s = _
    unfold execMwrp
    rw [run_eq, Dev.toApply_of_head hl h ht]
  · change execMpoi s = _
    unfold execMpoi
    rw [run_eq, Dev.toApply_of_head hl h ht]
  · change execMack s = _
    unfold execMack
    rw [run_when_of_true (Dev.linkUp_of hl), Dev.onMsg_of_head _ h ht]
  · change execMfail s = _
    unfold execMfail
    rw [run_when_of_true (Dev.linkUp_of hl), Dev.onMsg_of_head _ h ht, Dev.mfailIn_of_found hx]
  · change execRtrd s = _
    unfold execRtrd
    rw [runAcc_when_of_true (Dev.linkUp_of hl), ← Acc.upd_const]
    simp only [show s.acc.dev = s.dev from rfl, Dev.onMsg_of_head _ h ht]
  · change execRtdata s = _
    unfold execRtdata
    rw [runAcc_when_of_true (Dev.linkUp_of hl)]
    simp only [show s.acc.dev = s.dev from rfl, h, if_pos ht]
  · change execMirrorApply s = _
    unfold execMirrorApply
    rw [runAcc_when_of_true (by rw [show s.acc.dev = s.dev from rfl, Dev.linkUp_of hl, hh]; rfl), Acc.mirrorApply_of_fault (a := s.acc) hm hf h0]
  · change execMirrorApply s = _
    unfold execMirrorApply
    rw [runAcc_when_of_true (by rw [show s.acc.dev = s.dev from rfl, Dev.linkUp_of hl, hh]; rfl), Acc.mirrorApply_of_ok (a := s.acc) hm hf hb]

end Sys2Proof.Machine
end


section
/-! The primary's side of mirroring and the sideband (10_mirroring.md R261 to R274). -/

namespace Sys2Proof.Machine

/-! ### Copies and waiting writes (R261, R266) -/

theorem Acc.copyStep_of_out {a : Acc} {w g : Nat} (hg : a.dev.nextCopy w = some g)
    (ho : a.dev.lineOut (a.dev.backedMpa w (a.dev.winBase w + g * 256) / 64) = true) :
    a.copyStep w = a.upd (fun d => if (d.markDirty w g).isDirty w g = true then (d.markDirty w g).copyPast w else d.markDirty w g) := by
  unfold Acc.copyStep
  rw [hg]
  exact if_pos ho

/-! ### Fences (R262) -/

/-- A fence read is answered now. -/
def Dev.fenceSays (d : Dev) (h w r : Nat) : Dev := (d.set (fPAIR_MIRW_FENCE_RESULT w) r).emit (.csrValue h r)

theorem Dev.fenceRead_of_unmirrored {d : Dev} {h w : Nat} (hw : d.winValid w = false ∨ d.winMirrored w = false) : d.fenceRead h w = d.fenceSays h w 3 := by
  have hbad : (!d.winValid w || !d.winMirrored w) = true := by
    obtain hw | hw := hw
    · rw [hw]
      rfl
    · rw [hw, Bool.not_false, Bool.or_true]
  unfold Dev.fenceRead
  exact if_pos hbad

section

variable {d : Dev} {h w : Nat} (hv : d.winValid w = true) (hm : d.winMirrored w = true)
include hv hm

theorem Dev.fenceRead_of_behind (hs : d.mirSt w ≠ mirInsync) : d.fenceRead h w = d.fenceSays h w 1 := by
  unfold Dev.fenceRead
  rw [hv, hm]
  exact if_pos (bne_iff_ne.2 hs)

theorem Dev.fenceRead_of_covered (hs : d.mirSt w = mirInsync) (hu : ∀ m ∈ d.mir.unacked, m.win ≠ w) : d.fenceRead h w = d.fenceSays h w 0 := by
  have hnone : d.mir.unacked.filter (fun m => m.win == w) = [] := List.filter_eq_nil_iff.2 (fun m hin => by simpa using hu m hin)
  unfold Dev.fenceRead
  dsimp only
  rw [hv, hm, hs, hnone]
  rfl

end

theorem Dev.cfgOnly_open {d : Dev} {h : Nat} (hc : d.cfgOnly h = false) : (!d.cfgOnly h) = true := by
  rw [hc]
  rfl

/-! ### The rebuild of a slot (R270) -/

theorem Acc.rebuildGran_of_current {a : Acc} {sl w g0 g : Nat} {t : List (Nat × Nat × Nat)} (hr : a.dev.mir.rebuild = (sl, w, g0) :: t)
    (hg : a.dev.onSlot sl w g0 = some g) (hl : a.dev.linkSt = 3) (hreads : a.dev.rebuildReads (a.dev.winBase w / 64 + 4 * g) = false)
    (hfree : a.dev.granFree w g = true) (hcur : a.dev.partnerCurrent w g = true) :
    a.rebuildGran = a.upd (fun d => (List.range 4).foldl (fun d i => d.sendRt w (a.dev.winBase w / 64 + 4 * g + i) true) d) := by
  -- `onSlot` searches a whole window: it is kept a variable, so that no check evaluates it.
  obtain ⟨search, hs⟩ : ∃ f, f = a.dev.onSlot := ⟨_, rfl⟩
  unfold Acc.rebuildGran
  rw [← hs] at hg ⊢
  clear hs
  rw [hr]
  dsimp only
  rw [hg]
  dsimp only
  rw [Dev.linkUp_of hl, hreads, hfree, Bool.not_true, Bool.or_false, Bool.or_false, if_neg Bool.false_ne_true, if_pos hcur]

/-- Settles O26: each step meets the conditions under which it runs. -/
theorem mirrorCopiesComplete : Obligations.MirrorCopiesComplete := by
  unfold Obligations.MirrorCopiesComplete
  refine ⟨fun s w hl hst => ?_, fun a w g hg ho => Acc.copyStep_of_out hg ho, fun s q t hw hf => ?_, fun s h w hc hw => ?_,
    fun s h w hc hv hm hs => ?_, fun s h w hc hv hm hs hu => ?_, fun s w f rest hf => ?_, fun s sl w g0 g t hup hr hg hl hreads hfree hcur => ?_⟩
  · change execGranuleCopy w s = _
    exact runAcc_when_of_true (by rw [show s.acc.dev = s.dev from rfl, Dev.linkUp_of hl, hst]; rfl)
  · change execMirrorQueueEntry s = _
    unfold execMirrorQueueEntry
    rw [runAcc_eq]
    simp only [show s.acc.dev = s.dev from rfl, hw, hf, Bool.false_eq_true, if_false]
  · change execPairMirFenceRead h w s = _
    unfold execPairMirFenceRead
    rw [run_when_of_true (Dev.cfgOnly_open hc), Dev.fenceRead_of_unmirrored hw]
    rfl
  · change execPairMirFenceRead h w s = _
    unfold execPairMirFenceRead
    rw [run_when_of_true (Dev.cfgOnly_open hc), Dev.fenceRead_of_behind hv hm hs]
    rfl
  · change execPairMirFenceRead h w s = _
    unfold execPairMirFenceRead
    rw [run_when_of_true (Dev.cfgOnly_open hc), Dev.fenceRead_of_covered hv hm hs hu]
    rfl
  · change execFenceTimeout w s = _
    unfold execFenceTimeout
    rw [run_eq]
    simp only [hf]
  · change execSlotRebuildStep s = _
    unfold execSlotRebuildStep
    rw [runAcc_when_of_true hup, Acc.rebuildGran_of_current (a := s.acc) hr hg hl hreads hfree hcur]
    rfl

/-! ### The sideband (R271 to R274) -/

/-- A message with flags fl keeps the sideband alive. -/
def Dev.heard (d : Dev) (fl : Nat) : Dev := ({ d with mir := { d.mir with sbFlags := fl } } : Dev).setFlag fPAIR_MIR_STS_SB_ALIVE true

theorem Dev.sbIn_of_crc {d : Dev} {n : Nat} {m : SidebandMsg} (f : Dev → Dev) (h : m.crc.toNat = crc16 ([n, m.flags.toNat] ++ toBytes 4 m.arg.toNat)) :
    d.sbIn n m f = (f (d.heard m.flags.toNat)).roleCheck := by
  unfold Dev.sbIn
  exact if_pos h

theorem Dev.claimIn_of_covered {d : Dev} {n : Nat} (h : d.winCovered n = true) : d.claimIn n = d.sbSend 5 n := by
  unfold Dev.claimIn
  exact if_pos h

theorem Dev.claimIn_of_uncovered {d : Dev} {n : Nat} (h : d.winCovered n = false) : d.claimIn n = (d.setMir n mirYielded).sbSend 4 n := by
  unfold Dev.claimIn
  exact if_neg (by rw [h]; exact Bool.false_ne_true)

section

variable {d : Dev} {t p : Nat} {bg : Option Nat} (h : d.mir.claim = some (t, p, bg)) {n : Option Nat} (hn : n = none ∨ n = some p)
include h hn

theorem Dev.claimEnd_of_yield :
    d.claimEnd n true = (({ d with mir := { d.mir with claim := none } } : Dev).promoteTarget t).bgDoneOpt bg 0 noDetail [] := by
  have hmine : ¬ (n.isSome = true ∧ n ≠ some p) := fun hx => by
    obtain rfl | rfl := hn
    · exact Bool.false_ne_true hx.1
    · exact hx.2 rfl
  unfold Dev.claimEnd
  rw [h]
  exact if_neg hmine

theorem Dev.claimEnd_of_refusal :
    d.claimEnd n false = ({ d with mir := { d.mir with claim := none } } : Dev).bgDoneOpt bg stPeerAlive noDetail [] := by
  have hmine : ¬ (n.isSome = true ∧ n ≠ some p) := fun hx => by
    obtain rfl | rfl := hn
    · exact Bool.false_ne_true hx.1
    · exact hx.2 rfl
  unfold Dev.claimEnd
  rw [h]
  exact if_neg hmine

end

/-- Settles O27: a message with a right CRC keeps the sideband alive, does what its type says, and has the roles checked. -/
theorem sidebandCommandsComplete : Obligations.SidebandCommandsComplete := by
  unfold Obligations.SidebandCommandsComplete
  refine ⟨fun s m n d hd _ _ hcrc => ?_, fun s m hcrc => ?_, fun s t p bg h => ?_, fun s => rfl⟩
  · subst hd
    refine ⟨fun hn => ?_, fun hn => ?_, fun hn hc => ?_, fun hn hc => ?_, fun hn t bg h => ?_, fun hn t bg h => ?_⟩
    · subst hn
      change execBeat m s = _
      unfold execBeat
      rw [run_eq, Dev.sbIn_of_crc _ hcrc]
      rfl
    · subst hn
      change execSidebandHalt m s = _
      unfold execSidebandHalt
      rw [run_eq, Dev.sbIn_of_crc _ hcrc]
      rfl
    · subst hn
      change execSbClaim m s = _
      unfold execSbClaim
      rw [run_eq, Dev.sbIn_of_crc _ hcrc, Dev.claimIn_of_covered (d := s.dev.heard m.flags.toNat) hc]
      rfl
    · subst hn
      change execSbClaim m s = _
      unfold execSbClaim
      rw [run_eq, Dev.sbIn_of_crc _ hcrc, Dev.claimIn_of_uncovered (d := s.dev.heard m.flags.toNat) hc]
      rfl
    · subst hn
      change execSbYield m s = _
      unfold execSbYield
      rw [run_eq, Dev.sbIn_of_crc _ hcrc, Dev.claimEnd_of_yield (d := s.dev.heard m.flags.toNat) h (.inr rfl)]
      rfl
    · subst hn
      change execSbRefuse m s = _
      unfold execSbRefuse
      rw [run_eq, Dev.sbIn_of_crc _ hcrc, Dev.claimEnd_of_refusal (d := s.dev.heard m.flags.toNat) h (.inr rfl)]
      rfl
  · change execBeat m s = _
    unfold execBeat Dev.sbIn
    rw [run_eq, if_neg hcrc]
  · change execClaimTimeout s = _
    unfold execClaimTimeout
    rw [run_eq, Dev.claimEnd_of_refusal h (.inl rfl)]

end Sys2Proof.Machine
end


section
/-! Queues and jobs (11_job_engines.md R279 to R305): the commands complete. -/

namespace Sys2Proof.Machine

/-! ### Fields set one after another -/

/-- Two fields share no bit. -/
def Fld.Apart (f g : Fld) : Prop := f.reg ≠ g.reg ∨ f.lo + f.w ≤ g.lo ∨ g.lo + g.w ≤ f.lo

theorem Dev.get_set_apart (d : Dev) {f g : Fld} (v : Nat) (h : f.Apart g) : (d.set g v).get f = d.get f := by
  obtain h | h := h
  · exact d.get_set_of_ne v h
  · exact d.get_set_of_disjoint v h

/-- Fields take values, one after another. -/
def Dev.sets (d : Dev) (l : List (Fld × Nat)) : Dev := l.foldl (fun d x => d.set x.1 x.2) d

theorem Dev.get_sets_apart (d : Dev) {f : Fld} (l : List (Fld × Nat)) (h : ∀ x ∈ l, f.Apart x.1) : (d.sets l).get f = d.get f := by
  induction l generalizing d with
  | nil => rfl
  | cons x l ih =>
    exact (ih (d.set x.1 x.2) (fun y hy => h y (List.mem_cons_of_mem x hy))).trans (d.get_set_apart x.2 (h x List.mem_cons_self))

/-- A field keeps what the i-th assignment gave it when none after it touches it. -/
theorem Dev.get_sets (d : Dev) {f : Fld} {v : Nat} (l : List (Fld × Nat)) (i : Nat) (hi : l[i]? = some (f, v)) (h : ∀ x ∈ l.drop (i + 1), f.Apart x.1) :
    (d.sets l).get f = v % 2 ^ f.w := by
  induction l generalizing d i with
  | nil => exact absurd hi (by simp)
  | cons x l ih =>
    cases i with
    | zero =>
      obtain rfl : x = (f, v) := Option.some.inj hi
      exact (Dev.get_sets_apart (d.set f v) l h).trans (d.get_set_self f v)
    | succ i => exact ih (d.set x.1 x.2) i hi h

/-! ### Doorbells (R281) -/

theorem Dev.headReach_of {d : Dev} {h : Nat} (hu : (d.portOf h).up = true) (hc : (d.portOf h).cxl = true) : d.headReach h = true := by
  unfold Dev.headReach Dev.cfgOnly
  rw [hu, hc]
  rfl

theorem Dev.goodDoorbell_csr (d : Dev) (h q : Nat) : (d.goodDoorbell h q).csr = d.csr := rfl

/-- A count of a queue is written and consistent. -/
def Dev.doorbell (d : Dev) (f : Fld) (n h q : Nat) : Dev := (d.set f n).goodDoorbell h q

theorem Dev.doorbell_get (d : Dev) {f : Fld} {n : Nat} (h q : Nat) (hn : n < 2 ^ f.w) : (d.doorbell f n h q).get f = n := by
  unfold Dev.doorbell
  rw [Dev.get_congr (Dev.goodDoorbell_csr (d.set f n) h q), Dev.get_set_self, Nat.mod_eq_of_lt hn]

theorem Dev.doorbell_rd (d : Dev) {f : Fld} (n h q : Nat) {k : Nat} (hk : k ≠ f.reg) : (d.doorbell f n h q).rd k = d.rd k := by
  unfold Dev.doorbell
  rw [Dev.rd_congr (Dev.goodDoorbell_csr (d.set f n) h q), Dev.rd_set_of_ne _ _ _ hk]

/-! ### Queues (R280, R305) -/

/-- What an enable writes, in order. -/
def enableFields (h q ctl : Nat) : List (Fld × Nat) :=
  [(fJDB_CTL_QLOG h q, ctl / 4 % 32), (fJDB_CTL_CLOG h q, ctl / 128 % 32), (fJDB_CTL_VEC h q, ctl / 4096 % 64), (fJDB_TAIL_COUNT h q, 0),
   (fJDB_HEAD_COUNT h q, 0), (fJDB_CQHEAD_COUNT h q, 0), (fJDB_CQTAIL_COUNT h q, 0), (fJDB_CTL_EN h q, 1), (fJDB_STS_STATE h q, 1), (fJDB_STS_CAUSE h q, 0)]

theorem Dev.queueEnable_of_ok {d : Dev} {h q ctl : Nat} (hok : (((d.set (fJDB_CTL_QLOG h q) (ctl / 4 % 32)).set (fJDB_CTL_CLOG h q) (ctl / 128 % 32)).set
      (fJDB_CTL_VEC h q) (ctl / 4096 % 64)).queueOk h q = true) : d.queueEnable h q ctl = (d.sets (enableFields h q ctl)).goodDoorbell h q := by
  unfold Dev.queueEnable
  exact if_pos hok

/-- No assignment of an enable after the i-th touches a field of it, by the places of the registers in the page of the queue. -/
theorem Dev.enabled_get (d : Dev) {h q ctl : Nat} {f : Fld} {v : Nat} (i : Nat) (hi : (enableFields h q ctl)[i]? = some (f, v)) (hv : v < 2 ^ f.w)
    (hlater : ∀ x ∈ (enableFields h q ctl).drop (i + 1), f.Apart x.1) : ((d.sets (enableFields h q ctl)).goodDoorbell h q).get f = v := by
  rw [Dev.get_congr (Dev.goodDoorbell_csr _ h q), Dev.get_sets _ _ i hi hlater, Nat.mod_eq_of_lt hv]

theorem Dev.queueEnable_fields {d : Dev} {h q ctl : Nat} (hok : (((d.set (fJDB_CTL_QLOG h q) (ctl / 4 % 32)).set (fJDB_CTL_CLOG h q) (ctl / 128 % 32)).set
      (fJDB_CTL_VEC h q) (ctl / 4096 % 64)).queueOk h q = true) :
    (d.queueEnable h q ctl).get (fJDB_STS_STATE h q) = 1 ∧ (d.queueEnable h q ctl).get (fJDB_STS_CAUSE h q) = 0 ∧
    (d.queueEnable h q ctl).flag (fJDB_CTL_EN h q) = true ∧ (d.queueEnable h q ctl).get (fJDB_TAIL_COUNT h q) = 0 ∧
    (d.queueEnable h q ctl).get (fJDB_HEAD_COUNT h q) = 0 ∧ (d.queueEnable h q ctl).get (fJDB_CQHEAD_COUNT h q) = 0 ∧
    (d.queueEnable h q ctl).get (fJDB_CQTAIL_COUNT h q) = 0 ∧ (d.queueEnable h q ctl).get (fJDB_CTL_QLOG h q) = ctl / 4 % 32 ∧
    (d.queueEnable h q ctl).get (fJDB_CTL_CLOG h q) = ctl / 128 % 32 ∧ (d.queueEnable h q ctl).get (fJDB_CTL_VEC h q) = ctl / 4096 % 64 := by
  have hflag : ∀ x : Dev, x.get (fJDB_CTL_EN h q) = 1 → x.flag (fJDB_CTL_EN h q) = true := fun x hx => by
    unfold Dev.flag
    rw [hx]
    rfl
  rw [Dev.queueEnable_of_ok hok]
  refine ⟨d.enabled_get 8 rfl (show 1 < 2 ^ 2 by decide) ?_, d.enabled_get 9 rfl (Nat.two_pow_pos _) ?_, hflag _ (d.enabled_get 7 rfl (show 1 < 2 ^ 1 by decide) ?_),
    d.enabled_get 3 rfl (Nat.two_pow_pos _) ?_, d.enabled_get 4 rfl (Nat.two_pow_pos _) ?_, d.enabled_get 5 rfl (Nat.two_pow_pos _) ?_, d.enabled_get 6 rfl (Nat.two_pow_pos _) ?_,
    d.enabled_get 0 rfl (Nat.mod_lt _ (by decide)) ?_, d.enabled_get 1 rfl (Nat.mod_lt _ (by decide)) ?_, d.enabled_get 2 rfl (Nat.mod_lt _ (by decide)) ?_⟩
  all_goals
    simp [enableFields, Fld.Apart, fJDB_CTL_QLOG, fJDB_CTL_CLOG, fJDB_CTL_VEC, fJDB_TAIL_COUNT, fJDB_HEAD_COUNT, fJDB_CQHEAD_COUNT, fJDB_CQTAIL_COUNT,
      fJDB_CTL_EN, fJDB_STS_STATE, fJDB_STS_CAUSE, rJDB_CTL, rJDB_TAIL, rJDB_HEAD, rJDB_CQHEAD, rJDB_CQTAIL, rJDB_STS]

/-- A queue that drains. -/
def Dev.drains (d : Dev) (h q : Nat) : Dev := ((d.fetchGone h q).setFlag (fJDB_CTL_EN h q) false).set (fJDB_STS_STATE h q) qDraining

theorem Dev.fetchGone_jobs (d : Dev) (h q : Nat) : (d.fetchGone h q).job.jobs = d.job.jobs := rfl

theorem Dev.drains_jobs (d : Dev) (h q : Nat) : (d.drains h q).job.jobs = d.job.jobs := by
  unfold Dev.drains
  rw [Dev.set_job, Dev.setFlag_job, Dev.fetchGone_jobs]

theorem Dev.drains_state (d : Dev) (h q : Nat) : (d.drains h q).get (fJDB_STS_STATE h q) = 3 := Dev.get_set_self _ _ _

theorem Dev.drains_en (d : Dev) (h q : Nat) : (d.drains h q).flag (fJDB_CTL_EN h q) = false := by
  unfold Dev.drains
  rw [Dev.flag_set_of_ne _ _ (by simp [fJDB_CTL_EN, fJDB_STS_STATE, rJDB_CTL, rJDB_STS]), Dev.flag_setFlag_self _ _ _ rfl]

theorem Dev.queueSettle_of_jobs {d : Dev} {h q : Nat} (hj : d.jobsOf h q ≠ []) : d.queueSettle h q = d := by
  unfold Dev.queueSettle
  rw [List.isEmpty_eq_false_iff.2 hj]
  rfl

theorem Dev.queueDisable_of_active {d : Dev} {h q : Nat} (hst : d.get (fJDB_STS_STATE h q) = 1) (hc : d.get (fJDB_STS_CAUSE h q) = 0)
    (hj : d.jobsOf h q ≠ []) : d.queueDisable h q = d.drains h q := by
  have hkeep : (d.drains h q).jobsOf h q = d.jobsOf h q := by
    unfold Dev.jobsOf
    rw [Dev.drains_jobs]
  have hon : (d.get (fJDB_STS_STATE h q) = qActive ∨ d.get (fJDB_STS_STATE h q) = qHalted) ∧ d.get (fJDB_STS_CAUSE h q) ≠ 5 :=
    ⟨.inl hst, by rw [hc]; decide⟩
  have hrest : (d.drains h q).queueSettle h q = d.drains h q := Dev.queueSettle_of_jobs (by rw [hkeep]; exact hj)
  unfold Dev.drains at hrest ⊢
  unfold Dev.queueDisable
  dsimp only
  rw [if_pos hon, hrest]

/-- A queue that runs again. -/
def Dev.resumed (d : Dev) (h q : Nat) : Dev := (d.set (fJDB_STS_STATE h q) qActive).set (fJDB_STS_CAUSE h q) 0

theorem Dev.queueResume_of_halted {d : Dev} {h q : Nat} (hst : d.get (fJDB_STS_STATE h q) = 2) (hr : d.resumable h q = true) :
    d.queueResume h q = d.resumed h q := by
  unfold Dev.queueResume
  exact if_pos ⟨hst, hr⟩

theorem Dev.resumed_get (d : Dev) (h q : Nat) : (d.resumed h q).get (fJDB_STS_STATE h q) = 1 ∧ (d.resumed h q).get (fJDB_STS_CAUSE h q) = 0 := by
  unfold Dev.resumed
  refine ⟨?_, Dev.get_set_self _ _ _⟩
  rw [Dev.get_set_of_disjoint _ _ (.inl (by simp [fJDB_STS_STATE, fJDB_STS_CAUSE])), Dev.get_set_self]
  rfl

/-! ### Fetch, dispatch and end (R282, R297, R301, R302) -/

theorem Acc.fetched_of_clean {a b : Acc} {h q : Nat} {xs : List PLine} (hst : a.dev.get (fJDB_STS_STATE h q) = 1)
    (hh : tfind a.dev.job.halting (h * 16 + q) = none)
    (hr : a.dev.jobRange h { lo := a.dev.dqAddr h q (a.dev.get (fJDB_HEAD_COUNT h q)), len := 128, wr := false } = none)
    (hm : a.dev.rangeMoves { lo := a.dev.dqAddr h q (a.dev.get (fJDB_HEAD_COUNT h q)), len := 128, wr := false } = false)
    (hx : a.readLines (.fetch h q) (a.dev.queueClass (h * 16 + q)) (rangeLines (a.dev.dqAddr h q (a.dev.get (fJDB_HEAD_COUNT h q))) 128) = (some xs, b))
    (hp : firstPoison (rangeLines (a.dev.dqAddr h q (a.dev.get (fJDB_HEAD_COUNT h q))) 128) xs = none) :
    a.fetched h q = b.upd (fun d => Dev.joinJobs d ((d.fetchGone h q).storeJob h q (xs.flatMap (fun x => bytesOfLine x.1)))) := by
  have hrun : ¬ (a.dev.get (fJDB_STS_STATE h q) ≠ qActive ∨ (tfind a.dev.job.halting (qNum h q)).isSome = true) := by
    rw [qNum, hh]
    exact fun hx => hx.elim (fun hne => hne hst) Bool.false_ne_true
  unfold Acc.fetched
  dsimp only
  rw [if_neg hrun, hr, if_neg (show ¬ (none : Option Nat).isSome = true from Bool.false_ne_true), hm, if_neg Bool.false_ne_true, qNum, hx]
  dsimp only
  rw [hp]

section

variable {d : Dev} {j : JobE} {s : Nat} (hr : j.isRecon = false)
include hr

theorem Dev.dispatchJob_of_clean (h : d.jobRanges j.head j.allRanges = none) : d.dispatchJob j s = d.placeJob j s := by
  unfold Dev.dispatchJob
  rw [hr, Bool.false_and, if_neg Bool.false_ne_true, h]

theorem Dev.dispatchJob_of_fault {st lo slot : Nat} (h : d.jobRanges j.head j.allRanges = some (st, lo, slot)) :
    d.dispatchJob j s = (d.jobMiss j.head lo).endJob { j with status := st, result := lo, opidx := slot } := by
  unfold Dev.dispatchJob
  rw [hr, Bool.false_and, if_neg Bool.false_ne_true, h]

end

/-- The first poison that a job of a queue meets is latched. -/
def Dev.latched (d : Dev) (n dpa slot : Nat) : Dev := { d with job := { d.job with halting := tins d.job.halting n (1, dpa, slot) } }

theorem Dev.jobPoison_of_first {d : Dev} {j : JobE} {dpa : Nat} (h : tfind d.job.halting (j.head * 16 + j.queue) = none) :
    d.jobPoison j dpa = (d.latched (j.head * 16 + j.queue) dpa (d.dqSlot j.head j.queue j.seq)).raise
      { src := src 33 2, sev := 2, code := 302, obj := j.head * 16 + j.queue, addr := dpa, akind := 1, head := some j.head } := by
  unfold Dev.jobPoison
  dsimp only
  rw [qNum, h, Option.isSome_none, if_neg Bool.false_ne_true]
  rfl

theorem Dev.latched_halting (d : Dev) (n dpa slot : Nat) : tfind (d.latched n dpa slot).job.halting n = some (1, dpa, slot) := tfind_tins_self _ _ _

theorem Acc.jobEnd_of_done {a : Acc} {s t : Nat} {j : JobE} (hj : a.dev.job.jobs.find? (fun j => j.slice == s && j.place == 1) = some j)
    (hr : j.ready = true) (htodo : j.todo = []) :
    a.jobEnd s t = a.upd (fun d => Dev.joinJobs d ((d.endJob { j with time := t }).startStaged s)) := by
  have hw : a.jobWrites j 1 = (j, a) := by
    unfold Acc.jobWrites
    rw [htodo]
  unfold Acc.jobEnd
  rw [hj]
  dsimp only
  rw [if_pos hr]
  dsimp only
  rw [show j.todo.length * 2 + 1 = 1 by rw [htodo]; rfl, hw]
  unfold Acc.upd
  dsimp only
  rw [htodo, List.isEmpty_nil, if_pos rfl]

/-! ### Service classes of queues (R279) -/

/-- Queue q of head h has class v. -/
def Dev.classed (d : Dev) (h q v : Nat) : Dev :=
  let e := Dev.joinJobs d (d.set (fJDB_STS_CLASS h q) v)
  { e with flash := { e.flash with cfg := { e.flash.cfg with regs := tins e.flash.cfg.regs (rJDB_STS h q) (v * 32) } } }

theorem Dev.classed_csr (d : Dev) (h q v : Nat) : (d.classed h q v).csr = (d.set (fJDB_STS_CLASS h q) v).csr := rfl

theorem Dev.classed_class (d : Dev) (h q : Nat) {v : Nat} (hv : v < 8) : (d.classed h q v).get (fJDB_STS_CLASS h q) = v := by
  rw [Dev.get_congr (d.classed_csr h q v), Dev.get_set_self]
  exact Nat.mod_eq_of_lt hv

theorem Dev.classed_regs (d : Dev) (h q v : Nat) : tfind (d.classed h q v).flash.cfg.regs (rJDB_STS h q) = some (v * 32) := tfind_tins_self _ _ _

/-- Settles O28: a command reaches a queue in the state that it is for, and what it leaves is read off the fields set last. -/
theorem jobCommandsComplete : Obligations.JobCommandsComplete := by
  unfold Obligations.JobCommandsComplete
  refine ⟨fun s h q n hu hc hn => ⟨s.dev.doorbell (fJDB_TAIL_COUNT h.toNat q.toNat) n.toNat h.toNat q.toNat, ?_, Dev.doorbell_get _ _ _ n.isLt,
      fun k hk => Dev.doorbell_rd _ _ _ _ hk⟩,
    fun s h q n hu hc hn => ?_,
    fun s h q n hu hc hn => ⟨s.dev.doorbell (fJDB_CQHEAD_COUNT h.toNat q.toNat) n.toNat h.toNat q.toNat, ?_, Dev.doorbell_get _ _ _ n.isLt,
      fun k hk => Dev.doorbell_rd _ _ _ _ hk⟩,
    fun s h q ctl hu hc hen hst => ?_, fun d h q ctl _ _ hok => Dev.queueEnable_fields hok,
    fun s h q hu hc hst hca hj => ⟨s.dev.drains h.toNat q.toNat, ?_, Dev.drains_state _ _ _, Dev.drains_en _ _ _, Dev.drains_jobs _ _ _⟩,
    fun s h q hu hc hst hr => ⟨s.dev.resumed h.toNat q.toNat, ?_, Dev.resumed_get _ _ _⟩, fun s h q hm => ?_, fun s h q hr hf => ?_, fun s sl hr hf => ?_,
    fun s sl t j hr hj hrd htodo => ?_, fun s h q hh hf => ?_, fun s c ha hm => ?_,
    fun s c ha hh hq hv => ⟨s.dev.classed (c.at_ 0 1) (c.at_ 1 1) (c.at_ 2 1), ?_, Dev.classed_class _ _ _ hv, Dev.classed_regs _ _ _ _⟩,
    fun a b h q xs hst hh hr hm hx hp => Acc.fetched_of_clean hst hh hr hm hx hp, fun d j s hr h => Dev.dispatchJob_of_clean hr h,
    fun d j s st lo slot hr h => Dev.dispatchJob_of_fault hr h,
    fun d j dpa h => ⟨d.latched (j.head * 16 + j.queue) dpa (d.dqSlot j.head j.queue j.seq), Dev.jobPoison_of_first h, Dev.latched_halting _ _ _ _⟩⟩
  · change execJdbTailWrite h q n s = _
    unfold execJdbTailWrite
    rw [run_when_of_true (Dev.headReach_of hu hc), Dev.tailWrite, if_neg (Nat.not_lt.2 hn)]
    rfl
  · change execJdbTailWrite h q n s = _
    unfold execJdbTailWrite
    rw [run_when_of_true (Dev.headReach_of hu hc), Dev.tailWrite, if_pos hn]
  · change execJdbCqheadWrite h q n s = _
    unfold execJdbCqheadWrite
    rw [run_when_of_true (Dev.headReach_of hu hc), Dev.cqheadWrite, if_neg (Nat.not_lt.2 hn)]
    rfl
  · change execQueueEnable h q ctl s = _
    unfold execQueueEnable
    exact run_when_of_true (by rw [Dev.headReach_of hu hc, hen, hst]; rfl)
  · change execQueueDisable h q s = _
    unfold execQueueDisable
    rw [run_when_of_true (Dev.headReach_of hu hc), Dev.queueDisable_of_active hst hca hj]
  · change execQueueResume h q s = _
    unfold execQueueResume
    rw [run_when_of_true (Dev.headReach_of hu hc), Dev.queueResume_of_halted hst hr]
  · change execDescriptorFetch h q s = _
    exact run_when_of_true hm
  · change execDescriptorFetched h q s = _
    exact runAcc_when_of_true (by rw [show s.acc.dev = s.dev from rfl, hr, qNum, hf]; rfl)
  · change execJobDispatch sl s = _
    exact runAcc_when_of_true (by rw [show s.acc.dev = s.dev from rfl, hr, hf]; rfl)
  · change execJobEnd sl t s = _
    unfold execJobEnd
    rw [runAcc_when_of_true hr, Acc.jobEnd_of_done (a := s.acc) hj hrd htodo]
  · change execCompletionRecordWrite h q s = _
    exact runAcc_when_of_true (by rw [show s.acc.dev = s.dev from rfl, hh, hf]; rfl)
  · change execJobSliceEn c s = _
    unfold execJobSliceEn
    exact run_command_done ha (firstBad_one _ (by rw [hm, bne_self_eq_false])) rfl
  · change execJobQueueClass c s = _
    unfold execJobQueueClass
    exact run_command_done ha (by rw [decide_eq_false (by omega), decide_eq_false (by omega), decide_eq_false (by omega)]; rfl) rfl

end Sys2Proof.Machine
end


section
/-! Service classes (12_qos.md R307, R308, R316, R318): the commands complete. -/

namespace Sys2Proof.Machine

/-! ### One value in many fields -/

theorem Dev.get_foldl_set_keeps (d : Dev) (f : Nat → Fld) (v : Nat) {g : Fld} {w : Nat} (l : List Nat) (hg : d.get g = w)
    (h : ∀ k ∈ l, f k = g ∧ v % 2 ^ g.w = w ∨ g.Apart (f k)) : (l.foldl (fun d k => d.set (f k) v) d).get g = w := by
  induction l generalizing d with
  | nil => exact hg
  | cons k l ih =>
    refine ih (d.set (f k) v) ?_ (fun x hx => h x (List.mem_cons_of_mem k hx))
    obtain ⟨rfl, hv⟩ | hap := h k List.mem_cons_self
    · rw [Dev.get_set_self, hv]
    · rw [d.get_set_apart v hap, hg]

/-- Each of the fields that take the value reads it, when no two of them meet. -/
theorem Dev.get_foldl_set (d : Dev) (f : Nat → Fld) {v n : Nat} (l : List Nat) (hn : n ∈ l) (h : ∀ k, k ≠ n → (f n).Apart (f k)) (hv : v < 2 ^ (f n).w) :
    (l.foldl (fun d k => d.set (f k) v) d).get (f n) = v := by
  have hmod := Nat.mod_eq_of_lt hv
  induction l generalizing d with
  | nil => exact absurd hn List.not_mem_nil
  | cons k l ih =>
    by_cases hk : k = n
    · subst hk
      refine Dev.get_foldl_set_keeps (d.set (f k) v) f v l ((d.get_set_self _ _).trans hmod) (fun x _ => ?_)
      by_cases hx : x = k
      · exact .inl ⟨congrArg f hx, hmod⟩
      · exact .inr (h x hx)
    · exact ih (d.set (f k) v) ((List.mem_cons.1 hn).resolve_left (fun e => hk e.symm))

/-! ### QOS_CLASSMAP_SET (R307) -/

theorem at_lt (c : Pkt) (off n : Nat) : c.at_ off n < 256 ^ n := leBytes_lt c.payload off n

/-- The class map of head h is recorded. -/
def Dev.mapRecorded (d : Dev) (h m : Nat) : Dev :=
  { d with flash := { d.flash with cfg := { d.flash.cfg with regs := tins d.flash.cfg.regs (rPDV_ALIAS_MAP h 0) m } } }

theorem Dev.setClassmap_of_formed {d : Dev} {h m f : Nat} (hf : d.formed h = some f) :
    d.setClassmap h m = (List.range 32).foldl (fun d n => d.set (fPDV_ALIAS_MAP_CLASSMAP h n) m) (d.mapRecorded h m) := by
  have hsome : ((d.mapRecorded h m).formed h).isSome = true := by
    rw [show (d.mapRecorded h m).formed h = d.formed h from rfl, hf]
    rfl
  unfold Dev.setClassmap
  dsimp only
  unfold Dev.mapRecorded at hsome ⊢
  rw [if_pos hsome]

theorem Dev.get_setClassmap {d : Dev} {h m f n : Nat} (hf : d.formed h = some f) (hm : m < 2 ^ 24) (hn : n < 32) :
    (d.setClassmap h m).get (fPDV_ALIAS_MAP_CLASSMAP h n) = m := by
  rw [Dev.setClassmap_of_formed hf]
  refine Dev.get_foldl_set (d.mapRecorded h m) (fPDV_ALIAS_MAP_CLASSMAP h) (List.range 32) (List.mem_range.2 hn) (fun k hk => .inl ?_) hm
  simp only [fPDV_ALIAS_MAP_CLASSMAP, rPDV_ALIAS_MAP]
  omega

theorem Dev.regs_setClassmap {d : Dev} {h m f : Nat} (hf : d.formed h = some f) :
    tfind (d.setClassmap h m).flash.cfg.regs (rPDV_ALIAS_MAP h 0) = some m := by
  rw [Dev.setClassmap_of_formed hf, foldl_keeps Dev.flash (g := fun d n => d.set (fPDV_ALIAS_MAP_CLASSMAP h n) m) (fun _ _ => rfl)]
  exact tfind_tins_self _ _ _

/-! ### QOS_PORT_SET (R316) -/

/-- A port set, and its settings recorded. -/
def Dev.portRecorded (d : Dev) (c : Pkt) : Dev := (d.portSet c).cfgRegs [rQOS_PORT_CFG (c.at_ 0 1), rQOS_PORT_BUDGET (c.at_ 0 1), rMCH_PTGT (c.at_ 0 1)]

theorem Dev.portRecorded_csr (d : Dev) (c : Pkt) : (d.portRecorded c).csr = (d.portSet c).csr := rfl

theorem Dev.portSet_fields (d : Dev) (c : Pkt) : (d.portSet c).get (fQOS_PORT_CFG_MODE (c.at_ 0 1)) = c.at_ 1 1 % 2 ∧
    (d.portSet c).get (fQOS_PORT_BUDGET_BYTES (c.at_ 0 1)) = c.at_ 4 4 ∧ (d.portSet c).get (fMCH_PTGT_TGT_NS (c.at_ 0 1)) = c.at_ 8 2 := by
  unfold Dev.portSet
  refine ⟨?_, ?_, ?_⟩
  · rw [Dev.get_set_of_ne _ _ (by simp [fQOS_PORT_CFG_MODE, fMCH_PTGT_TGT_NS, rQOS_PORT_CFG, rMCH_PTGT]; omega),
      Dev.get_set_of_ne _ _ (by simp [fQOS_PORT_CFG_MODE, fQOS_PORT_BUDGET_BYTES, rQOS_PORT_CFG, rQOS_PORT_BUDGET]),
      Dev.get_set_of_disjoint _ _ (.inl (by simp [fQOS_PORT_CFG_MODE, fQOS_PORT_CFG_WINDOW_US])), Dev.get_set_self]
    rfl
  · rw [Dev.get_set_of_ne _ _ (by simp [fQOS_PORT_BUDGET_BYTES, fMCH_PTGT_TGT_NS, rQOS_PORT_BUDGET, rMCH_PTGT]; omega), Dev.get_set_self]
    exact Nat.mod_eq_of_lt (at_lt c 4 4)
  · rw [Dev.get_set_self]
    exact Nat.mod_eq_of_lt (at_lt c 8 2)

/-- Settles O29: each command is checked by its hypothesis, and its effect is read off the fields that it sets. -/
theorem qosCommandsComplete : Obligations.QosCommandsComplete := by
  unfold Obligations.QosCommandsComplete
  refine ⟨fun s c f ha hc hf => ⟨s.dev.setClassmap (c.at_ 0 1) (c.at_ 4 3), ?_, fun n hn => Dev.get_setClassmap hf (at_lt c 4 3) hn, Dev.regs_setClassmap hf⟩,
    fun s c ha hok => ⟨s.dev.setClass c, ?_, rfl, rfl⟩, fun s c ha hok hmode => ⟨s.dev.portRecorded c, ?_, ?_⟩⟩
  · change execQosClassmapSet c s = _
    unfold execQosClassmapSet
    exact run_command_done ha (firstBad_one _ (decide_eq_false (by omega))) rfl
  · change execQosClassSet c s = _
    unfold execQosClassSet
    exact run_command_done ha hok rfl
  · change execQosPortSet c s = _
    unfold execQosPortSet
    refine run_command_done ha hok ?_
    dsimp only
    rw [if_neg (by rw [hmode]; decide)]
    rfl
  · obtain ⟨hm, hb, ht⟩ := s.dev.portSet_fields c
    rw [hmode] at hm
    rw [Dev.get_congr (s.dev.portRecorded_csr c), Dev.get_congr (s.dev.portRecorded_csr c), Dev.get_congr (s.dev.portRecorded_csr c)]
    exact ⟨hm, hb, ht⟩

end Sys2Proof.Machine
end


section
/-! Firmware images, the log and the link configuration (13_commands.md R339, 14_management.md R350, R351, R359, R360): the commands complete. -/

namespace Sys2Proof.Machine

/-! ### Image slots -/

theorem Dev.img_putImg (d : Dev) (k : Nat) (x : ImgSlot) : (d.putImg k x).img k = x := by
  unfold Dev.img Dev.putImg
  split <;> rfl

/-- What data of a transfer leave in the slot. -/
theorem Dev.img_fwData (d : Dev) (off : Nat) (data : List Byte) :
    ((d.fwData off data).img d.idleSlot).bytes = (if off = 0 then data else (d.img d.idleSlot).bytes ++ data) ∧
    ((d.fwData off data).img d.idleSlot).verified = false := by
  unfold Dev.fwData
  dsimp only
  rw [Dev.img_putImg]
  exact ⟨rfl, rfl⟩

theorem exec_fwTransfer_of_fits {s : State} {c : Pkt} (ha : Admits s.dev rowFwTransfer c)
    (hoff : c.at_ 0 4 = 0 ∨ c.at_ 0 4 = (s.dev.img s.dev.idleSlot).bytes.length) (hlen : c.at_ 0 4 + (c.payload.drop 4).length ≤ 2 ^ 23) :
    exec (.fwTransfer c) s = .next (s.after ((s.dev.fwData (c.at_ 0 4) (c.payload.drop 4)).answered rowFwTransfer c 0 [])) := by
  have hseq : (c.at_ 0 4 != 0 && c.at_ 0 4 != (s.dev.img s.dev.idleSlot).bytes.length) = false := by
    obtain h | h := hoff
    · rw [h]
      rfl
    · rw [← h, bne_self_eq_false, Bool.and_false]
  change execFwTransfer c s = _
  unfold execFwTransfer
  exact run_command_done ha (firstBad_one _ (by rw [hseq, decide_eq_false (Nat.not_lt.2 hlen)]; rfl)) rfl

/-! ### Activation (R351) -/

theorem Dev.activateBad_of_ok {d : Dev} {c : Pkt} {n : Nat} (hf : c.flags = 0) (hk : c.at_ 0 1 ≤ 1)
    (hs : c.at_ 0 1 = d.get fMGT_STS_SLOT ∨ (d.img (c.at_ 0 1)).complete = true) : d.activateBad c n = none := by
  have hseq : (c.at_ 0 1 != d.get fMGT_STS_SLOT && !(d.img (c.at_ 0 1)).complete && !(d.img (c.at_ 0 1)).verified) = false := by
    obtain h | h := hs
    · rw [h, bne_self_eq_false]
      rfl
    · rw [h, Bool.not_true, Bool.and_false]
      rfl
  have hflags : c.flags.toNat ≠ 1 := by
    rw [hf]
    decide
  unfold Dev.activateBad
  dsimp only
  rw [hseq, decide_eq_false (Nat.not_lt.2 hk), if_neg (fun h => hflags h.1)]
  rfl

theorem exec_fwActivate_eq (s : State) (c : Pkt) :
    exec (.fwActivate c) s = .next (s.after ((s.dev.fwActivate c s.otp.rollback).fwVerify s.dev.mgt.nextBg s.otp.rollback)) := rfl

theorem Dev.fwActivate_of_active {d : Dev} {c : Pkt} {n : Nat} (ha : Admits d rowFwActivate c) (hk : c.at_ 0 1 ≤ 1) (hs : c.at_ 0 1 = d.get fMGT_STS_SLOT) :
    d.fwActivate c n = d.answered rowFwActivate c 0 [] := by
  unfold Dev.fwActivate
  exact Dev.command_done d d rowFwActivate c _ _ [] 0 ha (Dev.activateBad_of_ok ha.act hk (.inl hs)) (if_pos hs)

theorem Dev.fwActivate_of_other {d : Dev} {c : Pkt} {n : Nat} (ha : Admits d rowFwActivate c) (hk : c.at_ 0 1 ≤ 1) (hs : c.at_ 0 1 ≠ d.get fMGT_STS_SLOT)
    (hc : (d.img (c.at_ 0 1)).complete = true) : d.fwActivate c n = d.running rowFwActivate c [c.at_ 0 1] := by
  unfold Dev.fwActivate
  exact Dev.command_runs d d rowFwActivate c _ _ [c.at_ 0 1] ha (Dev.activateBad_of_ok ha.act hk (.inr hc)) (if_neg hs)

/-- Settles O30: each command is checked by its hypotheses, and its effect is read off the slot or the log. -/
theorem firmwareCommandsComplete : Obligations.FirmwareCommandsComplete := by
  unfold Obligations.FirmwareCommandsComplete
  refine ⟨fun s c ha hoff hlen => ⟨_, exec_fwTransfer_of_fits ha (.inl hoff) (by rw [hoff, Nat.zero_add]; exact hlen), ?_, (Dev.img_fwData _ _ _).2⟩,
    fun s c ha hoff hseq hlen => ⟨_, exec_fwTransfer_of_fits ha (.inr hseq) hlen, ?_⟩, fun s c ha hk hs => ?_, fun s c ha hk hs hc => ?_, fun s c ha => ?_,
    fun s c ha hn hn' ht hl => ?_, fun s c ha hok => ?_⟩
  · rw [(Dev.img_fwData _ _ _).1, if_pos hoff]
  · rw [(Dev.img_fwData _ _ _).1, if_neg hoff]
  · rw [exec_fwActivate_eq, Dev.fwActivate_of_active ha hk hs]
  · rw [exec_fwActivate_eq, Dev.fwActivate_of_other ha hk hs hc]
  · change execFwInfo c s = _
    unfold execFwInfo onOtp
    dsimp only
    rw [Dev.command_done s.dev s.dev rowFwInfo c _ _ _ 0 ha rfl rfl]
    rfl
  · change execLogRead c s = _
    unfold execLogRead
    refine run_command_done ha (firstBad_one _ (by rw [beq_false_of_ne (by omega), decide_eq_false (by omega)]; rfl)) ?_
    dsimp only
    rw [if_pos ht, hl]
    simp
  · change execLinkConfig c s = _
    unfold execLinkConfig
    rw [runAcc_eq]
    dsimp only
    have hcmd : s.acc.dev.command rowLinkConfig c (fun d => d.linkBad c) (fun _ d => (.done [] 0, d.linkSet c)) =
        (s.dev.linkSet c).answered rowLinkConfig c 0 [] := Dev.command_done s.dev (s.dev.linkSet c) rowLinkConfig c _ _ [] 0 ha hok rfl
    rw [hcmd]
    rfl

end Sys2Proof.Machine
end


section
/-! Grants, registers by command and packets without a command (13_commands.md R330 to R338, R456): the commands complete. -/

namespace Sys2Proof.Machine

/-! ### Grants (R30, R332) -/

theorem Dev.pairUse_of_true {d : Dev} {k kc : Nat} (h : (d.pairUse k kc).1 = true) : d.pairUse k kc = (true, d) := by
  unfold Dev.pairUse at h ⊢
  dsimp only at h ⊢
  split at h
  · exact absurd h Bool.false_ne_true
  · rw [if_neg ‹_›]
    exact Prod.ext h rfl

/-- A pair that holds when it is read back is read without a trace. -/
theorem Dev.readBack_of_true {d : Dev} {k kc : Nat} (h : (d.readBack [(k, kc)]).1 = true) : (d.readBack [(k, kc)]).2 = d := by
  unfold Dev.readBack at h ⊢
  rw [List.foldl_cons, List.foldl_nil] at h ⊢
  dsimp only at h ⊢
  rw [Bool.true_and] at h
  rw [Dev.pairUse_of_true h, if_pos rfl]

theorem Dev.rd_wrPair {d : Dev} {k kc : Nat} (v : Nat) (h : k ≠ kc) : (d.wrPair k kc v).rd k = v ∧ (d.wrPair k kc v).rd kc = 0xffffffff - v := by
  unfold Dev.wrPair
  rw [Dev.rd_wr_of_ne _ _ h, Dev.rd_wr_self, Dev.rd_wr_self]
  exact ⟨rfl, rfl⟩

theorem Dev.rd_readBack_wrPair {d : Dev} {k kc v : Nat} {r : Bool × Dev} (hr : r = (d.wrPair k kc v).readBack [(k, kc)]) (hk : k ≠ kc) (ht : r.1 = true) :
    r.2.rd k = v ∧ r.2.rd kc = 0xffffffff - v := by
  rw [hr] at ht ⊢
  rw [Dev.readBack_of_true ht]
  exact Dev.rd_wrPair v hk

/-! ### Registers by command (R338, R456) -/

theorem Pkt.regEntryBad_of_ok {c : Pkt} {a : RegAt} (h : accessOk (c.at_ 0 4) 4 = some a) (hw : a.r.width = 32) (hm : (c.at_ 8 4 &&& a.cmdBits) = c.at_ 8 4) :
    c.regEntryBad 0 = none := by
  unfold Pkt.regEntryBad Pkt.regEntry
  dsimp only
  rw [h]
  dsimp only
  rw [if_neg (not_not_intro hw), if_neg (not_not_intro hm)]

theorem Dev.regEntryWrite_of_on {d : Dev} {a : RegAt} {e : Nat × Nat × Nat} (h : regAt e.1 = some a) (hu : d.unitOff a.key = false) :
    d.regEntryWrite e = (d.regAct .firmware a e.2.1 e.2.2).cfgSettings a := by
  unfold Dev.regEntryWrite
  rw [h]
  dsimp only
  rw [hu, if_neg Bool.false_ne_true]

/-! ### Packets without a command (R330) -/

theorem exec_unknownOpcode_of_bad {s : State} {c : Pkt} {op opc mb : BitVec 16} {x : Nat × Nat} (hx : badOpcode c op.toNat opc.toNat mb.toNat = some x)
    (ht : trCode c.tr ≠ 0) (hd : s.dev.deaf false c = false) :
    exec (.unknownOpcode c op opc mb) s = .next (s.after (s.dev.sendReply (s.dev.cmdOf c op.toNat true []) x.1 (c.flags.toNat % 2) x.2 [])) := by
  change execUnknownOpcode c op opc mb s = _
  unfold execUnknownOpcode
  rw [run_eq, hx]
  dsimp only
  unfold Dev.refusePkt
  dsimp only
  rw [hd, if_neg Bool.false_ne_true, if_neg (fun h => ht h.1)]

theorem badOpcode_of_mismatch {c : Pkt} {op opc mb : Nat} (h : op + opc ≠ 0xffff) : badOpcode c op opc mb = some (stOpcodeMismatch, 2) := by
  unfold badOpcode
  exact if_pos h

theorem badOpcode_of_unknown {c : Pkt} {op opc mb : Nat} (h : op + opc = 0xffff) (ht : trCode c.tr ≠ 0) (hr : cmdRow op = none) :
    badOpcode c op opc mb = some (stUnknownOpcode, 0) := by
  unfold badOpcode
  rw [if_neg (not_not_intro h), if_neg (fun x => ht x.1), hr]
  rfl

/-- Settles O31: a grant is read back, an entry passes its checks, and a packet that no command answers has its refusal. -/
theorem administrationCommandsComplete : Obligations.AdministrationCommandsComplete := by
  unfold Obligations.AdministrationCommandsComplete
  refine ⟨fun s c r ha hr => ⟨?_, Dev.rd_readBack_wrPair hr (by decide)⟩, fun s c r ha hr => ⟨?_, Dev.rd_readBack_wrPair hr (by decide)⟩,
    fun s c a ha hlen hacc hat hw hm hu => ?_, fun s c ha hal hn hfit => ?_, fun s i b hb hdone => ?_,
    fun s c op opc mb hne ht hd => exec_unknownOpcode_of_bad (x := (stOpcodeMismatch, 2)) (badOpcode_of_mismatch hne) ht hd,
    fun s c op opc mb heq ht hd hrow => exec_unknownOpcode_of_bad (x := (stUnknownOpcode, 0)) (badOpcode_of_unknown heq ht hrow) ht hd,
    fun a r c check eff h1 h2 h => Acc.command_queues a r c check eff h1 h2 h⟩
  · change execMgtCsrGrant c s = _
    unfold execMgtCsrGrant
    rw [hr]
    exact run_command_stored (e := s.dev.wrPair rTOP_CSR_WRGRANT rTOP_CSR_WRGRANT_C (c.at_ 0 4)) (ps := [(rTOP_CSR_WRGRANT, rTOP_CSR_WRGRANT_C)])
      (f := fun d => d.cfgRegs [rTOP_CSR_WRGRANT]) ha rfl rfl
  · change execMgtCmdGrant c s = _
    unfold execMgtCmdGrant
    rw [hr]
    exact run_command_stored (e := s.dev.wrPair rMGT_CMD_GRANT rMGT_CMD_GRANT_C (c.at_ 0 4)) (ps := [(rMGT_CMD_GRANT, rMGT_CMD_GRANT_C)])
      (f := fun d => d.cfgRegs [rMGT_CMD_GRANT]) ha rfl rfl
  · change execDevRegWrite c s = _
    unfold execDevRegWrite
    rw [hlen]
    refine run_command_done ha ?_ ?_
    · change ([0] : List Nat).findSome? c.regEntryBad = none
      rw [List.findSome?_cons, Pkt.regEntryBad_of_ok hacc hw hm]
      rfl
    · change (CmdEnd.done [] 0, s.dev.regEntryWrite (c.regEntry 0)) = _
      rw [Dev.regEntryWrite_of_on (e := c.regEntry 0) hat hu]
      rfl
  · change execDevRegRead c s = _
    unfold execDevRegRead
    refine run_command_done ha ?_ ?_
    · dsimp only
      rw [hal, hn, decide_eq_false (by omega), decide_eq_false (by omega)]
      rfl
    · rw [hn, List.range_one, List.flatMap_singleton]
      rfl
  · change run (fun d => d.bgReply i) s = _
    rw [run_eq, Dev.bgReply, hb]
    dsimp only
    rw [if_pos hdone]

end Sys2Proof.Machine
end


section
/-! The fault hub (15_faults.md R369 to R383): its commands complete, and what follows a record. -/

namespace Sys2Proof.Machine

/-! ### Settings and records (R369 to R371) -/

theorem Dev.recAt_valid {d : Dev} {n k : Nat} (h : d.recAt n = some k) : d.recValid k = true :=
  (Bool.and_eq_true_iff.1 (List.find?_some (p := fun k => d.recValid k && d.recNum k == n) h)).1

/-- FLT_GLOBAL holds again, and is recorded. -/
def Dev.globalSet (d : Dev) : Dev := { d with flt := { d.flt with globalBad := false } }.cfgRegs [rFLT_GLOBAL]

theorem firstBad_global {us sv : Nat} (h1 : 10 ≤ us) (h2 : us ≤ 100000) (h3 : 1 ≤ sv) (h4 : sv ≤ 5) :
    firstBad [(us < 10 || 100000 < us, stInvalidField, 16), (sv == 0 || 5 < sv, stInvalidField, 19)] = none := by
  rw [decide_eq_false (by omega), decide_eq_false (by omega), beq_false_of_ne (by omega), decide_eq_false (by omega)]
  rfl

theorem Dev.recFree_of_valid {d : Dev} {k : Nat} (h : d.recValid k = true) :
    d.recFree k = ((d.logHeld k).wr (rFLT_REC_CTL k) 0).drop fFLT_STS_HELD 1 := by
  unfold Dev.recFree
  rw [if_pos h]

theorem rFLT_REC_ne_CTL (k : Nat) : rFLT_REC k ≠ rFLT_REC_CTL k := by
  unfold rFLT_REC rFLT_REC_CTL
  omega

theorem Dev.recSev_setFlag_ack (d : Dev) (k : Nat) (b : Bool) : (d.setFlag (fFLT_REC_CTL_ACK k) b).recSev k = d.recSev k := by
  unfold Dev.recSev Dev.setFlag
  rw [Dev.rd_set_of_ne _ _ _ (rFLT_REC_ne_CTL k)]

theorem Dev.ackRec_of_open {d : Dev} {k : Nat} (h : d.recValid k = true) (hs : d.recSev k ≠ 1) : d.ackRec k = d.setFlag (fFLT_REC_CTL_ACK k) true := by
  unfold Dev.ackRec
  dsimp only
  rw [h, Bool.not_true, if_neg Bool.false_ne_true, if_neg (by rw [Dev.recSev_setFlag_ack]; exact hs)]

theorem exec_fltGlobalSet_of_legal {s : State} {c : Pkt} (ha : Admits s.dev rowFltGlobal c) (h1 : 10 ≤ c.at_ 0 3) (h2 : c.at_ 0 3 ≤ 100000)
    (h3 : 1 ≤ c.at_ 3 1) (h4 : c.at_ 3 1 ≤ 5) :
    exec (.fltGlobalSet c) s = .next (s.after
      (if ((s.dev.wrPair rFLT_GLOBAL rFLT_GLOBAL_C (c.at_ 0 3 + c.at_ 3 1 * 2 ^ 17)).readBack [(rFLT_GLOBAL, rFLT_GLOBAL_C)]).1 then
        (((s.dev.wrPair rFLT_GLOBAL rFLT_GLOBAL_C (c.at_ 0 3 + c.at_ 3 1 * 2 ^ 17)).readBack [(rFLT_GLOBAL, rFLT_GLOBAL_C)]).2.globalSet).answered rowFltGlobal c 0 []
      else ((s.dev.wrPair rFLT_GLOBAL rFLT_GLOBAL_C (c.at_ 0 3 + c.at_ 3 1 * 2 ^ 17)).readBack [(rFLT_GLOBAL, rFLT_GLOBAL_C)]).2.failed rowFltGlobal c 5)) := by
  change execFltGlobalSet c s = _
  unfold execFltGlobalSet
  exact run_command_stored (f := Dev.globalSet) ha (firstBad_global h1 h2 h3 h4) rfl

/-- Nothing escalated holds the device in Basic service. -/
theorem Dev.exit_free {d : Dev} (h : ∀ k < 64, d.recValid k = true → 3 ≤ d.recSev k → d.flag (fFLT_REC_CTL_ESCALATED k) = false) :
    (d.basic && (List.range 64).any (fun k => d.recValid k && decide (3 ≤ d.recSev k) && d.flag (fFLT_REC_CTL_ESCALATED k))) = false := by
  have hnone : (List.range 64).any (fun k => d.recValid k && decide (3 ≤ d.recSev k) && d.flag (fFLT_REC_CTL_ESCALATED k)) = false := by
    refine List.any_eq_false.2 (fun k hk hall => ?_)
    obtain ⟨hvs, he⟩ := Bool.and_eq_true_iff.1 hall
    obtain ⟨hv, hs⟩ := Bool.and_eq_true_iff.1 hvs
    exact absurd he (by rw [h k (List.mem_range.1 hk) hv (of_decide_eq_true hs)]; exact Bool.false_ne_true)
  rw [hnone, Bool.and_false]

/-! ### Injection (R382, R383) -/

/-- Injection x waits at its checker. -/
def Dev.injected (d : Dev) (x : Inj) : Dev :=
  { d with flt := { d.flt with inj := d.flt.inj.filter (fun (y : Inj) => y.checker != x.checker) ++ [x] } }

theorem Dev.inject_of_wait {d : Dev} {c : Pkt} {i : Nat} (h : c.at_ 0 1 ≠ 1) :
    d.inject i c = (.done [] 0, d.injected ⟨c.at_ 0 1, c.at_ 4 8, c.at_ 1 1⟩) := by
  unfold Dev.inject
  exact if_neg h

theorem Dev.inject_of_dram {d : Dev} {c : Pkt} {i : Nat} (h : c.at_ 0 1 = 1) :
    d.inject i c = (.runs [1], d.pushDram (c.at_ 4 8 / 64) none 6 (.scrub 1 (some (i, c.at_ 1 1))) 8 false none) := by
  unfold Dev.inject
  dsimp only
  rw [if_pos h, h]

theorem Dev.mem_injected (d : Dev) (x : Inj) : x ∈ (d.injected x).flt.inj := List.mem_append_right _ (List.mem_singleton.2 rfl)

/-- Settles O32: each command is checked by its hypotheses, and its effect is the one that its section gives. -/
theorem faultCommandsComplete : Obligations.FaultCommandsComplete := by
  unfold Obligations.FaultCommandsComplete
  refine ⟨fun s c k r ha hsev hre hk hr => ?_, fun s c r ha h1 h2 h3 h4 hr => ?_, fun s c k ha hk => ?_, fun s c ha hall => ?_, fun s c ha h1 h2 => ?_,
    fun s hu => ?_, fun s c ha hok hk => ⟨s.dev.injected ⟨c.at_ 0 1, c.at_ 4 8, c.at_ 1 1⟩, ?_, Dev.mem_injected _ _⟩, fun s c ha hok hk => ?_⟩
  · change execFltReactSet c s = _
    unfold execFltReactSet
    rw [hr, hk]
    refine run_command_stored (ps := [(rFLT_REACT (c.at_ 0 2 / 16), rFLT_REACT_C (c.at_ 0 2 / 16))])
      (f := fun d => d.cfgRegs [rFLT_REACT (c.at_ 0 2 / 16)]) ha ?_ rfl
    rw [beq_false_of_ne hsev, hre]
    rfl
  · rw [exec_fltGlobalSet_of_legal ha h1 h2 h3 h4, ← hr]
    rfl
  · change execFltClear c s = _
    unfold execFltClear
    refine run_command_done ha (firstBad_one _ (by rw [hk]; rfl)) ?_
    rw [hk]
    dsimp only
    rw [Dev.recFree_of_valid (Dev.recAt_valid hk)]
  · change execBasicExit c s = _
    unfold execBasicExit
    exact run_command_done ha (firstBad_one _ (Dev.exit_free hall)) rfl
  · change execFltInjectUnlock c s = _
    unfold execFltInjectUnlock
    refine run_command_done ha (firstBad_one _ (decide_eq_false (by omega))) ?_
    rw [if_neg (by omega)]
  · change run (fun d => d.when (d.flag fMGT_STS_INJ_UNLOCK) Dev.lockInj) s = _
    rw [run_when_of_true hu]
    rfl
  · change execFltInject c s = _
    unfold execFltInject
    exact run_command_done ha hok (Dev.inject_of_wait hk)
  · change execFltInject c s = _
    unfold execFltInject
    exact run_command_runs ha hok (Dev.inject_of_dram hk)

/-! ### What follows a record (R370, R371, R375) -/

theorem Dev.logPut_csr (d : Dev) (kind sev source data : Nat) : (d.logPut kind sev source data).csr = d.csr := by
  unfold Dev.logPut
  split <;> rfl

theorem Dev.logHeld_csr (d : Dev) (k : Nat) : (d.logHeld k).csr = d.csr := by
  unfold Dev.logHeld
  split
  · exact Dev.logPut_csr _ _ _ _ _
  · rfl

theorem Dev.takeUp_of_plain {d : Dev} {k : Nat} (h : d.flt.toLog.contains k = true) (hs : d.recSrc k ≠ src 8 0) :
    d.takeUp k = (({ d with flt := { d.flt with toLog := d.flt.toLog.filter (· != k) } } : Dev).logFault (d.rd (rFLT_REC k))).ackRec k := by
  have hsrc : ¬ (d.logHeld k).recSrc k = src 8 0 := by
    unfold Dev.recSrc at hs ⊢
    rw [Dev.rd_congr (d.logHeld_csr k)]
    exact hs
  unfold Dev.takeUp
  dsimp only
  rw [if_neg hsrc, Dev.logHeld, if_pos h]

/-! ### The checkers of channels and clocks (R378, R379) -/

theorem Dev.probe_of_good {d : Dev} {ch sub : Nat} {failed : Nat → Bool} (h : ∀ r ∈ d.probeRanks ch, failed r = false) :
    d.probe ch sub failed = (d.emits ((d.probeRanks ch).map (fun r => .ddr 4 ch sub [r]))).emits [] := by
  have hbad : (d.probeRanks ch).filter failed = [] := List.filter_eq_nil_iff.2 (fun r hr => by rw [h r hr]; exact Bool.false_ne_true)
  unfold Dev.probe
  dsimp only
  rw [hbad]
  rfl

theorem Dev.caParity_of_few {d : Dev} {ch n : Nat} (h1 : 1 ≤ n) (h2 : n ≤ 2) :
    d.caParity ch n = d.raise { src := srcMch ch 5, sev := 1, code := 3, obj := ch, aux0 := n } := by
  unfold Dev.caParity
  rw [if_neg (by omega), if_pos h2]

theorem Dev.clockBad_of_fatal {d : Dev} {k : Nat} (h : k < 9 ∨ 14 < k) : d.clockBad k = d.raise { src := src 36 k, sev := 4, code := 378, obj := k } := by
  unfold Dev.clockBad
  exact if_neg (by omega)

/-- Settles O33: each event meets the condition of its command, and leaves the record that its checker gives. -/
theorem faultEventsComplete : Obligations.FaultEventsComplete := by
  unfold Obligations.FaultEventsComplete
  refine ⟨fun s w k ha hv hs => ?_, fun s k hf hv hl hs => ?_, fun s k hv hk hr hs he => ?_, fun s hb hstep => ?_, fun s ch sub failed hd hall => ?_,
    fun s ch n hd h1 h2 => ?_, fun s k hk => ?_⟩
  · change execFltAck w k s = _
    unfold execFltAck
    rw [run_eq, Dev.writeBy_allowed _ _ _ _ ha, Dev.ackRec_of_open hv hs]
  · change execFaultRecordTakeUp k s = _
    unfold execFaultRecordTakeUp
    rw [run_when_of_true (by rw [hf, hv, hl]; rfl), Dev.takeUp_of_plain hl hs]
  · change execEscalationTimerExpiry k s = _
    exact run_when_of_true (by rw [hv, hk, hr, he, decide_eq_true hs]; rfl)
  · change execBasicWriteoutDone s = _
    exact runAcc_when_of_true (by rw [show s.acc.dev = s.dev from rfl, hb, hstep]; rfl)
  · change execChannelProbe ch sub failed s = _
    unfold execChannelProbe
    rw [run_when_of_true hd, Dev.probe_of_good hall]
  · change execCaParityError ch n s = _
    unfold execCaParityError
    rw [run_when_of_true hd, Dev.caParity_of_few h1 h2]
  · change run (fun d => d.clockBad k.val) s = _
    rw [run_eq, Dev.clockBad_of_fatal hk]

end Sys2Proof.Machine
end


section
/-! The management processor's memories, its watchdog and its restarts (14_management.md R342 to R344, R351): the events complete. -/

namespace Sys2Proof.Machine

/-! ### Errors of the memories (R342, R458) -/

theorem takeFirst_eq_none {α : Type} {p : α → Bool} (l : List α) (h : ∀ x ∈ l, p x = false) : takeFirst p l = none := by
  induction l with
  | nil => rfl
  | cons x l ih =>
    unfold takeFirst
    rw [h x List.mem_cons_self, if_neg Bool.false_ne_true, ih (fun y hy => h y (List.mem_cons_of_mem x hy))]
    rfl

theorem Dev.tcmInj_of_none {d : Dev} (h : ∀ x ∈ d.flt.inj, x.checker ≠ 2) (i bits : Nat) (p : Nat → Bool) : d.tcmInj i bits p = (false, d) := by
  unfold Dev.tcmInj
  rw [takeFirst_eq_none _ (fun x hx => by rw [beq_false_of_ne (h x hx)]; rfl)]

/-- A corrected error is counted; where no injection of the TCMs waits, the list of injections stands. -/
theorem Dev.exists_tcmFixed_eq (d : Dev) : ∃ l, d.tcmFixed = Dev.bumpSat { d with flt := { d.flt with inj := l } } fMGT_TCM_STS_CE 1 ∧
    ((∀ x ∈ d.flt.inj, x.checker ≠ 2) → l = d.flt.inj) := by
  by_cases h : ∀ x ∈ d.flt.inj, x.checker ≠ 2
  · refine ⟨d.flt.inj, ?_, fun _ => rfl⟩
    unfold Dev.tcmFixed
    rw [Dev.tcmInj_of_none h, Dev.tcmInj_of_none h]
  · obtain ⟨l, hl⟩ := d.exists_tcmInj_eq 0 1 (fun _ => true)
    obtain ⟨m, hm⟩ := Dev.exists_tcmInj_eq (d.tcmInj 0 1 (fun _ => true)).2 1 1 (fun _ => true)
    refine ⟨m, ?_, fun hx => absurd hx h⟩
    unfold Dev.tcmFixed
    rw [hm, hl]

theorem Dev.fetchFault_of_good {d e : Dev} {n : Nat} (hg : d.pageGood n = true) (hs : d.fetchSoon n = false)
    (he : e = (d.tcmInj 0 2 (fun e => e / 512 == n)).2.pageRewrite n) :
    d.fetchFault n true = (Dev.bumpSat { e with mgt := { e.mgt with fetchAt := tins d.mgt.fetchAt n d.now } } fMGT_TCM_STS_IREPAIR 1).raise
      { src := src 39 0, sev := 1, code := 342, obj := n, inj := (d.tcmInj 0 2 (fun e => e / 512 == n)).1 } := by
  unfold Dev.fetchFault
  rw [if_pos (by rw [hg, hs]; rfl), he]

theorem Dev.fetchFault_of_bad {d : Dev} {n : Nat} {ok : Bool} (h : ok = false ∨ d.pageGood n = false ∨ d.fetchSoon n = true) :
    d.fetchFault n ok = d.tcmFail 0 (fun e => e / 512 == n) := by
  have hcond : ¬ (ok && d.pageGood n && !d.fetchSoon n) = true := by
    obtain h | h | h := h
    · rw [h]
      exact Bool.false_ne_true
    · rw [h, Bool.and_false]
      exact Bool.false_ne_true
    · rw [h, Bool.not_true, Bool.and_false]
      exact Bool.false_ne_true
  unfold Dev.fetchFault
  exact if_neg hcond

theorem exec_instructionFetchError_eq (s : State) (page : BitVec 7) (ok : Bool) :
    exec (.instructionFetchError page ok false) s =
      run (fun d => d.when (d.pin.mgmtUp && d.mgt.fwRun) (fun d => d.fetchFault page.toNat ok)) s := rfl

/-! ### The restart (R344) -/

theorem Dev.get_cmdsStop (d : Dev) {f : Fld} (h : f.reg ≠ rMCH_RET_STS) : d.cmdsStop.get f = d.get f := by
  have hset : ∀ (e : Dev), e.csr = d.csr → e.retStats.get f = d.get f := fun e he => by
    unfold Dev.retStats
    rw [Dev.get_set_of_ne _ _ h, Dev.get_set_of_ne _ _ h, Dev.get_congr he]
  exact hset _ rfl

/-- The device in restart, before its status is written. -/
def Dev.restarting (d : Dev) : Dev :=
  let bg := (d.mgt.bg.filter (fun e => !e.2.done && !e.2.fg)).map (fun (e : Nat × BgCmd) => (e.1, { e.2 with tr := 4 }))
  let d := { d.cmdsStop with pair := { d.pair with session := false } }
  { d with mgt := { d.mgt with restart := true, romDone := false, bg := bg, cmdq := [], sessions := [], activatePending := false,
                               seedOpen := true, fetchAt := [], restarts := d.mgt.restarts + 1 }
           pwr := { d.pwr with sleepReq := none } }

theorem Dev.restarting_csr (d : Dev) : d.restarting.csr = d.cmdsStop.csr := rfl

theorem Dev.restarting_sessions (d : Dev) : d.restarting.mgt.sessions = [] := rfl

/-- The replies of the restart leave its status as it is written. -/
theorem Dev.keepsMgtSts_restarting (d : Dev) :
    (((d.restarting.setFlag fMGT_STS_READY false).set fMGT_STS_MODE 1).bumpSat fMGT_STS_RESTARTS 1).KeepsMgtSts d.mgtRestart :=
  Dev.KeepsMgtSts.foldl (fun e (x : BgCmd × Nat) => e.keepsMgtSts_sendReply x.1 stNotReady x.2 noDetail []) _ _

theorem Dev.get_bumpSat_self (d : Dev) (f : Fld) (n : Nat) : (d.bumpSat f n).get f = min (d.get f + n) (2 ^ f.w - 1) := by
  unfold Dev.bumpSat
  rw [Dev.get_set_self]
  have hpos : 0 < 2 ^ f.w := Nat.two_pow_pos _
  exact Nat.mod_eq_of_lt (by omega)

theorem Dev.mgtRestart_sessions (d : Dev) : d.mgtRestart.mgt.sessions = [] := by
  rw [d.keepsMgtSts_restarting.1, Dev.bumpSat_mgt, Dev.set_mgt, Dev.setFlag_mgt, Dev.restarting_sessions]

theorem Dev.mgtRestart_restarts (d : Dev) : d.mgtRestart.get fMGT_STS_RESTARTS = min (d.get fMGT_STS_RESTARTS + 1) (2 ^ fMGT_STS_RESTARTS.w - 1) := by
  have hr : d.restarting.get fMGT_STS_RESTARTS = d.get fMGT_STS_RESTARTS := by
    rw [Dev.get_congr d.restarting_csr, d.get_cmdsStop (by decide)]
  rw [d.keepsMgtSts_restarting.get_eq rfl, Dev.get_bumpSat_self, Dev.get_set_of_disjoint _ _ (.inr (by decide)), Dev.setFlag, Dev.get_set_of_disjoint _ _ (.inr (by decide)), hr]

/-- Settles O34: an error is corrected, repaired, or runs into the restart, whose status R344 gives. -/
theorem managementEventsComplete : Obligations.ManagementEventsComplete := by
  unfold Obligations.ManagementEventsComplete
  refine ⟨fun s hup => ?_, fun s page d hup hrun hg hs hd => ?_, fun s page ok hup hrun h => ?_, fun s page ok hup => ?_, fun s hup => ?_,
    fun d => ⟨d.mgtRestart_not_ready, d.mgtRestart_mode, d.mgtRestart_sessions, d.mgtRestart_restart, d.mgtRestart_restarts⟩, fun s h => ?_,
    fun s hu => ?_, fun s hf hp => ?_⟩
  · obtain ⟨l, hl, hsame⟩ := s.dev.exists_tcmFixed_eq
    refine ⟨l, ?_, hsame⟩
    change run (fun d => d.when d.pin.mgmtUp Dev.tcmFixed) s = _
    rw [run_when_of_true hup, hl]
  · rw [exec_instructionFetchError_eq, run_when_of_true (by rw [hup, hrun]; rfl), Dev.fetchFault_of_good hg hs hd]
  · rw [exec_instructionFetchError_eq, run_when_of_true (by rw [hup, hrun]; rfl), Dev.fetchFault_of_bad h]
  · change run (fun d => d.when d.pin.mgmtUp (fun d => d.tcmFail 1 (fun _ => false))) s = _
    exact run_when_of_true hup
  · rw [exec_dataTcmError_eq, Dev.when_of_true _ _ _ hup]
  · rw [exec_watchdogExpiry_eq, Dev.when_of_true _ _ _ (Bool.or_eq_true_iff.2 h)]
  · change run (fun d => d.when d.unconfirmed (fun d => d.fellBack.mgtRestart)) s = _
    exact run_when_of_true hu
  · change run (fun d => d.when (d.fwUp && d.mgt.activatePending) Dev.mgtRestart) s = _
    exact run_when_of_true (by rw [hf, hp]; rfl)

end Sys2Proof.Machine
end


section
/-! The boot chain, SPDM and the decisions of firmware (14_management.md R344 to R362): the commands complete. -/

namespace Sys2Proof.Machine

/-! ### Boot and restart (R344, R348) -/

theorem exec_mgmtResetRelease_of_ready {s : State} (h : s.dev.mgmtReady = true) :
    exec .mgmtResetRelease s = .next { s.after (s.dev.romBoot s.otp).1 with otp := (s.dev.romBoot s.otp).2 } := by
  change execMgmtResetRelease s = _
  unfold execMgmtResetRelease onOtp
  dsimp only
  rw [if_pos h]
  rfl

section
variable {c : Dev → Bool} {f : Dev → Otp → Dev} {kind : Nat} {s : State} (hc : c s.dev = true)
include hc

theorem readyStep_of_recovery (hm : (f s.dev s.otp).get fMGT_STS_MODE = 2) :
    readyStep c f kind s = .next { s with dev := (f s.dev s.otp).settle } := by
  unfold readyStep
  rw [if_pos hc]
  dsimp only
  rw [if_pos hm]

/-- What a boot or restart leaves that completes. -/
theorem readyStep_of_run (hm : (f s.dev s.otp).get fMGT_STS_MODE ≠ 2) :
    ∃ t : State, readyStep c f kind s = .next t ∧ ∃ d : Dev, t.dev = ((d.confirm s.otp).1.ready kind).settle ∧ t.otp = (d.confirm s.otp).2 := by
  unfold readyStep
  rw [if_pos hc]
  dsimp only
  rw [if_neg hm]
  exact ⟨_, rfl, (Acc.restoreAll (State.acc { s with dev := f s.dev s.otp })).dev, rfl, rfl⟩

end

theorem exec_managementRestartDone_of_booted {s : State} (h : s.dev.mgt.booted = true) :
    exec .managementRestartDone s = readyStep (fun d => d.mgt.restart) Dev.restartDone 4 s := by
  change execManagementRestartDone s = _
  unfold execManagementRestartDone
  rw [h, Bool.not_true, Bool.and_false, if_neg Bool.false_ne_true]

/-! ### The confirmed image (R351, R352) -/

/-- The selected image is confirmed. -/
def Dev.tried (d : Dev) : Dev :=
  if d.flash.sel.try_ then
    { d.setFlag fMGT_STS_FALLBACK false with
      flash := { d.flash with sel := { d.flash.sel with try_ := false, confirmed := d.flash.sel.confirmed.filter (· != d.flash.sel.active) ++ [d.flash.sel.active] } } }
  else d

theorem Dev.tried_slot (d : Dev) : d.tried.get fMGT_STS_SLOT = d.get fMGT_STS_SLOT := by
  unfold Dev.tried
  split
  · exact Dev.get_setFlag_of_disjoint d false (.inl (by decide))
  · rfl

theorem Dev.tried_img (d : Dev) (k : Nat) : d.tried.img k = d.img k := by
  unfold Dev.tried
  split <;> rfl

theorem Dev.confirm_eq (d : Dev) (o : Otp) : d.confirm o =
    if (imgAt (d.img (d.get fMGT_STS_SLOT)).bytes 9 1).testBit 0 && decide (o.rollback < min (imgAt (d.img (d.get fMGT_STS_SLOT)).bytes 12 4) 64) then
      (d.tried.logPut 7 0 0 (min (imgAt (d.img (d.get fMGT_STS_SLOT)).bytes 12 4) 64),
        { o with rollback := min (imgAt (d.img (d.get fMGT_STS_SLOT)).bytes 12 4) 64 })
    else (d.tried, o) := by
  rw [← d.tried_slot, ← d.tried_img]
  rfl

theorem Dev.confirm_rollback (d : Dev) (o : Otp) : (d.confirm o).2.rollback =
    if (imgAt (d.img (d.get fMGT_STS_SLOT)).bytes 9 1).testBit 0 = true then max o.rollback (min (imgAt (d.img (d.get fMGT_STS_SLOT)).bytes 12 4) 64)
    else o.rollback := by
  rw [Dev.confirm_eq]
  by_cases hraise : (imgAt (d.img (d.get fMGT_STS_SLOT)).bytes 9 1).testBit 0 = true
  · rw [if_pos hraise, hraise, Bool.true_and]
    by_cases hlt : o.rollback < min (imgAt (d.img (d.get fMGT_STS_SLOT)).bytes 12 4) 64
    · rw [if_pos (decide_eq_true hlt), max_eq_right (Nat.le_of_lt hlt)]
    · rw [if_neg (fun h => hlt (of_decide_eq_true h)), max_eq_left (Nat.le_of_not_lt hlt)]
  · rw [if_neg hraise, if_neg (fun h => hraise (Bool.and_eq_true_iff.1 h).1)]

/-! ### Sessions (R354) -/

theorem Dev.mem_endSession (d : Dev) (n : Nat) (x : Session) : x ∈ (d.endSession n).mgt.sessions ↔ x ∈ d.mgt.sessions ∧ x.id ≠ n := by
  unfold Dev.endSession
  rw [List.mem_filter, bne_iff_ne]

theorem Dev.spdmExchange_of_full {d : Dev} (via : SpdmVia) (m o : Bool) (h : 8 ≤ d.mgt.sessions.length) :
    d.spdmExchange via m o = d.emit (.spdm (viaDoe via) 0x7F [10]) := by
  unfold Dev.spdmExchange
  exact if_pos h

/-- Settles O35: a command meets its condition, and what it leaves is what its section gives. -/
theorem bootCommandsComplete : Obligations.BootCommandsComplete := by
  unfold Obligations.BootCommandsComplete
  refine ⟨fun s h => exec_mgmtResetRelease_of_ready h, fun s h1 h2 h3 h4 => ?_, fun s hb hm => readyStep_of_run (c := Dev.bootable) (f := fun d _ => d.bootDone) (kind := 3) hb hm, fun s hr hb => ?_,
    fun d o => d.confirm_rollback o, fun s r hf => ?_, fun d f via m o h => Dev.spdmExchange_of_full via m o h,
    fun s n => ⟨s.dev.endSession n, rfl, s.dev.mem_endSession n⟩, fun s l hf => ?_, fun s x hf => ?_⟩
  · change execFirmwareEntry s = _
    exact run_when_of_true (by rw [h1, h2, h3, h4]; rfl)
  · rw [exec_managementRestartDone_of_booted hb]
    by_cases hm : (s.dev.restartDone s.otp).get fMGT_STS_MODE = 2
    · exact ⟨_, readyStep_of_recovery hr hm, fun _ => rfl, fun h => absurd hm h⟩
    · obtain ⟨t, ht, hd⟩ := readyStep_of_run (c := fun d => d.mgt.restart) (f := Dev.restartDone) (kind := 4) hr hm
      exact ⟨t, ht, fun h => absurd h hm, fun _ => hd⟩
  · change execSpdmRequest r s = _
    unfold execSpdmRequest onOtp
    dsimp only
    rw [Dev.when_of_true _ _ _ hf]
    rfl
  · exact run_when_of_true (c := Dev.fwUp) hf
  · exact run_when_of_true (c := Dev.fwUp) hf

end Sys2Proof.Machine
end


section
/-! Resets and main power (16_power_thermal.md R396, 19_pins_electrical.md R438 to R445): the commands complete. -/

namespace Sys2Proof.Machine

/-- The main domains leave reset. -/
def Dev.mainUp (d : Dev) : Dev := Dev.pmuPower { d with pin := { d.pin with mainUp := true } }

theorem Acc.mainRelease_of_awake {a : Acc} (h : a.dev.pwr.exiting = false) : a.mainRelease = a.upd Dev.mainUp := by
  have hexit : (a.upd Dev.mainUp).dev.pwr.exiting = false := by
    rw [show (a.upd Dev.mainUp).dev = a.dev.mainUp from rfl, Dev.mainUp, Dev.pmuPower_pwr]
    exact h
  have hcond : ¬ ((a.upd Dev.mainUp).dev.pwr.exiting && (a.upd Dev.mainUp).dev.pwr.exitFrom == 3) = true := by
    rw [hexit]
    exact Bool.false_ne_true
  exact if_neg hcond

/-- A sleep exit has ended. -/
def Dev.exitEnded (d : Dev) : Dev := Dev.set { d with pwr := { d.pwr with exiting := false, exitFrom := 0 } } fPWR_SLEEP_STS_STATE 0

/-- A port goes on from L1 alone: nothing was lost. -/
theorem Acc.sleepEnd_of_s1 {a : Acc} (hf : a.dev.pwr.exitFrom = 1) (hw : a.dev.pin.warm ≠ 3) :
    a.sleepEnd = heads.foldl Acc.releaseRx (a.upd Dev.exitEnded) := by
  unfold Acc.sleepEnd
  dsimp only
  rw [hf]
  exact if_neg hw

/-- Settles O36: each pin or timer meets the condition of its command, whose effect is the one that its section gives. -/
theorem resetCommandsComplete : Obligations.ResetCommandsComplete := by
  unfold Obligations.ResetCommandsComplete
  refine ⟨fun s h => ?_, fun s h1 h2 => ?_, fun s h1 h2 h3 h4 h5 => ?_, fun s h1 h2 => ?_, fun s h1 h2 h3 => ?_, fun s h1 h2 => ?_, fun s h => ?_, fun s => rfl,
    fun s h1 h2 h3 h4 => ?_, fun s h => ?_, fun s h => ?_, fun s h1 h2 h3 => ?_⟩
  · change execColdReset s = _
    unfold execColdReset onOtp
    dsimp only
    rw [if_pos h]
  · change execSysRstRelease s = _
    exact run_when_of_true (by rw [h1, h2]; rfl)
  · change execPwrMainEnRise s = _
    exact run_when_of_true (by rw [h1, h2, h3, h4, bne_iff_ne.2 h5]; rfl)
  · change execMainPwrgdRise s = _
    exact run_when_of_true (by rw [h1, h2]; rfl)
  · change execMainDomainRelease s = _
    unfold execMainDomainRelease
    rw [runAcc_when_of_true (by rw [show s.acc.dev = s.dev from rfl, h1, h2]; rfl), Acc.mainRelease_of_awake (a := s.acc) h3]
    rfl
  · change execMainPwrgdFall s = _
    unfold execMainPwrgdFall onOtp
    dsimp only
    rw [if_pos (by rw [h1, h2]; rfl)]
  · change execAonPowerOn s = _
    unfold execAonPowerOn onOtp
    dsimp only
    rw [h, if_neg Bool.false_ne_true]
  · change execWarmReset s = _
    unfold execWarmReset onOtp
    dsimp only
    rw [if_pos (by rw [h1, h2, h3, h4]; rfl)]
    rfl
  · change execWarmResetFlushDone s = _
    exact runAcc_when_of_true (beq_iff_eq.2 h)
  · change execWarmResetRelease s = _
    exact runAcc_when_of_true (beq_iff_eq.2 h)
  · change execSleepExitDone s = _
    unfold execSleepExitDone
    rw [runAcc_when_of_true (by rw [show s.acc.dev = s.dev from rfl, h1, h2]; rfl), Acc.sleepEnd_of_s1 (a := s.acc) h2 h3]
    rfl

end Sys2Proof.Machine
end


section
/-! Claims, monitor counters and notice rings (18_telemetry.md R418 to R436): the commands complete. -/

namespace Sys2Proof.Machine

/-! ### Claims (R418) -/

theorem Dev.claimWrite_of_free {d : Dev} {f : Fld} {h : Head} (hf : d.get f = 63) :
    d.claimWrite (.head h) f (h.zeroExtend 6).toNat = d.set f h.toNat := by
  have hv : (h.zeroExtend 6).toNat = h.toNat := BitVec.toNat_setWidth_of_le (by decide)
  unfold Dev.claimWrite
  dsimp only
  rw [hv, if_pos ⟨hf, rfl⟩]

/-- A claim that another holds stands. -/
theorem Dev.claimWrite_of_held {d : Dev} {f : Fld} {h : Head} (v : Nat) (hf : d.get f ≠ 63) (hh : d.get f ≠ h.toNat) : d.claimWrite (.head h) f v = d := by
  unfold Dev.claimWrite
  dsimp only
  rw [if_neg (fun x => hf x.1), if_neg (fun x => hh x.1)]

/-! ### Counters (R422, R423) -/

/-- Counter k of unit u wraps: it reads 0, and its overflow bit is set. -/
def Dev.wrapped (d : Dev) (u k : Nat) : Dev :=
  ((d.set (fPMU_U_CNT_COUNT u k) (2 ^ 48 - 1)).set (fPMU_U_CNT_COUNT u k) (2 ^ 48 - 1 + 1)).setBit (fPMU_U_CTL_OVF u) k true

theorem rPMU_U_CNT_ne_CTL (u k : Nat) : rPMU_U_CNT u k ≠ rPMU_U_CTL u := by
  unfold rPMU_U_CNT rPMU_U_CTL
  omega

theorem rPMU_U_CNT_ne_EVSEL (u k : Nat) (hk : k < 8) : rPMU_U_EVSEL u k ≠ rPMU_U_CNT u k := by
  unfold rPMU_U_CNT rPMU_U_EVSEL
  omega

theorem rPMU_U_EVSEL_ne_CTL (u k : Nat) : rPMU_U_EVSEL u k ≠ rPMU_U_CTL u := by
  unfold rPMU_U_CTL rPMU_U_EVSEL
  omega

theorem Dev.rd_setBit_of_ne (d : Dev) (f : Fld) (i : Nat) (b : Bool) {r : Nat} (h : r ≠ f.reg) : (d.setBit f i b).rd r = d.rd r := Dev.rd_set_of_ne _ _ _ h

/-- An odd counter whose overflow raises no interrupt wraps alone. -/
theorem Dev.pmuWrap_of_odd {d : Dev} {u k : Nat} (hk : k < 8) (hodd : k % 2 = 1) (hirq : d.flag (fPMU_U_EVSEL_OVF_IRQ u k) = false) :
    d.pmuWrap u k = d.wrapped u k := by
  have hcount : (d.set (fPMU_U_CNT_COUNT u k) (2 ^ 48 - 1)).get (fPMU_U_CNT_COUNT u k) = 2 ^ 48 - 1 := by
    rw [Dev.get_set_self]
    exact Nat.mod_eq_of_lt (show 2 ^ 48 - 1 < 2 ^ 48 by decide)
  have hquiet : (d.wrapped u k).flag (fPMU_U_EVSEL_OVF_IRQ u k) = false := by
    unfold Dev.wrapped
    rw [Dev.flag_setBit_of_ne _ _ _ (rPMU_U_EVSEL_ne_CTL u k), Dev.flag_set_of_ne _ _ (rPMU_U_CNT_ne_EVSEL u k hk),
      Dev.flag_set_of_ne _ _ (rPMU_U_CNT_ne_EVSEL u k hk), hirq]
  unfold Dev.pmuWrap Dev.pmuAdd
  rw [if_neg (fun h => absurd h.1 (by omega))]
  unfold Dev.pmuLast
  dsimp only
  rw [hcount, if_neg (by decide)]
  unfold Dev.wrapped at hquiet ⊢
  rw [hquiet, if_neg Bool.false_ne_true]

theorem Dev.wrapped_fields (d : Dev) {u k : Nat} (hk : k < 8) : (d.wrapped u k).get (fPMU_U_CNT_COUNT u k) = 0 ∧
    (d.wrapped u k).bit (fPMU_U_CTL_OVF u) k = true ∧ ∀ r, r ≠ rPMU_U_CTL u → r ≠ rPMU_U_CNT u k → (d.wrapped u k).rd r = d.rd r := by
  unfold Dev.wrapped
  refine ⟨?_, Dev.bit_setBit_self _ _ _ hk, fun r h1 h2 => ?_⟩
  · rw [Dev.get_setBit_of_ne _ _ _ (rPMU_U_CNT_ne_CTL u k), Dev.get_set_self]
    exact Nat.mod_self (2 ^ 48)
  · rw [Dev.rd_setBit_of_ne _ _ _ _ h1, Dev.rd_set_of_ne _ _ _ h2, Dev.rd_set_of_ne _ _ _ h2]

/-- A counter is copied to its shadow. -/
def Dev.snap (u : Nat) (d : Dev) (k : Nat) : Dev := d.set (fPMU_U_SCNT_COUNT u k) (d.get (fPMU_U_CNT_COUNT u k))

theorem Dev.get_foldl_snap_of_ne (u : Nat) {f : Fld} (l : List Nat) (h : ∀ k ∈ l, f.reg ≠ rPMU_U_SCNT u k) (d : Dev) : (l.foldl (Dev.snap u) d).get f = d.get f := by
  induction l generalizing d with
  | nil => rfl
  | cons k l ih => exact (ih (fun x hx => h x (List.mem_cons_of_mem k hx)) (d.snap u k)).trans (Dev.get_set_of_ne _ _ (h k List.mem_cons_self))

theorem rPMU_U_CNT_ne_SCNT (u : Nat) {j k : Nat} (hj : j < 8) : rPMU_U_CNT u j ≠ rPMU_U_SCNT u k := by
  unfold rPMU_U_CNT rPMU_U_SCNT
  omega

theorem Dev.get_foldl_snap (u : Nat) {k : Nat} (hk8 : k < 8) (l : List Nat) (hk : k ∈ l) (hl : l.Nodup) (d : Dev) :
    (l.foldl (Dev.snap u) d).get (fPMU_U_SCNT_COUNT u k) = d.get (fPMU_U_CNT_COUNT u k) := by
  induction l generalizing d with
  | nil => exact absurd hk List.not_mem_nil
  | cons j l ih =>
    obtain ⟨hj, hl⟩ := List.nodup_cons.1 hl
    by_cases hjk : k = j
    · subst hjk
      have hlater : ∀ x ∈ l, rPMU_U_SCNT u k ≠ rPMU_U_SCNT u x := fun x hx he => by
        unfold rPMU_U_SCNT at he
        exact hj (by rw [show k = x by omega]; exact hx)
      rw [List.foldl_cons, Dev.get_foldl_snap_of_ne u l hlater, Dev.snap, Dev.get_set_self]
      exact Nat.mod_eq_of_lt (d.get_lt (fPMU_U_CNT_COUNT u k))
    · exact (ih ((List.mem_cons.1 hk).resolve_left hjk) hl (d.snap u j)).trans (Dev.get_set_of_ne _ _ (rPMU_U_CNT_ne_SCNT u hk8))

theorem Dev.pmuSnap_fields (d : Dev) (u : Nat) : (d.pmuSnap u).get (fPMU_U_SCYC_COUNT u) = d.get (fPMU_U_CYC_COUNT u) ∧
    ∀ k < 8, (d.pmuSnap u).get (fPMU_U_SCNT_COUNT u k) = d.get (fPMU_U_CNT_COUNT u k) ∧
      (d.pmuSnap u).get (fPMU_U_CNT_COUNT u k) = d.get (fPMU_U_CNT_COUNT u k) := by
  have hsnap : d.pmuSnap u = (List.range 8).foldl (Dev.snap u) (d.set (fPMU_U_SCYC_COUNT u) (d.get (fPMU_U_CYC_COUNT u))) := rfl
  have hcnt : ∀ k < 8, (d.set (fPMU_U_SCYC_COUNT u) (d.get (fPMU_U_CYC_COUNT u))).get (fPMU_U_CNT_COUNT u k) = d.get (fPMU_U_CNT_COUNT u k) := fun k hk =>
    Dev.get_set_of_ne _ _ (by simp only [fPMU_U_CNT_COUNT, fPMU_U_SCYC_COUNT, rPMU_U_CNT, rPMU_U_SCYC]; omega)
  rw [hsnap]
  refine ⟨?_, fun k hk => ⟨?_, ?_⟩⟩
  · rw [Dev.get_foldl_snap_of_ne u (f := fPMU_U_SCYC_COUNT u) _ (fun k _ => by simp only [fPMU_U_SCYC_COUNT, rPMU_U_SCYC, rPMU_U_SCNT]; omega), Dev.get_set_self]
    exact Nat.mod_eq_of_lt (d.get_lt (fPMU_U_CYC_COUNT u))
  · rw [Dev.get_foldl_snap u hk _ (List.mem_range.2 hk) List.nodup_range, hcnt k hk]
  · rw [Dev.get_foldl_snap_of_ne u (f := fPMU_U_CNT_COUNT u k) _ (fun x _ => rPMU_U_CNT_ne_SCNT u hk), hcnt k hk]

/-! ### Notice rings (R434, R436) -/

theorem Dev.ringPop_of_words {d : Dev} {w : Writer} {n : Nat} (hh : d.get (fRING_CLAIM_HOLDER n) = holderOf w) (hx : d.flag (fRING_CTL_XEN n) = false)
    (ho : d.ringOcc n ≠ 0) : d.ringPop w n = ((d.bump (fRING_PTR_RD n) 1).ringFreed n).emit (.csrValue (holderOf w) (d.ringWord n)) := by
  unfold Dev.ringPop
  rw [if_pos (by rw [Dev.mayPop, hh, hx, beq_self_eq_true, bne_iff_ne.2 ho]; rfl)]

theorem Dev.ringPop_of_idle {d : Dev} {w : Writer} {n : Nat} (h : d.get (fRING_CLAIM_HOLDER n) ≠ holderOf w ∨ d.ringOcc n = 0) :
    d.ringPop w n = d.emit (.csrValue (holderOf w) idleWord) := by
  have hno : ¬ d.mayPop w n = true := by
    unfold Dev.mayPop
    obtain h | h := h
    · rw [beq_false_of_ne h]
      exact Bool.false_ne_true
    · rw [h, bne_self_eq_false, Bool.and_false]
      exact Bool.false_ne_true
  unfold Dev.ringPop
  exact if_neg hno

theorem Dev.rdWrite_of_holder {d : Dev} {w : Writer} {n rd : Nat} (hx : d.flag (fRING_CTL_XEN n) = false) (hh : d.get (fRING_CLAIM_HOLDER n) = holderOf w) :
    d.rdWrite w n rd = if d.rdOk n rd then (d.set (fRING_PTR_RD n) rd).ringFreed n else d.setFlag (fRING_STS_RDERR n) true := by
  unfold Dev.rdWrite
  rw [if_neg (by rw [hx, hh, bne_self_eq_false, Bool.and_false]; exact Bool.false_ne_true)]

/-- RING_n_CTL with XEN 0. -/
def Dev.ringOff (d : Dev) (n v : Nat) : Dev :=
  (((d.set (fRING_CTL_CUT n) (v / 2)).set (fRING_CTL_LEVEL n) (v / 2 ^ 8)).set (fRING_CTL_VEC n) (v / 2 ^ 22)).setFlag (fRING_CTL_XEN n) false

theorem Dev.ringCtl_of_off {d : Dev} {n v : Nat} (h : v % 2 = 0) : d.ringCtl n v = d.ringOff n v := by
  unfold Dev.ringCtl
  dsimp only
  rw [h, show ((0 : Nat) == 1) = false from rfl, Bool.and_false, Bool.false_and, if_neg Bool.false_ne_true]
  rfl

theorem Dev.ringOff_fields (d : Dev) (n v : Nat) : (d.ringOff n v).flag (fRING_CTL_XEN n) = false ∧ (d.ringOff n v).get (fRING_CTL_CUT n) = v / 2 % 128 ∧
    (d.ringOff n v).get (fRING_CTL_LEVEL n) = v / 256 % 16384 ∧ (d.ringOff n v).get (fRING_CTL_VEC n) = v / 2 ^ 22 % 64 ∧
    ∀ k, k ≠ rRING_CTL n → (d.ringOff n v).rd k = d.rd k := by
  have hoff : ∀ (e : Dev) {f : Fld}, 1 ≤ f.lo → (e.setFlag (fRING_CTL_XEN n) false).get f = e.get f := fun e f hf => Dev.get_setFlag_of_disjoint e false (.inr hf)
  unfold Dev.ringOff
  refine ⟨Dev.flag_setFlag_self _ _ _ rfl, ?_, ?_, ?_, fun k hk => ?_⟩
  · rw [hoff _ (Nat.le_refl 1), Dev.get_set_of_disjoint _ _ (.inl (by simp [fRING_CTL_CUT, fRING_CTL_VEC])),
      Dev.get_set_of_disjoint _ _ (.inl (by simp [fRING_CTL_CUT, fRING_CTL_LEVEL])), Dev.get_set_self]
    rfl
  · rw [hoff _ (show 1 ≤ 8 by decide), Dev.get_set_of_disjoint _ _ (.inl (by simp [fRING_CTL_LEVEL, fRING_CTL_VEC])), Dev.get_set_self]
    rfl
  · rw [hoff _ (show 1 ≤ 22 by decide), Dev.get_set_self]
    rfl
  · rw [Dev.setFlag, Dev.rd_set_of_ne _ _ _ hk, Dev.rd_set_of_ne _ _ _ hk, Dev.rd_set_of_ne _ _ _ hk, Dev.rd_set_of_ne _ _ _ hk]

/-- Settles O38: a write that is allowed acts as its register's rule says, and a ring gives its words to its holder. -/
theorem telemetryCommandsComplete : Obligations.TelemetryCommandsComplete := by
  unfold Obligations.TelemetryCommandsComplete
  refine ⟨fun s h u ha hf => ?_, fun s h u v ha hf hh => ?_, fun s n v ha => ?_,
    fun s u k hu hodd hirq => ⟨s.dev.wrapped u.val k.toNat, ?_, s.dev.wrapped_fields k.isLt⟩, fun s w u ha => ?_, fun d u => d.pmuSnap_fields u, fun s w ha => ?_,
    fun s w n hu hh hx ho => ?_, fun s w n hu h => ?_, fun s w n rd ha hx hh => ?_,
    fun s w n ctl ha h0 => ⟨s.dev.ringOff n.toNat ctl.toNat, ?_, s.dev.ringOff_fields _ _⟩, fun s n hx => ?_⟩
  · change execPmuClaimWrite (.head h) u (h.zeroExtend 6) s = _
    unfold execPmuClaimWrite
    rw [run_eq, Dev.writeBy_allowed _ _ _ _ ha, Dev.claimWrite_of_free hf]
  · change execPmuClaimWrite (.head h) u v s = _
    unfold execPmuClaimWrite
    rw [run_eq, Dev.writeBy_allowed _ _ _ _ ha, Dev.claimWrite_of_held _ hf hh]
  · change execRingClaimWrite .firmware n v s = _
    unfold execRingClaimWrite
    rw [run_eq, Dev.writeBy_allowed _ _ _ _ ha]
    rfl
  · change execCounterOverflow u k s = _
    unfold execCounterOverflow
    rw [run_when_of_true hu, Dev.pmuWrap_of_odd k.isLt hodd hirq]
  · change execPmuUnitSnap w u s = _
    unfold execPmuUnitSnap
    rw [run_eq, Dev.writeBy_allowed _ _ _ _ ha]
  · change execPmuGlobalSnap w s = _
    unfold execPmuGlobalSnap
    rw [run_eq, Dev.writeBy_allowed _ _ _ _ ha]
  · change execRingPop w n s = _
    unfold execRingPop
    rw [run_when_of_true (by rw [hu]; rfl), Dev.ringPop_of_words hh hx ho]
  · change execRingPop w n s = _
    unfold execRingPop
    rw [run_when_of_true (by rw [hu]; rfl), Dev.ringPop_of_idle h, idleWord]
  · change execRingRdWrite w n rd s = _
    unfold execRingRdWrite
    rw [run_eq, Dev.writeBy_allowed _ _ _ _ ha, Dev.rdWrite_of_holder hx hh]
  · have heven : ctl.toNat % 2 = 0 := by
      rw [BitVec.getLsbD, Nat.testBit_zero] at h0
      simpa using h0
    change execRingExportEnable w n ctl s = _
    unfold execRingExportEnable
    rw [run_eq, Dev.writeBy_allowed _ _ _ _ ha, Dev.ringCtl_of_off heven]
  · change execRingExport n s = _
    exact runAcc_when_of_true hx

end Sys2Proof.Machine
end


section
/-! Ports and decoders (02_host_links.md R31 to R62, 04_coherence.md R92, R108): the commands complete. -/

namespace Sys2Proof.Machine

/-! ### Configuration accesses (R39) -/

section
variable {s : State} {p : Head} (hup : (s.dev.portOf p.toNat).up = true)
include hup

theorem exec_configurationRequest_of_up (w : Bool) (x : CfgTarget) (v : BitVec 32) :
    exec (.configurationRequest p w x v) s = .next (s.after (s.dev.cfgAccess p.toNat w x v.toNat)) := by
  change execConfigurationRequest p w x v s = _
  exact run_when_of_true hup

/-- Before the boot has completed every access is put off. -/
theorem exec_configurationRequest_of_booting (hb : s.dev.booted = false) (w : Bool) (x : CfgTarget) (v : BitVec 32) :
    exec (.configurationRequest p w x v) s = .next (s.after ((s.dev.outOfL1 p.toNat).emit (.cfgCrs p.toNat))) := by
  rw [exec_configurationRequest_of_up hup, Dev.cfgAccess, hb]
  rfl

theorem exec_configurationRequest_read (hb : s.dev.booted = true) (x : CfgTarget) (v : BitVec 32) :
    exec (.configurationRequest p false x v) s = .next (s.after ((s.dev.outOfL1 p.toNat).cfgRead p.toNat x)) := by
  rw [exec_configurationRequest_of_up hup, Dev.cfgAccess, hb]
  rfl

theorem exec_configurationRequest_write (hb : s.dev.booted = true) (x : CfgTarget) (v : BitVec 32) :
    exec (.configurationRequest p true x v) s =
      .next (s.after (((s.dev.outOfL1 p.toNat).cfgWrite p.toNat x v.toNat).emit (.cfgValue p.toNat 0))) := by
  rw [exec_configurationRequest_of_up hup, Dev.cfgAccess, hb]
  rfl

end

theorem Dev.dvsecRead_of_reg {d : Dev} {p off : Nat} {a : RegAt} (h : regAt (0x8000000 + p * 0x1000 + off) = some a) :
    d.dvsecRead p off = d.emit (.cfgValue p (d.rd a.key)) := by
  unfold Dev.dvsecRead
  rw [h]

theorem Dev.cfgWrite_dvsec_of_reg {d : Dev} {p : Nat} {off : BitVec 12} {a : RegAt} (v : Nat) (h : regAt (0x8000000 + p * 0x1000 + off.toNat) = some a) :
    d.cfgWrite p (.dvsec off) v = d.regWrite a v 0xffffffff := by
  unfold Dev.cfgWrite
  dsimp only
  rw [h]

theorem Dev.l1Read_of_s2 {d : Dev} {p : Nat} (h : 2 ≤ d.get fPWR_LIMITS_DEEPEST) : d.l1Read p = d.emit (.cfgValue p 6) := by
  unfold Dev.l1Read
  exact if_pos h

/-! ### The settings of a head (R62) -/

theorem Dev.restoreHead_fields (d : Dev) (p : Nat) : ((d.restoreHead p).portOf p).restored = true ∧
    (d.restoreHead p).flag (fPDV_PORT_STS_IDE_REQUIRED p) = (d.flash.cfg.link.getD (8 + p) 0).testBit 4 ∧
    ∀ n < 32, (d.restoreHead p).get (fPDV_ALIAS_MAP_CLASSMAP p n) = wordField (tget resetWord d.flash.cfg.regs (rPDV_ALIAS_MAP p 0)) 0 24 := by
  obtain ⟨m, hm⟩ : ∃ m, m = wordField (tget resetWord d.flash.cfg.regs (rPDV_ALIAS_MAP p 0)) 0 24 := ⟨_, rfl⟩
  have hlt : m < 2 ^ 24 := by
    rw [hm]
    exact Nat.mod_lt _ (Nat.two_pow_pos 24)
  have hflash : ((List.range 32).foldl (fun d n => d.set (fPDV_ALIAS_MAP_CLASSMAP p n) m) d).flash = d.flash :=
    foldl_keeps Dev.flash (g := fun d n => d.set (fPDV_ALIAS_MAP_CLASSMAP p n) m) (fun _ _ => rfl) _ _
  have hmap : ∀ n < 32, ((List.range 32).foldl (fun d n => d.set (fPDV_ALIAS_MAP_CLASSMAP p n) m) d).get (fPDV_ALIAS_MAP_CLASSMAP p n) = m := fun n hn =>
    Dev.get_foldl_set d (fPDV_ALIAS_MAP_CLASSMAP p) (List.range 32) (List.mem_range.2 hn)
      (fun k hk => .inl (by simp only [fPDV_ALIAS_MAP_CLASSMAP, rPDV_ALIAS_MAP]; omega)) hlt
  unfold Dev.restoreHead
  dsimp only
  rw [← hm]
  refine ⟨?_, ?_, fun n hn => ?_⟩
  · rw [Dev.portOf_updPort]
  · rw [Dev.flag_congr (Dev.updPort_csr _ _ _), Dev.flag_setFlag_self _ _ _ rfl, hflash]
  · have hreg : rPDV_ALIAS_MAP p n ≠ rPDV_PORT_STS p := by
      unfold rPDV_ALIAS_MAP rPDV_PORT_STS
      omega
    rw [Dev.get_congr (Dev.updPort_csr _ _ _), Dev.setFlag, Dev.get_set_of_ne _ _ hreg, hmap n hn]

/-- Settles O3: a command of a port that is up acts as its section says. -/
theorem portCommandsComplete : Obligations.PortCommandsComplete := by
  unfold Obligations.PortCommandsComplete
  refine ⟨fun s p w x v hup hb => exec_configurationRequest_of_booting hup hb w x v,
    fun s p off v a hup hb ha => ⟨?_, ?_⟩,
    fun s p x n v hup hb => ⟨exec_configurationRequest_read hup hb _ v, exec_configurationRequest_read hup hb _ v, exec_configurationRequest_read hup hb _ v⟩,
    fun s p on hup => ?_, fun s p hf hp => ⟨s.dev.restoreHead p.toNat, ?_, s.dev.restoreHead_fields p.toNat⟩, fun s p perst hf hp => ?_,
    fun s p hf => ?_, fun s p v hup hb h2 => ?_⟩
  · rw [exec_configurationRequest_read hup hb, Dev.cfgRead, Dev.dvsecRead_of_reg ha]
  · rw [exec_configurationRequest_write hup hb, Dev.cfgWrite_dvsec_of_reg _ ha]
  · change execMemEnable p on s = _
    exact runAcc_when_of_true hup
  · have hd : s.acc.upd (fun _ => s.dev.restoreHead p.toNat) = s.acc.upd (fun d => d.restoreHead p.toNat) :=
      s.acc.upd_const (fun d => d.restoreHead p.toNat)
    rw [hd]
    change execHeadRestored p s = _
    exact runAcc_when_of_true (by rw [show s.acc.dev = s.dev from rfl, hf, hp]; rfl)
  · have hdown : ((s.acc.dev.formed p.toNat).isSome && (if perst then !(s.acc.dev.portOf p.toNat).perst else (s.acc.dev.portOf p.toNat).up)) = true := by
      rw [show s.acc.dev = s.dev from rfl, hf, hp]
      rfl
    change execHeadReset p perst s = _
    unfold execHeadReset
    rw [runAcc_eq]
    dsimp only
    rw [hdown, Acc.when_of_true _ _ _ rfl]
  · change execHeadPerstDeassert p s = _
    exact run_when_of_true hf
  · rw [exec_configurationRequest_read hup hb, Dev.cfgRead, Dev.l1Read_of_s2 h2]

/-! ### Decoders (R43 to R45, R92) -/

/-- A port whose decoder n has the image c. -/
def Dev.decoderIn (d : Dev) (p n : Nat) (c : Decoder) : Dev :=
  (((d.setFlag (fPDV_ALIAS_CTL_ERR p n) false).set (fPDV_ALIAS_MAP_ALIAS_N p n) ((d.setFlag (fPDV_ALIAS_CTL_ERR p n) false).aliasCount c))).updPort p
    (fun s => { s with decoders := tins s.decoders n c, decErr := s.decErr - (s.decErr &&& 2 ^ n) })

theorem Dev.commitDecoder_of_good {d : Dev} {p n : Nat} {g : DecoderImage} (hfree : tfind (d.decs p) n = none)
    (hok : d.aliasOk p n (d.decoderOf p n g) = true) (hgood : (d.setFlag (fPDV_ALIAS_CTL_ERR p n) false).commitBad p n (d.decoderOf p n g) = false)
    (hsize : (d.decoderOf p n g).size ≠ 0) : d.commitDecoder p n g = d.decoderIn p n (d.decoderOf p n g) := by
  unfold Dev.commitDecoder
  rw [if_neg (by rw [hfree]; exact Bool.false_ne_true)]
  dsimp only
  rw [hok, Bool.not_true, hgood, if_neg hsize]
  rfl

theorem rPDV_ALIAS_CTL_ne_MAP (p n : Nat) : rPDV_ALIAS_CTL p n ≠ rPDV_ALIAS_MAP p n := by
  unfold rPDV_ALIAS_CTL rPDV_ALIAS_MAP
  omega

theorem Dev.decoderIn_fields (d : Dev) (p n : Nat) (c : Decoder) : tfind ((d.decoderIn p n c).portOf p).decoders n = some c ∧
    (d.decoderIn p n c).flag (fPDV_ALIAS_CTL_ERR p n) = false ∧ ((d.decoderIn p n c).portOf p).decErr.testBit n = false := by
  unfold Dev.decoderIn
  refine ⟨?_, ?_, ?_⟩
  · rw [Dev.portOf_updPort]
    exact tfind_tins_self _ _ _
  · rw [Dev.flag_congr (Dev.updPort_csr _ _ _), Dev.flag_set_of_ne _ _ (rPDV_ALIAS_CTL_ne_MAP p n), Dev.flag_setFlag_self _ _ _ rfl]
  · rw [Dev.portOf_updPort]
    exact testBit_sub_and_two_pow _ _

theorem exec_decoderCommit_of_up {s : State} {p : Head} (n : BitVec 5) (g : DecoderImage) (hup : (s.dev.portOf p.toNat).up = true)
    (hc : s.dev.cfgOnly p.toNat = false) : exec (.decoderCommit p n g) s = .next (s.after (s.dev.commitDecoder p.toNat n.toNat g)) := by
  rw [exec_decoderCommit_eq, Dev.when_of_true _ _ _ (by rw [hup, hc]; rfl)]

/-- R45: a decoder that breaks the rules of class aliases shows it. -/
theorem Dev.flag_commitDecoder_of_alias {d : Dev} {p n : Nat} {g : DecoderImage} (hfree : tfind (d.decs p) n = none)
    (hbad : d.aliasOk p n (d.decoderOf p n g) = false) : (d.commitDecoder p n g).flag (fPDV_ALIAS_CTL_ERR p n) = true := by
  unfold Dev.commitDecoder
  rw [if_neg (by rw [hfree]; exact Bool.false_ne_true)]
  dsimp only
  rw [hbad, Bool.false_and, if_neg Bool.false_ne_true, Dev.flag_congr (Dev.updPort_csr _ _ _), Dev.flag_setFlag_self _ _ _ rfl]
  rfl

theorem Acc.uncommit_of_free {a : Acc} {p n : Nat} {c : Decoder} (hc : tfind (a.dev.decs p) n = some c) (hl : c.lock = false)
    (hheld : ∀ w ∈ a.dev.decWins c, a.dev.winShared w = true → a.dev.get (fHOME_HELD_COUNT p w) = 0) :
    a.uncommit p n = a.upd (fun d => (d.updPort p (fun s => { s with decoders := tdel s.decoders n })).set (fPDV_ALIAS_MAP_ALIAS_N p n) 0) := by
  have hnone : (a.dev.decWins c).filter (fun w => a.dev.winShared w && a.dev.get (fHOME_HELD_COUNT p w) != 0) = [] := by
    refine List.filter_eq_nil_iff.2 (fun w hw hall => ?_)
    obtain ⟨hs, hn⟩ := Bool.and_eq_true_iff.1 hall
    exact bne_iff_ne.1 hn (hheld w hw hs)
  unfold Acc.uncommit
  rw [hc]
  dsimp only
  rw [hl, if_neg Bool.false_ne_true, hnone]
  rfl

/-- Settles O4: a commit passes or fails its checks, an uncommit finds no held line, and a sweep's step sees what the visits left. -/
theorem decoderCommandsComplete : Obligations.DecoderCommandsComplete := by
  unfold Obligations.DecoderCommandsComplete
  refine ⟨fun s p n g hup hc hfree hok hgood hsize =>
      ⟨s.dev.decoderIn p.toNat n.toNat (s.dev.decoderOf p.toNat n.toNat g), ?_, s.dev.decoderIn_fields _ _ _⟩,
    fun s p n g hup hc hfree hbad => ⟨_, exec_decoderCommit_of_up n g hup hc, Dev.flag_commitDecoder_of_alias hfree hbad, ?_⟩,
    fun s p n c hup hcfg hc hl hheld => ?_, fun s sw rest lines a hsw hlines ha => ⟨fun hgood => ?_, fun hbad => ?_⟩⟩
  · have hne : (s.dev.decoderOf p.toNat n.toNat g).size ≠ 0 := by
      have hpos : 0 < g.size.toNat := BitVec.lt_def.1 hsize
      exact Nat.ne_of_gt (Nat.mul_pos hpos (Nat.two_pow_pos 28))
    rw [exec_decoderCommit_of_up n g hup hc, Dev.commitDecoder_of_good hfree hok hgood hne]
  · rw [Dev.portOf_commitDecoder_of_refused hfree (fun h => absurd h (by rw [hbad]; exact Bool.false_ne_true))]
    exact ⟨testBit_or_two_pow _ _, rfl⟩
  · change execDecoderUncommit p n s = _
    unfold execDecoderUncommit
    rw [runAcc_when_of_true (by rw [show s.acc.dev = s.dev from rfl, hup, hcfg]; rfl), Acc.uncommit_of_free (a := s.acc) hc hl hheld]
  · change runAcc Acc.sweepStep s = _
    rw [runAcc_eq, Acc.sweepStep, show s.acc.dev.home.sweeps = sw :: rest from hsw]
    dsimp only
    rw [show (List.range 8).map (s.acc.dev.winBase (sw.wins.headD 0) / 64 + sw.cur + ·) = lines from hlines.symm, ← ha, hgood, if_neg Bool.false_ne_true]
  · change runAcc Acc.sweepStep s = _
    rw [runAcc_eq, Acc.sweepStep, show s.acc.dev.home.sweeps = sw :: rest from hsw]
    dsimp only
    rw [show (List.range 8).map (s.acc.dev.winBase (sw.wins.headD 0) / 64 + sw.cur + ·) = lines from hlines.symm, ← ha, hbad, if_pos rfl]

end Sys2Proof.Machine
end


section
/-! Links (02_host_links.md R34 to R59): the commands complete. -/

namespace Sys2Proof.Machine

theorem Acc.upd_congr {a : Acc} {f g : Dev → Dev} (h : f a.dev = g a.dev) : a.upd f = a.upd g := by
  unfold Acc.upd
  rw [h]

/-! ### Training (R34, R35) -/

theorem Dev.newCdat_csr (d : Dev) (p : Nat) : (d.newCdat p).csr = d.csr := rfl

theorem Dev.exists_newCdat_port (d : Dev) (p : Nat) : ∃ c, (d.newCdat p).portOf p = { d.portOf p with cdat := c } := 
  ⟨d.cdatOf p, d.portOf_updPort p (fun s => { s with cdat := d.cdatOf p })⟩

/-- What a training writes of PORT_STS, in order. -/
def trainFields (p width rate flit formed : Nat) : List (Fld × Nat) :=
  [(fPDV_PORT_STS_WIDTH p, width), (fPDV_PORT_STS_RATE p, rate), (fPDV_PORT_STS_FLIT p, flit), (fPDV_PORT_STS_FORMED p, formed)]

/-- The link of port p is in L0 and carries CXL.mem. -/
def Dev.trainedLink (d : Dev) (p formed : Nat) (t : LinkTrain) : Dev :=
  let rate := min (d.portOf p).adv t.rate.toNat
  ((d.sets (trainFields p (min t.width (formedLanes formed)) rate (flitOf rate t.hostFlit t.hostLo) formed)).updPort p
    (fun s => { s with up := true, cxl := true, inL1 := false, eqFails := 0, compat := 0 })).newCdat p

theorem Acc.linkTrained_of_cxl {a : Acc} {p formed : Nat} {t : LinkTrain} (hc : t.cxl = true) (hr : 2 ≤ min (a.dev.portOf p).adv t.rate.toNat) :
    a.linkTrained p formed t = (a.upd (fun _ => a.dev.trainedLink p formed t)).releaseRx p := by
  have hcxl : (t.cxl && decide (2 ≤ min (a.dev.portOf p).adv t.rate.toNat)) = true := by
    rw [hc, decide_eq_true hr]
    rfl
  unfold Acc.linkTrained
  dsimp only
  refine congrArg (fun b => Acc.releaseRx b p) (Acc.upd_congr ?_)
  rw [hcxl, if_pos rfl]
  rfl

theorem flitOf_lt (rate : Nat) (b c : Bool) : flitOf rate b c < 4 := by
  unfold flitOf
  split
  · split <;> decide
  · split <;> decide

theorem Dev.trainedLink_csr (d : Dev) (p formed : Nat) (t : LinkTrain) : (d.trainedLink p formed t).csr =
    (d.sets (trainFields p (min t.width (formedLanes formed)) (min (d.portOf p).adv t.rate.toNat)
      (flitOf (min (d.portOf p).adv t.rate.toNat) t.hostFlit t.hostLo) formed)).csr := Dev.newCdat_csr _ _

theorem Dev.trainedLink_fields (d : Dev) (p formed : Nat) (t : LinkTrain) : ((d.trainedLink p formed t).portOf p).up = true ∧
    ((d.trainedLink p formed t).portOf p).cxl = true ∧
    (d.trainedLink p formed t).get (fPDV_PORT_STS_WIDTH p) = min t.width (formedLanes formed) % 32 ∧
    (d.trainedLink p formed t).get (fPDV_PORT_STS_RATE p) = min (d.portOf p).adv t.rate.toNat % 8 ∧
    (d.trainedLink p formed t).get (fPDV_PORT_STS_FLIT p) = flitOf (min (d.portOf p).adv t.rate.toNat) t.hostFlit t.hostLo := by
  refine ⟨?_, ?_, ?_, ?_, ?_⟩
  · obtain ⟨c, hc⟩ := Dev.exists_newCdat_port ((d.sets (trainFields p (min t.width (formedLanes formed)) (min (d.portOf p).adv t.rate.toNat)
      (flitOf (min (d.portOf p).adv t.rate.toNat) t.hostFlit t.hostLo) formed)).updPort p
      (fun s => { s with up := true, cxl := true, inL1 := false, eqFails := 0, compat := 0 })) p
    rw [Dev.trainedLink, hc, Dev.portOf_updPort]
  · obtain ⟨c, hc⟩ := Dev.exists_newCdat_port ((d.sets (trainFields p (min t.width (formedLanes formed)) (min (d.portOf p).adv t.rate.toNat)
      (flitOf (min (d.portOf p).adv t.rate.toNat) t.hostFlit t.hostLo) formed)).updPort p
      (fun s => { s with up := true, cxl := true, inL1 := false, eqFails := 0, compat := 0 })) p
    rw [Dev.trainedLink, hc, Dev.portOf_updPort]
  · rw [Dev.get_congr (d.trainedLink_csr p formed t)]
    exact Dev.get_sets d _ 0 rfl (by simp [trainFields, Fld.Apart, fPDV_PORT_STS_WIDTH, fPDV_PORT_STS_RATE, fPDV_PORT_STS_FLIT, fPDV_PORT_STS_FORMED])
  · rw [Dev.get_congr (d.trainedLink_csr p formed t)]
    exact Dev.get_sets d _ 1 rfl (by simp [trainFields, Fld.Apart, fPDV_PORT_STS_RATE, fPDV_PORT_STS_FLIT, fPDV_PORT_STS_FORMED])
  · rw [Dev.get_congr (d.trainedLink_csr p formed t)]
    exact (Dev.get_sets d _ 2 rfl (by simp [trainFields, Fld.Apart, fPDV_PORT_STS_FLIT, fPDV_PORT_STS_FORMED])).trans (Nat.mod_eq_of_lt (flitOf_lt _ _ _))

theorem exec_linkUp_of_ready {s : State} {p : Head} {t : LinkTrain} {f : Nat} (hf : s.dev.formed p.toNat = some f) (hp : (s.dev.portOf p.toNat).perst = false)
    (hu : (s.dev.portOf p.toNat).up = false) (hl : s.dev.lnkOn p.toNat = true) (hw : 1 ≤ t.width) :
    exec (.linkUp p t) s = .next (s.afterAcc (s.acc.linkTrained p.toNat f t)) := by
  have hready : (!(s.acc.dev.portOf p.toNat).perst && !(s.acc.dev.portOf p.toNat).up && s.acc.dev.lnkOn p.toNat && decide (1 ≤ t.width)) = true := by
    rw [show s.acc.dev = s.dev from rfl, hp, hu, hl, decide_eq_true hw]
    rfl
  change execLinkUp p t s = _
  unfold execLinkUp
  rw [runAcc_eq]
  dsimp only
  rw [show s.acc.dev.formed p.toNat = some f from hf]
  dsimp only
  rw [hready, Acc.when_of_true _ _ _ rfl]

theorem Dev.eqFail_of_high {d : Dev} {p : Nat} (hu : (d.portOf p).up = false) (ha : 5 ≤ (d.portOf p).adv) :
    d.eqFail p = if (d.portOf p).eqFails = 0 then d.updPort p (fun x => { x with eqFails := 1 })
      else (d.updPort p (fun x => { x with eqFails := 0, adv := x.adv - 1 })).bumpSat (fPDV_LNK_ERR_RATE_DROPS p) 1 := by
  unfold Dev.eqFail
  dsimp only
  rw [hu, Bool.false_or, if_neg (fun h => Nat.not_lt.2 ha (of_decide_eq_true h))]

/-! ### MAC failures (R56) -/

/-- The head's CXL.mem stream is insecure, and its service stops. -/
def Dev.macStopped (d : Dev) (p : Nat) : Dev :=
  (((d.set (fPDV_PORT_STS_IDE_MEM p) 2).setFlag (fPDV_LNK_ERR_IDE_FAIL p) true).updPort p
    (fun s => { s with macStop := true, epoch := [], ide := tdel s.ide 3 })).setFlag (fPDV_PORT_STS_MEM_READY p) false

theorem Dev.memReady_of_macStop {d : Dev} {p : Nat} (h : (d.portOf p).macStop = true) : d.memReady p = false := by
  unfold Dev.memReady
  dsimp only
  rw [h, Bool.not_true, Bool.and_false, Bool.false_and, Bool.false_and]

theorem Dev.macFail_eq (d : Dev) (p : Nat) : d.macFail p = (d.macStopped p).raise { src := srcPort p 1, sev := 3, code := 56, obj := p, head := some p } := by
  have hready : (((d.set (fPDV_PORT_STS_IDE_MEM p) 2).setFlag (fPDV_LNK_ERR_IDE_FAIL p) true).updPort p
      (fun s => { s with macStop := true, epoch := [], ide := tdel s.ide 3 })).memReady p = false :=
    Dev.memReady_of_macStop (by rw [Dev.portOf_updPort])
  unfold Dev.macFail
  dsimp only
  rw [hready]
  rfl

theorem Dev.macStopped_fields (d : Dev) (p : Nat) : (d.macStopped p).get (fPDV_PORT_STS_IDE_MEM p) = 2 ∧
    (d.macStopped p).flag (fPDV_LNK_ERR_IDE_FAIL p) = true ∧ ((d.macStopped p).portOf p).macStop = true ∧ ((d.macStopped p).portOf p).epoch = [] ∧
    (d.macStopped p).flag (fPDV_PORT_STS_MEM_READY p) = false := by
  have hreg : rPDV_PORT_STS p ≠ rPDV_LNK_ERR p := by
    unfold rPDV_PORT_STS rPDV_LNK_ERR
    omega
  have hport : ∀ (e : Dev) (f : PortS → PortS) (g : Fld) (b : Bool), ((e.updPort p f).setFlag g b).portOf p = f (e.portOf p) := fun e f _ _ => e.portOf_updPort p f
  unfold Dev.macStopped
  refine ⟨?_, ?_, ?_, ?_, Dev.flag_setFlag_self _ _ _ rfl⟩
  · rw [Dev.get_setFlag_of_disjoint _ _ (.inr (by simp [fPDV_PORT_STS_IDE_MEM, fPDV_PORT_STS_MEM_READY])), Dev.get_congr (Dev.updPort_csr _ _ _), Dev.setFlag,
      Dev.get_set_of_ne _ _ hreg, Dev.get_set_self]
    rfl
  · rw [Dev.setFlag, Dev.flag_set_of_ne _ _ hreg.symm, Dev.flag_congr (Dev.updPort_csr _ _ _), Dev.flag_setFlag_self _ _ _ rfl]
  · rw [hport]
  · rw [hport]

/-! ### IDE_KM (R53, R355) -/

theorem exec_ideKm_of_up {s : State} {p : Head} (hup : (s.dev.portOf p.toNat).up = true) (n : Nat) (k : IdeStream) (r : IdeKmReq) :
    exec (.ideKm p n ⟨k, r⟩) s = .next (s.afterAcc ((s.acc.upd (fun d => d.ideKey p.toNat n k r)).releaseRx p.toNat)) := by
  change execIdeKm p n ⟨k, r⟩ s = _
  exact runAcc_when_of_true hup

theorem Dev.ideKey_of_open {d : Dev} {n : Nat} (h : d.secured n = false) (p : Nat) (k : IdeStream) (r : IdeKmReq) : d.ideKey p n k r = d.emit (.ideKm p 1) := by
  unfold Dev.ideKey
  rw [h, Bool.not_false, Bool.true_or, if_pos rfl]

/-- Stream k of port p becomes x. -/
def Dev.keyed (d : Dev) (p : Nat) (k : IdeStream) (x : IdeS) : Dev := d.updPort p (fun s => { s with ide := tins s.ide (ideIdx k) x })

theorem Dev.ideKey_of_secured {d : Dev} {p n : Nat} {k : IdeStream} {r : IdeKmReq} {x : IdeS} (hs : d.secured n = true) (hh : d.halted = false)
    (hx : ((d.portOf p).stream k).after r = some x) :
    d.ideKey p n k r = (if k = .mem then (d.keyed p k x).ideMem p else d.keyed p k x).emit (.ideKm p 0) := by
  unfold Dev.ideKey
  rw [hs, hh, Bool.not_true, Bool.false_or, if_neg Bool.false_ne_true, hx]
  rfl

theorem Dev.keyed_port (d : Dev) (p : Nat) (k : IdeStream) (x : IdeS) : (d.keyed p k x).portOf p = { d.portOf p with ide := tins (d.portOf p).ide (ideIdx k) x } :=
  d.portOf_updPort p _

theorem Dev.stream_keyed (d : Dev) (p : Nat) (k : IdeStream) (x : IdeS) : ((d.keyed p k x).portOf p).stream k = x := by
  rw [Dev.keyed_port, PortS.stream, tfind_tins_self]
  rfl

theorem Dev.ideStopped_csr (d : Dev) (p : Nat) : (d.ideStopped p).csr = (d.set (fPDV_PORT_STS_IDE_MEM p) 0).csr := by
  unfold Dev.ideStopped
  dsimp only
  split <;> rfl

theorem Dev.ideStopped_ide (d : Dev) (p : Nat) : ((d.ideStopped p).portOf p).ide = (d.portOf p).ide := by
  unfold Dev.ideStopped
  dsimp only
  split
  · rw [Dev.portOf_set]
  · rw [Dev.portOf_set, Dev.portOf_updPort]

/-- The CXL.mem stream of a port without a MAC failure is Secure while both directions run. -/
theorem Dev.ideMem_fields {d : Dev} {p : Nat} {x : IdeS} (hm : (d.portOf p).macStop = false) (hx : (d.portOf p).stream .mem = x) :
    (d.ideMem p).get (fPDV_PORT_STS_IDE_MEM p) = (x.tx && x.rx).toNat ∧ ((d.ideMem p).portOf p).stream .mem = x := by
  unfold Dev.ideMem
  dsimp only
  rw [hm, if_neg Bool.false_ne_true, hx]
  cases hsec : x.tx && x.rx with
  | true =>
    rw [if_pos rfl, Bool.true_and]
    have hset : (d.set (fPDV_PORT_STS_IDE_MEM p) 1).get (fPDV_PORT_STS_IDE_MEM p) = true.toNat := by
      rw [Dev.get_set_self]
      rfl
    have hport : ((d.set (fPDV_PORT_STS_IDE_MEM p) 1).portOf p).stream .mem = x := by
      rw [Dev.portOf_set, hx]
    split
    · refine ⟨?_, ?_⟩
      · rw [Dev.get_congr (Dev.updPort_csr _ _ _), hset]
      · rw [Dev.portOf_updPort]
        exact hport
    · exact ⟨hset, hport⟩
  | false =>
    rw [if_neg Bool.false_ne_true, Bool.false_and, if_neg Bool.false_ne_true]
    refine ⟨?_, ?_⟩
    · rw [Dev.get_congr (d.ideStopped_csr p), Dev.get_set_self]
      rfl
    · rw [PortS.stream, d.ideStopped_ide p]
      exact hx

/-- Settles O5: a link that meets a command's condition trains, falls back, stops or is keyed, and shows it. -/
theorem linkCommandsComplete : Obligations.LinkCommandsComplete := by
  unfold Obligations.LinkCommandsComplete
  refine ⟨fun s p t f hf hp hu hl hw hc hr => ⟨s.dev.trainedLink p.toNat f t, ?_, s.dev.trainedLink_fields p.toNat f t⟩, fun s p hf hu ha => ?_,
    fun s p n f a hu ha => ?_, fun s p hu hm => ⟨s.dev.macStopped p.toNat, ?_, s.dev.macStopped_fields p.toNat⟩, fun s p n k r hu hs => ?_,
    fun s p n k r x hu hs hh hx => ⟨fun hk => ?_, fun hk hm => ⟨(s.dev.keyed p.toNat k x).ideMem p.toNat, ?_, ?_⟩⟩⟩
  · rw [exec_linkUp_of_ready hf hp hu hl hw, Acc.linkTrained_of_cxl (a := s.acc) hc hr]
    rfl
  · change execEqualizationFailure p s = _
    unfold execEqualizationFailure
    rw [run_when_of_true hf, Dev.eqFail_of_high hu ha]
  · change execReplayRateRetrain p ⟨n, f⟩ s = _
    unfold execReplayRateRetrain
    rw [runAcc_when_of_true hu, ha]
    by_cases hn : 256 < n
    · rw [if_pos hn]
      exact congrArg (fun b => Host.Outcome.next (s.afterAcc b)) (Acc.when_of_true _ _ _ (decide_eq_true hn))
    · rw [if_neg hn]
      exact congrArg (fun b => Host.Outcome.next (s.afterAcc b)) (Acc.when_of_false _ _ _ (decide_eq_false hn))
  · change execMacCheckFailure p s = _
    unfold execMacCheckFailure
    rw [run_when_of_true (by rw [hu, hm]; rfl), Dev.macFail_eq]
  · rw [exec_ideKm_of_up hu, Acc.upd_congr (f := fun d => d.ideKey p.toNat n k r) (g := fun d => d.emit (.ideKm p.toNat 1))
      (Dev.ideKey_of_open (d := s.acc.dev) hs p.toNat k r)]
  · have hkey : s.acc.dev.ideKey p.toNat n k r = (s.acc.dev.keyed p.toNat k x).emit (.ideKm p.toNat 0) := by
      rw [Dev.ideKey_of_secured (d := s.acc.dev) hs hh hx, if_neg hk]
    rw [exec_ideKm_of_up hu, Acc.upd_congr (f := fun d => d.ideKey p.toNat n k r) (g := fun d => (d.keyed p.toNat k x).emit (.ideKm p.toNat 0)) hkey]
    rfl
  · have hkey : s.acc.dev.ideKey p.toNat n k r = ((s.dev.keyed p.toNat k x).ideMem p.toNat).emit (.ideKm p.toNat 0) := by
      rw [Dev.ideKey_of_secured (d := s.acc.dev) hs hh hx, if_pos hk]
      rfl
    rw [exec_ideKm_of_up hu,
      Acc.upd_congr (f := fun d => d.ideKey p.toNat n k r) (g := fun _ => ((s.dev.keyed p.toNat k x).ideMem p.toNat).emit (.ideKm p.toNat 0)) hkey]
  · subst hk
    refine Dev.ideMem_fields ?_ (s.dev.stream_keyed p.toNat .mem x)
    rw [Dev.keyed_port]
    exact hm

end Sys2Proof.Machine
end


section
/-! The interval of the ports, COMPAT windows and offers of Dynamic Capacity (02_host_links.md R48 to R58, 12_qos.md R316, R321): the
commands complete. -/

namespace Sys2Proof.Machine

/-! ### The settings that wait for the boundary (R308) -/

theorem Dev.raise_qos (d : Dev) (e : Ev) : (d.raise e).qos = d.qos := by
  obtain ⟨⟨c, o, fl, r, f, l, he⟩, -⟩ := d.records_raise e
  rw [he]

theorem Dev.classApply_qos (d : Dev) (l : List Nat) : (d.classApply l).qos = d.qos := by
  unfold Dev.classApply
  dsimp only
  rw [foldl_keeps Dev.qos (g := fun d p => d.set (fQOS_PORT_GBW_GBW p (l.getD 0 0)) (l.getD (6 + p) 0)) (fun _ _ => rfl), Dev.set_qos, Dev.set_qos, Dev.set_qos,
    Dev.set_qos, Dev.set_qos]

theorem Dev.setScale_qos (d : Dev) (f : Fld) (x : Nat × Nat) : (d.setScale f x).qos = d.qos := by
  unfold Dev.setScale
  dsimp only
  split
  · rw [Dev.emit_qos, Dev.raise_qos, Dev.setFlag_qos, Dev.set_qos]
  · rw [Dev.set_qos]

theorem Dev.qos_ite {c : Prop} [Decidable c] {d e f : Dev} (he : e.qos = d.qos) (hf : f.qos = d.qos) : (if c then e else f).qos = d.qos := by
  split
  · exact he
  · exact hf

theorem Dev.fillTokens_qos (d : Dev) (p : Nat) : (d.fillTokens p).qos = d.qos := by
  unfold Dev.fillTokens
  exact Dev.qos_ite rfl (Dev.updPort_qos _ _ _)

theorem Dev.portInterval_qos (d : Dev) (p : Nat) : (d.portInterval p).qos = d.qos := by
  unfold Dev.portInterval
  dsimp only
  rw [Dev.setFlag_qos, Dev.setFlag_qos, Dev.setFlag_qos, Dev.setFlag_qos, Dev.setFlag_qos, Dev.set_qos, Dev.set_qos, Dev.updPort_qos]

theorem Dev.scalesSet_qos (d : Dev) : (heads.foldl (fun d p => d.setScale (fQOS_PORT_STS_SCALE_P p) (d.scaleIn p)) d).qos = d.qos :=
  foldl_keeps Dev.qos (g := fun d p => d.setScale (fQOS_PORT_STS_SCALE_P p) (d.scaleIn p)) (fun d _ => d.setScale_qos _ _) heads d

/-- A recomputation leaves the settings that wait; what it reports on the way (R319 to R322) is a device e. -/
theorem Dev.exists_capability_eq (d : Dev) (up : Bool) : ∃ (e : Dev) (r t : Bool) (x : Nat),
    d.capability up = { e with qos := { e.qos with rise := !up && r && t, excessRate := x } } ∧ e.qos.pend = d.qos.pend := by
  refine ⟨_, _, _, _, by unfold Dev.capability; rfl, ?_⟩
  rw [Dev.setFlag_qos, Dev.qos_ite (Dev.raise_qos _ _) rfl, Dev.scalesSet_qos, Dev.setScale_qos, Dev.set_qos, Dev.set_qos, Dev.set_qos]

theorem Dev.capability_pend (d : Dev) (up : Bool) : (d.capability up).qos.pend = d.qos.pend := by
  obtain ⟨e, r, t, x, hcap, hpend⟩ := d.exists_capability_eq up
  rw [hcap]
  exact hpend

theorem Dev.capability_rise (d : Dev) : (d.capability true).qos.rise = false := by
  obtain ⟨e, r, t, x, hcap, -⟩ := d.exists_capability_eq true
  rw [hcap]
  rfl

/-- A port's part of the interval (R58, R310). -/
def Dev.intervalPort (d : Dev) (p : Nat) : Dev := if (d.formed p).isSome then (d.fillTokens p).portInterval p else d

theorem Dev.intervalPort_qos (d : Dev) (p : Nat) : (d.intervalPort p).qos = d.qos :=
  Dev.qos_ite ((Dev.portInterval_qos _ p).trans (d.fillTokens_qos p)) rfl

/-- The settings that wait are gone before the ports' parts. -/
theorem Dev.exists_interval_eq (d : Dev) : ∃ (e : Dev) (x : Nat),
    d.interval = heads.foldl Dev.intervalPort { e with qos := { e.qos with excess := x } } ∧ e.qos.pend = [] := by
  refine ⟨_, _, by unfold Dev.interval; rfl, ?_⟩
  rw [Dev.capability_pend, foldl_keeps Dev.qos Dev.classApply_qos]

theorem Dev.interval_pend (d : Dev) : d.interval.qos.pend = [] := by
  obtain ⟨e, x, he, hpend⟩ := d.exists_interval_eq
  rw [he, foldl_keeps Dev.qos Dev.intervalPort_qos]
  exact hpend

/-! ### The load of a port (R58) -/

theorem Dev.portLoad_of_idle {d : Dev} {p : Nat} (h : (d.portOf p).reads = 0 ∨ d.target p = 0) : d.portLoad p = (0, 1) := by
  unfold Dev.portLoad
  exact if_pos (Nat.mul_eq_zero.2 h)

theorem Dev.portLoad_of_reads {d : Dev} {p : Nat} (hr : (d.portOf p).reads ≠ 0) (ht : d.target p ≠ 0) :
    d.portLoad p = ((d.portOf p).latSum, (d.portOf p).reads * d.target p) := by
  unfold Dev.portLoad
  exact if_neg (Nat.mul_ne_zero hr ht)

/-! ### COMPAT windows (R316) -/

/-- A new window of a port that holds nothing lets nothing pass. -/
theorem Acc.compatNext_of_empty {a : Acc} {p : Nat} (h : a.dev.heldOf p = []) :
    a.compatNext p = a.upd (fun d => d.updPort p (fun x => { x with compat := 0 })) := by
  have hheld : (a.upd (fun d => d.updPort p (fun x => { x with compat := 0 }))).dev.heldOf p = [] := by
    unfold Dev.heldOf at h ⊢
    rw [Acc.upd_dev, Dev.portOf_updPort]
    exact h
  unfold Acc.compatNext
  dsimp only
  refine List.foldl_fixed' (fun _ => ?_) _
  rw [hheld]
  rfl

/-! ### Dynamic Capacity (R48 to R51) -/

theorem Dev.offer_of_ok {d : Dev} {h w : Nat} {e : Extent} (hok : d.offerOk h w e = true) :
    d.offer h w [e] = (d.updPort h (fun x => { x with offers := x.offers ++ [(e.start, e.len, w)] })).emit
      (.dcEvent h 0 (if d.winShared w then some w else none) [(e.start, e.len)]) := by
  unfold Dev.offer
  rw [List.foldl_cons, List.foldl_nil, if_pos hok]
  rfl

theorem Dev.offerResponse_of_ok {d : Dev} {h : Nat} {exts : List Extent} {r : List (Nat × Nat × Nat) × List (Nat × Nat × Nat)}
    (hr : cutExts d.dcOf (d.portOf h).offers exts = some r) (hroom : d.extRoom ((d.portOf h).extents ++ r.2) = true) :
    d.offerResponse h exts = (d.updPort h (fun x => { x with offers := [], extents := x.extents ++ r.2 })).emit (.mailboxRc h 0) := by
  unfold Dev.offerResponse
  rw [hr]
  exact if_pos hroom

/-- Settles O6: the interval takes up the settings that wait, and a command that meets its conditions has its own effect. -/
theorem intervalCommandsComplete : Obligations.IntervalCommandsComplete := by
  unfold Obligations.IntervalCommandsComplete
  refine ⟨fun s b => ⟨rfl, s.dev.interval_pend⟩, fun d p h => Dev.portLoad_of_idle h, fun d p hr ht => Dev.portLoad_of_reads hr ht,
    fun s h => ⟨?_, s.dev.capability_rise⟩, fun s p hu hm hh => ?_, fun s h w e h1 h2 h3 h4 h5 h6 => ?_, fun s h exts r hu hc hr hroom => ?_,
    fun s h e => rfl⟩
  · change execCapabilityRise s = _
    exact run_when_of_true h
  · change execCompatWindow p s = _
    unfold execCompatWindow
    rw [runAcc_when_of_true (by rw [show s.acc.dev = s.dev from rfl, hu, hm]; rfl), Acc.compatNext_of_empty (a := s.acc) hh]
  · change execAddCapacity h w [e] s = _
    unfold execAddCapacity
    rw [run_when_of_true (by rw [h1, h2, h3, h4, h5]; rfl), Dev.offer_of_ok h6]
  · change execAddDynamicCapacityResponse h exts s = _
    unfold execAddDynamicCapacityResponse
    rw [run_when_of_true (by rw [hu, hc]; rfl), Dev.offerResponse_of_ok hr hroom]

end Sys2Proof.Machine
end


section
/-! Windows (03_windows.md R66 to R83, 02_host_links.md R51): the commands complete. -/

namespace Sys2Proof.Machine

/-- The change of a create stands among the changes. -/
theorem Dev.exists_mem_beginCreate (d : Dev) (n : Nat) (w : List Nat) (bg : Option Nat) :
    ∃ g ∈ (d.beginCreate n w bg).win.chg, g.win = n ∧ g.img = w ∧ g.kind = 0 :=
  ⟨{ win := n, img := w, filling := imShared w || imKind w == 0, kind := 0, bg := bg }, List.mem_append_right _ (List.mem_singleton.2 rfl), rfl, rfl, rfl⟩

/-- R73: a removal begins at once where no head holds extents and no other change stands. -/
theorem Dev.orderRemove_of_free {d : Dev} {i n : Nat} (ht : d.winTiered n = false) (hh : d.holders n = []) (hc : d.win.chg.any (fun g => g.win == n) = false) :
    d.orderRemove i n = (.runs [n], { d with win := { d.win with removing := d.win.removing.filter (· != n), chg := d.win.chg ++
      [{ win := n, img := List.replicate 6 0, filling := false, kind := 2, bg := some i }] } }) := by
  unfold Dev.orderRemove
  dsimp only
  rw [ht, if_neg Bool.false_ne_true, hh, List.isEmpty_nil, if_pos rfl, Dev.beginRemove, hc, if_neg Bool.false_ne_true]
  rfl

theorem Acc.fillDone_of_filling {a : Acc} {n : Nat} {g : WinChg} (hg : a.dev.win.chg.find? (fun g => g.win == n && g.filling) = some g)
    (hk : a.dev.krUsable (imKr g.img) = true) :
    a.fillDone n = (a.fillCreate g).2.upd (fun d => d.updChg n (fun x => { x with filling := !(a.fillCreate g).1 })) := by
  unfold Acc.fillDone
  rw [hg]
  dsimp only
  rw [hk, Bool.not_true, if_neg Bool.false_ne_true]

theorem Acc.tableApply_of_idle {a : Acc} {n : Nat} {g : WinChg} (hg : a.dev.win.chg.find? (fun g => g.win == n && !g.filling) = some g)
    (hi : a.dev.inFlight n = false) (hp : a.dev.chgPowered g.img = true) : a.tableApply n = a.applyChg g := by
  unfold Acc.tableApply
  rw [hg]
  dsimp only
  rw [hi, hp, Bool.not_true, Bool.false_or, if_neg Bool.false_ne_true]

theorem Dev.releaseCap_of_ok {d : Dev} {h : Nat} {exts : List Extent} {left got : List (Nat × Nat × Nat)} (hne : exts ≠ [])
    (hcut : cutExts d.dcOf (d.portOf h).extents exts = some (left, got)) (hroom : d.extRoom left = true) (hrem : d.win.removing = []) :
    d.releaseCap h exts = (d.updPort h (fun x => { x with extents := left })).emit (.mailboxRc h 0) := by
  unfold Dev.releaseCap
  rw [List.isEmpty_eq_false_iff.2 hne, if_neg Bool.false_ne_true, hcut]
  dsimp only
  rw [hroom, Bool.not_true, if_neg Bool.false_ne_true, Dev.emit_win, Dev.updPort_win, hrem]
  rfl

/-- Settles O7: a change of the table begins, is filled, or is applied, where nothing stands in its way. -/
theorem windowCommandsComplete : Obligations.WindowCommandsComplete := by
  unfold Obligations.WindowCommandsComplete
  refine ⟨fun s c ha hok => ⟨?_, s.dev.exists_mem_beginCreate _ _ _⟩, fun s c ha hok => ?_, fun s c ha hok ht hh hc => ?_, fun s w g hg hk => ?_,
    fun s w g hg hi hp => ?_, fun s h exts left got hu hcfg hne hcut hroom hrem => ?_, fun s w ha hl => ?_⟩
  · change execWinCreate c s = _
    unfold execWinCreate
    exact run_command_runs ha hok rfl
  · change execWinModify c s = _
    unfold execWinModify
    exact run_command_runs ha hok rfl
  · change execWinRemove c s = _
    unfold execWinRemove
    exact run_command_runs ha hok (Dev.orderRemove_of_free ht hh hc)
  · change execZeroFillDone w s = _
    unfold execZeroFillDone
    rw [runAcc_eq, Acc.fillDone_of_filling (a := s.acc) hg hk]
  · change execWindowTableApply w s = _
    unfold execWindowTableApply
    rw [runAcc_eq, Acc.tableApply_of_idle (a := s.acc) hg hi hp]
  · change execReleaseDynamicCapacity h exts s = _
    unfold execReleaseDynamicCapacity
    rw [run_when_of_true (by rw [hu, hcfg]; rfl), Dev.releaseCap_of_ok hne hcut hroom hrem]
  · change execMapLockWrite w s = _
    unfold execMapLockWrite
    rw [run_eq, Dev.writeBy_allowed _ _ _ _ ha, Dev.mapLock, if_neg (by rw [hl]; exact Bool.false_ne_true)]

end Sys2Proof.Machine
end


section
/-! The home slices (04_coherence.md R85 to R102, 12_qos.md R312): what they take up later completes. -/

namespace Sys2Proof.Machine

/-- The first request of the crossbar's queue that waits for no grant goes on (R312). -/
theorem Acc.heldRelease_of_ready {a : Acc} {sl : Nat} {q : Req}
    (hq : a.dev.home.xbar.find? (fun q => lineSlice (q.dpa / 64) == sl && a.dev.xbarReady q && !a.dev.xbarAsks q) = some q) :
    a.heldRelease sl = (a.upd (fun d => { d with home := { d.home with xbar := a.dev.home.xbar.erase q } })).slice q := by
  unfold Acc.heldRelease Acc.pullXbar
  rw [hq]
  rfl

/-- A line on which nothing else is under way gives its turn to the first request that waits for it (R85). -/
theorem Acc.takeWaiting_of_first {a : Acc} {dl : Nat} {q : Req} {r : List Req} (ho : a.dev.openOn dl = false) (hr : a.dev.retryOn dl = false)
    (hw : ∀ x ∈ a.dev.tier.waits ++ a.dev.mir.waits, x.dpa / 64 ≠ dl) (hq : takeFirst (fun q => q.dpa / 64 == dl) a.dev.home.waits = some (q, r))
    (hop : q.op.isWrite = false) :
    a.takeWaiting dl = (a.upd (fun d => Dev.pinStats { d with home := { d.home with waits := r } } (lineSlice dl))).takeUpOr q (fun d => d.waitFirst q) := by
  have hfree : (a.dev.tier.waits ++ a.dev.mir.waits).any (fun q => q.dpa / 64 == dl) = false :=
    List.any_eq_false.2 (fun x hx h => hw x hx (beq_iff_eq.1 h))
  unfold Acc.takeWaiting
  rw [ho, hr, hfree, Bool.or_false, Bool.or_false, if_neg Bool.false_ne_true, hq]
  dsimp only
  rw [hop, if_neg Bool.false_ne_true]

theorem Dev.rqStats_home (d : Dev) (sl : Nat) : (d.rqStats sl).home = d.home := by
  unfold Dev.rqStats
  dsimp only
  split
  · rw [Dev.set_home, Dev.set_home]
  · rw [Dev.set_home]

/-- The retry queue holds r. -/
def Dev.withRetry (d : Dev) (r : List Req) : Dev := { d with home := { d.home with retry := r } }

theorem Dev.openOn_withRetry (d : Dev) (r : List Req) (sl dl : Nat) : ((d.withRetry r).rqStats sl).openOn dl = d.openOn dl := by
  unfold Dev.openOn
  rw [Dev.rqStats_home]
  rfl

/-- The oldest request of the retry queue for a set goes on where a way and a slot are at hand (R102). -/
theorem Acc.retryOne_of_way {a : Acc} {sl set : Nat} {q : Req} {r : List Req}
    (hq : takeFirst (fun q => lineSlice (q.dpa / 64) == sl && dirSet (q.dpa / 64) == set) a.dev.home.retry = some (q, r))
    (hway : (a.dev.dirWay (q.dpa / 64)).isSome = true) (hopen : a.dev.openOn (q.dpa / 64) = false) (hslot : (a.dev.slotOf q).isSome = true) :
    a.retryOne sl set = (((a.upd (fun d => (d.withRetry r).rqStats sl)).takeUp q).pullXbar sl).2 := by
  have hstill : ¬ (a.upd (fun d => (d.withRetry r).rqStats sl)).dev.openOn (q.dpa / 64) = true := by
    rw [Acc.upd_dev, Dev.openOn_withRetry, hopen]
    exact Bool.false_ne_true
  unfold Acc.retryOne
  rw [hq]
  dsimp only
  rw [hway, hopen, hslot, Bool.true_or, Bool.false_or, Bool.and_true, if_pos rfl]
  exact congrArg (fun b => (Acc.pullXbar b sl).2) (if_neg hstill)

theorem Acc.victimDone_of_found {a : Acc} {sl dl : Nat} {v : DirEnt}
    (hv : a.dev.home.victims.find? (fun v => v.line == dl && lineSlice v.line == sl) = some v) :
    a.victimDone sl dl = (a.dirWrite (a.dev.lineWin dl) dl v.ent).upd (fun d =>
      { d with home := { d.home with victims := d.home.victims.filter (fun x => x.line != dl) } }) := by
  unfold Acc.victimDone
  rw [hv]

theorem Acc.biRsp_of_resolved {a : Acc} {p hpa al cls x : Nat} {c : Decoder} (r : BiRsp) (hc : a.dev.resolve p (hpa * 64) = some (c, al, cls, x)) :
    a.biRsp p hpa r = (a.upd (fun d => d.biAnswer p (c.dpa x / 64) al r)).snoopsMoved (c.dpa x / 64) := by
  unfold Acc.biRsp
  rw [hc]

theorem Dev.conflict_of_resolved {d e : Dev} {p hpa al cls x : Nat} {c : Decoder} (hc : d.resolve p (hpa * 64) = some (c, al, cls, x))
    (he : e = d.pmuHome (lineSlice (c.dpa x / 64)) 0x29 8) :
    d.conflict p hpa = { e with home := { e.home with biConf := e.home.biConf ++ [(p, hpa, c.dpa x / 64, e.owed p (c.dpa x / 64))] } } := by
  unfold Dev.conflict
  rw [hc, he]

theorem Acc.snoopTmo_of_open {a : Acc} {p dl : Nat} {t : Trans} (ht : a.dev.transOf dl = some t)
    (hs : t.snoops.any (fun x => x.head == p && !x.wait.isEmpty) = true) :
    a.snoopTmo p dl = (a.upd (fun d => (d.setFlag fHOME_STS_BI_TMO true).raise
      { src := srcHome (lineSlice dl) 1, sev := 3, code := 100, obj := p, addr := dl * 64, akind := 1, head := some p })).headDown p false true := by
  unfold Acc.snoopTmo
  rw [ht]
  dsimp only
  rw [if_pos hs]

/-- Settles O2: each slice takes up what its hypotheses name, and a snooped head's answer goes to the transaction that waits for it. -/
theorem sliceEventsComplete : Obligations.SliceEventsComplete := by
  unfold Obligations.SliceEventsComplete
  refine ⟨fun s sl q r hq hr => ?_, fun s line q r ho hr hw hq hop => ?_, fun s sl set q r hq hway hopen hslot => ?_, fun s sl line v hv => ?_,
    fun s h hpa r c al cls x hu hc => ?_, fun s h hpa c al cls x d hu hc hd => ?_, fun s h line t ht hs => ?_, fun s h hu => ?_⟩
  · change runAcc (fun a => a.heldRelease sl.toNat) s = _
    rw [runAcc_eq, Acc.heldRelease_of_ready (a := s.acc) hq, hr]
    rfl
  · change runAcc (fun a => a.takeWaiting line.toNat) s = _
    rw [runAcc_eq, Acc.takeWaiting_of_first (a := s.acc) ho hr hw hq hop]
  · change runAcc (fun a => a.retryOne sl.toNat set.toNat) s = _
    rw [runAcc_eq, Acc.retryOne_of_way (a := s.acc) hq hway hopen hslot]
    rfl
  · change runAcc (fun a => a.victimDone sl.toNat line.toNat) s = _
    rw [runAcc_eq, Acc.victimDone_of_found (a := s.acc) hv]
    rfl
  · change execBirsp h hpa r s = _
    unfold execBirsp
    rw [runAcc_when_of_true hu, Acc.biRsp_of_resolved (a := s.acc) r hc]
    rfl
  · change execBiConflict h hpa s = _
    unfold execBiConflict
    rw [run_when_of_true hu, Dev.conflict_of_resolved hc hd]
  · change runAcc (fun a => a.snoopTmo h.toNat line.toNat) s = _
    rw [runAcc_eq, Acc.snoopTmo_of_open (a := s.acc) ht hs]
  · change execViral h s = _
    exact run_when_of_true hu

end Sys2Proof.Machine
end


section
/-! Requests of heads (04_coherence.md R85 to R93, 12_qos.md R309 to R313): on their way to the slice, and served there. -/

namespace Sys2Proof.Machine

/-! ### At the port (stage 1 of Table 1.2) -/

/-- The request of i as it arrives. -/
def Req.arriving (i : ReqIn) (op : ROp) : Req :=
  { head := i.head.toNat, hpa := i.hpa.toNat, tag := i.tag.toNat, op := op, rivals := i.rivals.toNat }

/-- The device once port p has taken a flit: the port has left L1. -/
def Dev.awake (d : Dev) (p : Nat) : Dev := d.updPort p (fun s => { s with inL1 := false })

theorem Dev.portOf_awake (d : Dev) (p : Nat) : (d.awake p).portOf p = { d.portOf p with inL1 := false } :=
  d.portOf_updPort p _

/-- A port that holds nothing back resolves the request (R62). -/
theorem Acc.letIn_of_free {a : Acc} {q : Req} (hr : (a.dev.portOf q.head).restored = true) (hm : (a.dev.portOf q.head).memEn = true)
    (ho : a.dev.portsOpen = true) (hx : (a.dev.portOf q.head).rx = []) : a.letIn q = a.resolveReq q := by
  simp [Acc.letIn, hr, hm, ho, hx]

/-- A request at a port that takes it at once is resolved. -/
theorem Acc.arrive_of_portServes {a : Acc} {i : ReqIn} (op : ROp) (h : a.dev.portServes i.head.toNat = true)
    (hmac : a.dev.get (fPDV_PORT_STS_IDE_MEM i.head.toNat) = 1 → i.macOpen = false) :
    a.arrive i op = (a.upd (fun d => d.awake i.head.toNat)).resolveReq (Req.arriving i op) := by
  simp only [Dev.portServes, Bool.and_eq_true, Bool.not_eq_true', List.isEmpty_iff] at h
  obtain ⟨⟨⟨⟨⟨⟨⟨⟨⟨hup, hcxl⟩, hmacStop⟩, hkeys⟩, hrest⟩, hen⟩, hopen⟩, hrx⟩, hep⟩, hxbar⟩ := h
  have hsecure : (a.dev.get (fPDV_PORT_STS_IDE_MEM i.head.toNat) == 1 && i.macOpen) = false := by
    cases hg : a.dev.get (fPDV_PORT_STS_IDE_MEM i.head.toNat) == 1 with
    | true => rw [hmac (beq_iff_eq.1 hg)]; rfl
    | false => rfl
  have hwake : (a.upd (fun d => d.awake i.head.toNat)).wake 1 = a.upd (fun d => d.awake i.head.toNat) := Acc.wake_of_open _ _ hopen
  have hin : (a.upd (fun d => d.awake i.head.toNat)).letIn (Req.arriving i op) = (a.upd (fun d => d.awake i.head.toNat)).resolveReq (Req.arriving i op) := by
    have hp : (a.upd (fun d => d.awake i.head.toNat)).dev.portOf (Req.arriving i op).head = { a.dev.portOf i.head.toNat with inL1 := false } :=
      a.dev.portOf_awake _
    refine Acc.letIn_of_free ?_ ?_ hopen ?_
    · rw [hp]; exact hrest
    · rw [hp]; exact hen
    · rw [hp]; exact hrx
  unfold Acc.arrive
  dsimp only
  rw [hup, hcxl, hmacStop, hkeys, Dev.room_of_empty _ _ _ hrx hep hxbar, hsecure, hep]
  change ((a.upd (fun d => d.awake i.head.toNat)).wake 1).letIn (Req.arriving i op) = _
  rw [hwake, hin]

/-- A request that a committed decoder covers goes to the escapement, where its stream is Secure or needs no IDE. -/
theorem Acc.arrive_of_reaches {a : Acc} {i : ReqIn} {op : ROp} {q : Req} (h : Reaches a.dev i op q) :
    a.arrive i op = (a.upd (fun d => d.counted q)).escape q := by
  obtain ⟨hport, hmac, hriv, ⟨c, hpa, hdec, hdpa⟩, hwin, hreq, hide⟩ := h
  rw [Acc.arrive_of_portServes op hport hmac]
  obtain ⟨org, head, qhpa, tag, qop, al, cls, dpa, win, conf, rivals, res, sd, gr, grp⟩ := q
  rw [Req.mk.injEq] at hreq
  obtain ⟨rfl, rfl, rfl, rfl, rfl, -, -, -, -, rfl, rfl, rfl, rfl, rfl, rfl⟩ := hreq
  dsimp only at hdec hdpa hwin hide
  have hrivals : i.rivals.toNat = 0 := by rw [hriv]; rfl
  have hgate : ∀ e : Dev, e.flag (fPDV_PORT_STS_IDE_REQUIRED i.head.toNat) = false ∨ e.get (fPDV_PORT_STS_IDE_MEM i.head.toNat) = 1 →
      ¬ (e.flag (fPDV_PORT_STS_IDE_REQUIRED i.head.toNat) && e.get (fPDV_PORT_STS_IDE_MEM i.head.toNat) != 1) = true := by
    rintro e (he | he) <;> simp [he]
  unfold Acc.resolveReq
  dsimp only [Req.arriving]
  rw [Acc.upd_dev, Dev.awake, hdec]
  dsimp only
  rw [hrivals, ← hdpa, ← hwin]
  exact if_neg (hgate _ hide)

/-! ### The escapement (stage 2) -/

theorem Acc.enter_of_empty {a : Acc} {q : Req} (hx : a.dev.home.xbar = []) : a.enter q = a.slice q := by
  simp [Acc.enter, hx]

theorem Acc.escape_of_noData {a : Acc} {q : Req} (h : q.op.hasData = false) : a.escape q = a.enter q := by
  simp [Acc.escape, h]

/-- A conforming request of a port that does not count its bytes leaves the device alone as it passes. -/
theorem Dev.passed_of_conf {d : Dev} {q : Req} (hm : d.get (fQOS_PORT_CFG_MODE q.head) = 0) (hc : q.conf = true) : d.passed q = d := by
  simp [Dev.passed, hm, hc]

/-- A conforming request passes, behind nothing of its port (R310, R312). -/
theorem Acc.escape_of_conforms {a : Acc} {q : Req} {d : Dev} (hd : q.op.hasData = true) (h : Conforms a.dev q d) :
    a.escape q = (a.upd (fun _ => d)).enter { q with conf := true } := by
  obtain ⟨htok, hmode, hfirst⟩ := h
  have hpass : Acc.upd { a with dev := d } (fun d => d.passed { q with conf := true }) = a.upd (fun _ => d) :=
    congrArg (fun e => { a with dev := e }) (Dev.passed_of_conf (q := { q with conf := true }) hmode rfl)
  unfold Acc.escape
  dsimp only
  rw [hd, Bool.not_true, if_neg Bool.false_ne_true, htok]
  dsimp only
  rw [hfirst, hpass, show heldAhead { q with conf := true } [] = false from rfl, if_neg Bool.false_ne_true, if_pos rfl, ite_self]

/-! ### At the slice (stages 3 and 4) -/

/-- A request that every check of the window table passes takes its order among its line's (R85). -/
theorem Acc.slice_of_served {a : Acc} {q : Req} (h : Served a.dev q) : a.slice q = a.grouped q := by
  obtain ⟨hsteady, hintact, ⟨hhalt, hfatal, hviral⟩, hwin, hmem, hhere, hsound, hkey, -⟩ := h
  have hto : a.upd (fun d => d.toSlice q) = a := congrArg (fun e => { a with dev := e }) hintact
  unfold Acc.slice
  rw [hsteady]
  dsimp only
  rw [hto, hhalt, hfatal, hviral, hwin]
  dsimp only
  rw [hmem, hsound, hkey]
  simp [hhere]

theorem Dev.cycleIn_of_alone {d : Dev} {q : Req} (hg : tfind d.home.cyc (q.dpa / 64) = none) (hr : q.rivals = 0) : d.cycleIn q = (none, d) := by
  simp [Dev.cycleIn, hg, hr]

/-- A request without rivals comes in its own turn (R86). -/
theorem Acc.grouped_of_served {a : Acc} {q : Req} (h : Served a.dev q) : a.grouped q = a.order q := by
  simp [Acc.grouped, Dev.cycleIn_of_alone h.noGroup h.alone]

theorem Acc.enter_of_served {a : Acc} {q : Req} (h : Served a.dev q) : a.enter q = a.order q := by
  rw [Acc.enter_of_empty h.queue, Acc.slice_of_served h, Acc.grouped_of_served h]

theorem Acc.serving_dev (a : Acc) (q : Req) : (a.serving q).dev = a.dev := rfl

/-- A request that is no write finds its line free, and is taken up. -/
theorem Acc.order_of_served {a : Acc} {q : Req} (h : Served a.dev q) (hop : q.op.isWrite = false) : a.order q = (a.serving q).takeUp q := by
  obtain ⟨hopen, hwaits, hretry⟩ := h.free
  simp [Acc.order, Acc.serving_dev, hop, hopen, hwaits, hretry]

theorem Dev.winShared_takeSlot (d : Dev) (q : Req) (sk : SlotKind) (w : Nat) : (d.takeSlot q sk).winShared w = d.winShared w := by
  unfold Dev.takeSlot
  cases sk
  case common =>
    dsimp only
    split <;> rfl
  all_goals rfl

/-- In a window without directory a read whose data is at hand ends with it. -/
theorem Acc.takeUp_of_have {a b : Acc} {q : Req} {sk : SlotKind} {x : PLine} (hs : a.dev.winShared q.win = false) (hop : q.op.isRead = true)
    (horg : q.org = .host) (hsk : a.dev.slotOf q = some sk)
    (hf : ((a.upd (fun d => d.takeSlot q sk)).serving q).findData q.win (q.dpa / 64) q.cls q true = (.have_ x, b)) :
    a.takeUp q = b.upd (fun d => (d.endRead { line := q.dpa / 64, req := q, wait := .snoops, slot := sk } x true).retired q) := by
  have hbegin : (((a.serving q).upd (fun d => d.takeSlot q sk)).serving q).beginRead { line := q.dpa / 64, req := q, wait := .snoops, slot := sk } =
      b.upd (fun d => d.endRead { line := q.dpa / 64, req := q, wait := .snoops, slot := sk } x true) := by
    have hf' : (((((a.serving q).upd (fun d => d.takeSlot q sk)).serving q)).serving q).findData q.win (q.dpa / 64) q.cls q q.org.counts = (.have_ x, b) := by
      rw [horg]; exact hf
    unfold Acc.beginRead
    dsimp only
    rw [hf']
  have hserve : ((a.serving q).upd (fun d => d.takeSlot q sk)).serve { line := q.dpa / 64, req := q, wait := .snoops, slot := sk } =
      b.upd (fun d => d.endRead { line := q.dpa / 64, req := q, wait := .snoops, slot := sk } x true) := by
    unfold Acc.serve Acc.serveWith
    dsimp only
    rw [Acc.serving_dev, Acc.upd_dev, Acc.serving_dev, Dev.winShared_takeSlot, hs, if_neg Bool.false_ne_true, if_pos hop, hbegin]
  unfold Acc.takeUp Acc.takeUpOr
  dsimp only
  rw [Acc.serving_dev, hs, Bool.false_and, if_neg Bool.false_ne_true, if_pos hop, hsk]
  dsimp only
  rw [hserve]
  rfl

/-- In a window without directory a request without data completes (Table 4.3). -/
theorem Acc.takeUp_of_noData {a : Acc} {q : Req} (hs : a.dev.winShared q.win = false) (hop : q.op.hasData = false) :
    a.takeUp q = (a.serving q).upd (fun d => ((d.closeTrans (q.dpa / 64)).finish q q.op.cmp 0).retired q) := by
  obtain ⟨hr, hw⟩ := Bool.or_eq_false_iff.1 hop
  simp only [Acc.takeUp, Acc.takeUpOr, Acc.serve, Acc.serveWith, Acc.serving_dev, hs, hr, hw, Bool.false_and, if_neg Bool.false_ne_true]
  rfl

/-- In a window without directory a write that no rule drops and no earlier one holds back is accepted. -/
theorem Acc.order_of_accepted {a a1 b : Acc} {q : Req} {rsp : Rsp} (hop : q.op.isWrite = true) (hrsp : q.op.cmp = rsp) (hd : (a.serving q).dropWrite q = (false, a1))
    (hs : a1.dev.winShared q.win = false) (hb : a1.dev.waitBehind q = none) (ht : (a1.serving q).tryWrite q rsp = (.ok, b)) :
    a.order q = b.upd (fun d => d.applied q) := by
  have hacc : a1.acceptWrite q q.op.cmp = (.done, b.upd (fun d => d.applied q)) := by
    unfold Acc.acceptWrite
    rw [hrsp, ht]
  unfold Acc.order
  dsimp only
  rw [if_pos hop, hd, if_neg Bool.false_ne_true, Acc.orderWrite, hs, Bool.not_false, if_pos rfl, Acc.writePlain, hb]
  dsimp only
  rw [hacc]

/-! ### Requests of a head -/

/-- A read whose data is at hand is answered with it at once. -/
theorem run_read {s : State} {i : ReqIn} {op : ROp} {q : Req} {d : Dev} {sk : SlotKind} {x : PLine} {b : Acc} (hop : op.isRead = true)
    (hr : Reaches s.dev i op q) (hc : Conforms (s.dev.counted q) q d) (hs : Served d { q with conf := true })
    (hsk : d.slotOf { q with conf := true } = some sk)
    (hf : ((s.acc.upd (fun _ => d.takeSlot { q with conf := true } sk)).serving { q with conf := true }).findData q.win (q.dpa / 64) q.cls
      { q with conf := true } true = (.have_ x, b)) :
    runAcc (fun a => a.arrive i op) s = .next (s.afterAcc (b.upd (fun d =>
      (d.endRead { line := q.dpa / 64, req := { q with conf := true }, wait := .snoops, slot := sk } x true).retired { q with conf := true }))) := by
  have hq : q.op.isRead = true := by rw [hr.req]; exact hop
  have horg : q.org = .host := by rw [hr.req]
  have hw : q.op.isWrite = false := by
    cases h : q.op <;> simp_all [ROp.isRead, ROp.isWrite]
  rw [runAcc_eq, Acc.arrive_of_reaches (a := s.acc) hr, Acc.escape_of_conforms (by rw [ROp.hasData, hq]; rfl) hc,
    Acc.enter_of_served (q := { q with conf := true }) (by exact hs),
    Acc.order_of_served (q := { q with conf := true }) (by exact hs) hw, Acc.takeUp_of_have (q := { q with conf := true }) hs.unshared hq horg hsk hf]

/-- A request without data completes at once. -/
theorem run_noData {s : State} {i : ReqIn} {op : ROp} {q : Req} (hop : op.hasData = false) (hr : Reaches s.dev i op q)
    (hs : Served (s.dev.counted q) q) :
    runAcc (fun a => a.arrive i op) s = .next (s.afterAcc ((s.acc.serving q).upd (fun _ =>
      (((s.dev.counted q).closeTrans (q.dpa / 64)).finish q op.cmp 0).retired q))) := by
  have hqop : q.op = op := by rw [hr.req]
  have hq : q.op.hasData = false := by rw [hqop]; exact hop
  rw [runAcc_eq, Acc.arrive_of_reaches (a := s.acc) hr, Acc.escape_of_noData hq, Acc.enter_of_served (by exact hs),
    Acc.order_of_served (by exact hs) (Bool.or_eq_false_iff.1 hq).2, Acc.takeUp_of_noData hs.unshared hq, hqop]
  rfl

/-- A write that no rule drops and no earlier one holds back is stored and completes. -/
theorem run_write {s : State} {i : ReqIn} {op : ROp} {rsp : Rsp} {q : Req} {d : Dev} {a b : Acc} (hop : op.isWrite = true) (hrsp : op.cmp = rsp)
    (hr : Reaches s.dev i op q) (hc : Conforms (s.dev.counted q) q d) (hs : Served d { q with conf := true })
    (hd : ((s.acc.upd (fun _ => d)).serving { q with conf := true }).dropWrite { q with conf := true } = (false, a))
    (hsh : a.dev.winShared q.win = false) (hb : a.dev.waitBehind { q with conf := true } = none)
    (ht : (a.serving { q with conf := true }).tryWrite { q with conf := true } rsp = (.ok, b)) :
    runAcc (fun a => a.arrive i op) s = .next (s.afterAcc (b.upd (fun d => d.applied { q with conf := true }))) := by
  have hqop : q.op = op := by rw [hr.req]
  have hq : q.op.isWrite = true := by rw [hqop]; exact hop
  rw [runAcc_eq, Acc.arrive_of_reaches (a := s.acc) hr, Acc.escape_of_conforms (by rw [ROp.hasData, hq, Bool.or_true]) hc,
    Acc.enter_of_served (q := { q with conf := true }) (by exact hs),
    Acc.order_of_accepted (a := (s.acc.upd (fun d => d.counted q)).upd (fun _ => d)) (q := { q with conf := true }) hq (by rw [hqop]; exact hrsp) hd hsh hb ht]

/-! ### The line's data -/

/-- A read finds the newest data of its line in the line buffer (R18). -/
theorem Acc.findData_of_buffered {a : Acc} {w dl : Nat} {b : LBuf} (cls : Nat) (q : Req) (count : Bool) (ht : a.dev.winTiered w = false)
    (hb : tfind a.dev.home.lbuf dl = some b) (hp : b.part = none) :
    a.findData w dl cls q count = (.have_ (b.data, b.poison), a.upd (fun d => (d.pmuHome (lineSlice dl) 0x2B cls).smpFlag q 0)) := by
  unfold Acc.findData
  dsimp only
  rw [hb, ht]
  refine (if_neg ?_).trans ?_
  · dsimp only
    rw [hp]
    exact Bool.false_ne_true
  · rw [if_neg Bool.false_ne_true]

/-- A write of a line of a window that is not mirrored, which no rule drops, is stored and completes (R17). -/
theorem Acc.tryWrite_of_stored {a a1 a2 b : Acc} {q : Req} {rsp : Rsp} (hd : a.dropWrite q = (false, a1)) (hbasic : a1.dev.basic = false)
    (hm : a1.dev.winMirrored q.win = false) (hr : a1.dev.rebuildReads (q.dpa / 64) = false) (ho : a1.onOut q.win (q.dpa / 64) = (false, a2))
    (hs : a2.storeLine q.win (q.dpa / 64) q.cls q q.op.wrIn = (.ok, b)) :
    a.tryWrite q rsp = (.ok, b.upd (fun d => ((d.dropGot (q.dpa / 64)).finish q rsp 0).wroteFor q false none)) := by
  unfold Acc.tryWrite
  dsimp only
  rw [hd]
  dsimp only
  rw [hbasic, hm, hr, ho]
  dsimp only
  rw [if_neg Bool.false_ne_true, if_neg Bool.false_ne_true, hs]
  rfl

/-- Settles O1: clause by clause, from the rules above. -/
theorem hostRequestsComplete : Obligations.HostRequestsComplete := by
  unfold Obligations.HostRequestsComplete
  refine ⟨?_, ?_, ?_, ?_, ?_, ?_, ?_, ?_, ?_⟩
  · intro s i m q d sk x b hr hc hs hsk hf
    exact run_read rfl hr hc hs hsk hf
  · intro s i q d sk x b hr hc hs hsk hf
    exact run_read rfl hr hc hs hsk hf
  · intro a w dl cls q count b ht hb hp
    exact Acc.findData_of_buffered cls q count ht hb hp
  · intro s i m q hr hs
    cases m <;> exact run_noData rfl hr hs
  · intro s i q hr hs
    exact run_noData rfl hr hs
  · intro s i q hr hs
    exact run_noData rfl hr hs
  · intro s i m data po q d a b hr hc hs hd hsh hb ht
    exact run_write rfl rfl hr hc hs hd hsh hb ht
  · intro s i m data mask po q d a b hr hc hs hd hsh hb ht
    exact run_write rfl rfl hr hc hs hd hsh hb ht
  · intro a a1 a2 b q rsp hd hbasic hm hr ho hs
    exact Acc.tryWrite_of_stored hd hbasic hm hr ho hs

end Sys2Proof.Machine
end


section
/-! What DRAM accesses, counters of errors, responses and key ranges leave of the tiering state (chapter 8): all of it. -/

namespace Sys2Proof.Machine

/-- e has the tiering state of d. -/
def Dev.KeepsTier (d e : Dev) : Prop := e.tier = d.tier

namespace Dev.KeepsTier

variable {d e f : Dev}

theorem refl (d : Dev) : d.KeepsTier d := rfl

theorem trans (h : d.KeepsTier e) (g : e.KeepsTier f) : d.KeepsTier f := Eq.trans g h

theorem of_records (h : d.Records e) : d.KeepsTier e := by
  obtain ⟨⟨c, o, fl, r, fs, cl, rfl⟩, -⟩ := h
  rfl

theorem of_counts {u : Nat} (h : d.Counts u e) : d.KeepsTier e := by
  obtain ⟨⟨c, o, rfl⟩, -⟩ := h
  rfl

theorem wr (h : d.KeepsTier e) (k v : Nat) : d.KeepsTier (e.wr k v) := h
theorem set (h : d.KeepsTier e) (g : Fld) (v : Nat) : d.KeepsTier (e.set g v) := h
theorem setFlag (h : d.KeepsTier e) (g : Fld) (b : Bool) : d.KeepsTier (e.setFlag g b) := h
theorem setBit (h : d.KeepsTier e) (g : Fld) (i : Nat) (b : Bool) : d.KeepsTier (e.setBit g i b) := h
theorem bump (h : d.KeepsTier e) (g : Fld) (n : Nat) : d.KeepsTier (e.bump g n) := h
theorem bumpSat (h : d.KeepsTier e) (g : Fld) (n : Nat) : d.KeepsTier (e.bumpSat g n) := h
theorem emit (h : d.KeepsTier e) (o : Out) : d.KeepsTier (e.emit o) := h
theorem updPort (h : d.KeepsTier e) (p : Nat) (g : PortS → PortS) : d.KeepsTier (e.updPort p g) := h
theorem withSmp (h : d.KeepsTier e) (s : Tbl SmpS) : d.KeepsTier { e with smp := s } := h
theorem withSec (h : d.KeepsTier e) (s : SecS) : d.KeepsTier { e with sec := s } := h
theorem withMch (h : d.KeepsTier e) (s : MchS) : d.KeepsTier { e with mch := s } := h
theorem withHome (h : d.KeepsTier e) (s : HomeS) : d.KeepsTier { e with home := s } := h
theorem withSecHome (h : d.KeepsTier e) (s : SecS) (t : HomeS) : d.KeepsTier { e with sec := s, home := t } := h
theorem withFlt (h : d.KeepsTier e) (s : FltS) : d.KeepsTier { e with flt := s } := h
theorem pmu (h : d.KeepsTier e) (u code sub cls inc : Nat) : d.KeepsTier (e.pmu u code sub cls inc) := h.trans (of_counts (e.counts_pmu u code sub cls inc))
theorem pmuLnk (h : d.KeepsTier e) (p code cls inc : Nat) : d.KeepsTier (e.pmuLnk p code cls inc) := h.pmu _ _ _ _ _
theorem pmuSec (h : d.KeepsTier e) (ch code : Nat) : d.KeepsTier (e.pmuSec ch code) := h.pmu _ _ _ _ _
theorem raise (h : d.KeepsTier e) (r : Ev) : d.KeepsTier (e.raise r) := h.trans (of_records (e.records_raise r))

theorem ite {c : Prop} [Decidable c] (he : d.KeepsTier e) (hf : d.KeepsTier f) : d.KeepsTier (if c then e else f) := by
  split
  · exact he
  · exact hf

theorem foldl {α : Type} {g : Dev → α → Dev} (hg : ∀ (e : Dev) (x : α), e.KeepsTier (g e x)) (h : d.KeepsTier e) (l : List α) : d.KeepsTier (l.foldl g e) := by
  induction l generalizing e with
  | nil => exact h
  | cons x l ih => exact ih (h.trans (hg e x))

end Dev.KeepsTier

/-! ### Requests to DRAM (R115, R116, R378) -/

theorem Dev.keepsTier_crossed (d : Dev) (s : Nat) : d.KeepsTier (d.crossed s).2 := by
  unfold Dev.crossed
  dsimp only
  split <;> rfl

theorem Dev.keepsTier_enterQ (d : Dev) (k : Nat) : d.KeepsTier (d.enterQ k) := .ite (.refl d) (.withMch (.refl d) _)

theorem Dev.keepsTier_subStats (d : Dev) (ch sub : Nat) : d.KeepsTier (d.subStats ch sub) := by
  have hq := (((d.keepsTier_enterQ (subKey ch sub)).set (fMCH_Q_RDQ ch sub) (min ((d.enterQ (subKey ch sub)).subOf (subKey ch sub)).rq.length 64)).set
    (fMCH_Q_WRQ ch sub) (min ((d.enterQ (subKey ch sub)).subOf (subKey ch sub)).wq.length 96)).set
    (fMCH_Q_META ch sub) ((d.enterQ (subKey ch sub)).stand [] ((d.enterQ (subKey ch sub)).subOf (subKey ch sub)).mq).length
  unfold Dev.subStats
  exact .ite (hq.setBit _ _ _) (.ite (hq.setBit _ _ _) hq)

theorem Dev.keepsTier_pushDram (d : Dev) (l : Nat) (wr : Option Codeword) (source : Nat) (purp : DPurp) (cls : Nat) (conf : Bool)
    (port : Option Nat) : d.KeepsTier (d.pushDram l wr source purp cls conf port) := by
  have hcross := d.keepsTier_crossed (src 35 (8 + (d.locOf (64 * l)).chan / 3))
  unfold Dev.pushDram
  dsimp only
  split
  · exact .ite (hcross.withMch _) (hcross.withMch _)
  · exact (hcross.withMch _).trans (Dev.keepsTier_subStats _ _ _)

/-! ### Errors of DRAM (R146 to R148, R379) -/

theorem Dev.keepsTier_rowCount (d : Dev) (x : Loc) (devs : List Nat) : d.KeepsTier (d.rowCount x devs) := by
  have hmulti : ∀ {e : Dev} (n k : Nat) (b : Bool), d.KeepsTier e → d.KeepsTier (if b then e.setFlag (fMCH_ROW_MULTIDEV n k) true else e) :=
    fun _ _ _ he => .ite (he.setFlag _ _) he
  have hevent : ∀ {e : Dev} (f : Fld) (r : Ev) (c : Bool), d.KeepsTier e → d.KeepsTier (if c then (e.setFlag f true).raise r else e) :=
    fun _ _ _ he => .ite ((he.setFlag _ _).raise _) he
  unfold Dev.rowCount
  refine hevent _ _ _ (.set (.ite (.bumpSat (hmulti _ _ _ (.refl d)) _ _) (hmulti _ _ _ ?_)) _ _)
  exact ((((((((Dev.KeepsTier.refl d).wr _ _).set _ _).set _ _).set _ _).set _ _).set _ _).setFlag _ _).set _ _

theorem Dev.keepsTier_bankCount (d : Dev) (x : Loc) : d.KeepsTier (d.bankCount x) := by
  have hcount := (Dev.KeepsTier.refl d).bumpSat (fMCH_BCNT_COUNT x.chan x.bankIdx) 1
  unfold Dev.bankCount
  exact .ite ((hcount.setFlag _ _).raise _) hcount

theorem Dev.keepsTier_updRank (d : Dev) (k : Nat) (f : RankS → RankS) : d.KeepsTier (d.updRank k f) := (Dev.KeepsTier.refl d).withMch _

theorem Dev.keepsTier_retrainAt (d : Dev) (ch r : Nat) (t : Option Int) : d.KeepsTier (d.retrainAt ch r t) :=
  ((d.keepsTier_updRank _ _).setBit _ _ _).emit _

theorem Dev.keepsTier_laneCount (d : Dev) (x : Loc) (dev dq : Nat) (last : Option Nat) : d.KeepsTier (d.laneCount x dev dq last).2 := by
  have hretrain : ∀ {e : Dev} (rk : Nat) (f : RankS → RankS), d.KeepsTier e → d.KeepsTier ((e.updRank rk f).retrainAt x.chan x.chRank none) :=
    fun _ _ he => (he.trans (Dev.keepsTier_updRank _ _ _)).trans (Dev.keepsTier_retrainAt _ _ _ _)
  unfold Dev.laneCount
  dsimp only
  split
  · exact hretrain _ _ (.raise (.setFlag ((Dev.KeepsTier.refl d).withMch _) _ _) _)
  · exact (Dev.KeepsTier.refl d).withMch _

theorem keepsTier_laneCounts (x : Loc) (last : Option Nat) (l : List (Nat × Nat)) (r : Bool × Dev) :
    r.2.KeepsTier (l.foldl (fun (r : Bool × Dev) e => let u := r.2.laneCount x e.1 e.2 last; (r.1 || u.1, u.2)) r).2 := by
  induction l generalizing r with
  | nil => exact .refl r.2
  | cons e l ih => exact (r.2.keepsTier_laneCount x e.1 e.2 last).trans (ih _)

theorem Dev.keepsTier_eccCorrected (d : Dev) (l source : Nat) (dpa : Option Nat) (head dev mask : Nat) (devs : List (Nat × Nat))
    (marked inj : Bool) : d.KeepsTier (d.eccCorrected l source dpa head dev mask devs marked inj) := by
  have hrec : ∀ {e : Dev} (r : Ev), d.KeepsTier e →
      d.KeepsTier (if source = 6 then e.raise r else { e.raise r with mch := { (e.raise r).mch with scrubQ := (e.raise r).mch.scrubQ ++ [l] } }) :=
    fun r he => .ite (he.raise r) ((he.raise r).withMch _)
  unfold Dev.eccCorrected
  refine hrec _ (.trans ?_ (keepsTier_laneCounts _ _ _ _))
  exact (d.keepsTier_rowCount _ _).trans (Dev.keepsTier_bankCount _ _)

theorem Dev.keepsTier_setOut (d : Dev) (s : Nat) (b : Bool) : d.KeepsTier (d.setOut s b) := ((Dev.KeepsTier.refl d).withMch _).setBit _ _ _

theorem Dev.keepsTier_declareFailed (d : Dev) (ch : Nat) (slots : List Nat) (code : Nat) : d.KeepsTier (d.declareFailed ch slots code) :=
  (Dev.KeepsTier.foldl (fun e s => e.keepsTier_setOut s true) (.refl d) slots).raise _

theorem Dev.keepsTier_eccBad (d : Dev) (l source : Nat) (dpa : Option Nat) (head : Nat) (inj : Bool) : d.KeepsTier (d.eccBad l source dpa head inj) := by
  have hfail : ∀ {e : Dev} (c : Bool) (ch : Nat) (s : List Nat), d.KeepsTier e → d.KeepsTier (if c then e.declareFailed ch s 1 else e) :=
    fun _ _ _ he => .ite (he.trans (Dev.keepsTier_declareFailed _ _ _ _)) he
  unfold Dev.eccBad
  exact hfail _ _ _ (.withMch (.raise ((Dev.KeepsTier.refl d).bumpSat _ _) _) _)

/-! ### Responses (R57, R427 to R429) -/

theorem Dev.keepsTier_closeTrans (d : Dev) (dl : Nat) : d.KeepsTier (d.closeTrans dl) := ((Dev.KeepsTier.refl d).withHome _).set _ _

theorem Dev.keepsTier_respondTo (d : Dev) (h tag : Nat) (r : Rsp) (tiered : Bool) : d.KeepsTier (d.respondTo h tag r tiered) := by
  have hsent := (Dev.KeepsTier.refl d).emit (.rsp h tag r (d.devLoad h tiered))
  unfold Dev.respondTo
  exact .ite (.ite (hsent.pmuLnk _ _ _ _) hsent) (.refl d)

theorem Dev.keepsTier_stageTimes (l : List Bool) (d : Dev) : d.KeepsTier (d.stageTimes l).2 := by
  induction l generalizing d with
  | nil => exact .refl d
  | cons b l ih =>
    cases b
    · exact ih d
    · exact ih d.free.2

theorem Dev.keepsTier_stages (d : Dev) (q : Req) (outcome : Nat) : d.KeepsTier (d.stages q outcome).2 := by
  unfold Dev.stages
  split
  · exact Dev.keepsTier_stageTimes _ d
  · exact .refl d

theorem Dev.keepsTier_ringPut (d : Dev) {n : Nat} (hn : n < 8) (kind : Nat) (words : List Nat) : d.KeepsTier (d.ringPut n kind words) :=
  .of_records (d.records_ringPut hn kind words)

theorem Dev.keepsTier_smpEnd (d : Dev) (q : Req) (outcome : Nat) (ns : List Nat) : d.KeepsTier (d.smpEnd q outcome ns) := by
  unfold Dev.smpEnd
  split
  · exact .pmu (.bumpSat (((Dev.KeepsTier.refl d).withSmp _).trans (Dev.keepsTier_ringPut _ (Dev.get_lt _ _) _ _)) _ _) _ _ _ _ _
  · exact .refl d

theorem Dev.keepsTier_readDone (d : Dev) (q : Req) (ns : List Nat) : d.KeepsTier (d.readDone q ns) := by
  have hfree : d.KeepsTier (if ns.isEmpty then (d.free.1 % 2 ^ 32, d.free.2) else (ns.sum, d)).2 := by
    split <;> rfl
  have hlate : ∀ {e : Dev} (c : Bool), d.KeepsTier e → d.KeepsTier (if c then e.bump (fQOS_PORT_LATE_COUNT q.head) 1 else e) :=
    fun _ he => .ite (he.bump _ _) he
  unfold Dev.readDone
  exact hlate _ (((hfree.updPort _ _).pmuLnk _ _ _ _).pmuLnk _ _ _ _)

theorem Dev.keepsTier_finish (d : Dev) (q : Req) (r : Rsp) (outcome : Nat) : d.KeepsTier (d.finish q r outcome) := by
  have hdone : ∀ {e : Dev} (c : Bool) (o : Nat), d.KeepsTier e →
      d.KeepsTier (if c then (e.stages q o).2.readDone q (e.stages q o).1 else (e.stages q o).2) := fun _ o he =>
    have hs := he.trans (Dev.keepsTier_stages _ q o)
    .ite (hs.trans (Dev.keepsTier_readDone _ _ _)) hs
  have hsend := hdone (q.op.isRead && ((d.respondTo q.head q.tag (if d.viralRead q then .data 0 poisonHalt 0 else r)
    (d.winTiered q.win && (if d.viralRead q then 1 else outcome) != 2)).portOf q.head).up) (if d.viralRead q then 1 else outcome)
    (d.keepsTier_respondTo q.head q.tag (if d.viralRead q then .data 0 poisonHalt 0 else r) (d.winTiered q.win && (if d.viralRead q then 1 else outcome) != 2))
  unfold Dev.finish
  refine .ite (.trans ?_ (Dev.keepsTier_smpEnd _ _ _ _)) (.refl d)
  split
  · exact .ite hsend (hsend.emit _)
  · exact hsend

theorem Dev.keepsTier_endRead (d : Dev) (t : Trans) (x : LineData × Nat) (direct : Bool) : d.KeepsTier (d.endRead t x direct) := by
  have hclosed := d.keepsTier_closeTrans t.line
  unfold Dev.endRead
  exact .ite (hclosed.trans (Dev.keepsTier_finish _ _ _ _)) (hclosed.withHome _)

/-! ### Key ranges and metadata (R154 to R192) -/

theorem Dev.keepsTier_sramBits (d : Dev) (s e : Nat) : d.KeepsTier (d.sramBits s e).2 := by
  unfold Dev.sramBits
  split <;> rfl

theorem Dev.keepsTier_sramFixed (d : Dev) (s e : Nat) : d.KeepsTier (d.sramFixed s e) := (Dev.KeepsTier.refl d).raise _

theorem Dev.keepsTier_quarantine (d : Dev) (n k i : Nat) (inj : Bool) : d.KeepsTier (d.quarantine n k i inj) := by
  unfold Dev.quarantine
  exact .ite (.refl d) (.raise (.bumpSat ((Dev.KeepsTier.refl d).withSec _) _ _) _)

theorem Dev.keepsTier_exhaust (d : Dev) (n : Nat) : d.KeepsTier (d.exhaust n) := .ite (.refl d) (((Dev.KeepsTier.refl d).setFlag _ _).raise _)

theorem Dev.keepsTier_ctrUsed (d : Dev) (n v : Nat) : d.KeepsTier (d.ctrUsed n v) := .ite (d.keepsTier_exhaust n) (.refl d)

theorem Dev.keepsTier_highWater (d : Dev) (n : Nat) (new : Bool) (m c : Nat) : d.KeepsTier (d.highWater n new m c) := by
  have hmark : ∀ {e : Dev} (f : Fld) (v : Nat), d.KeepsTier e → d.KeepsTier (if e.get f < v then e.set f v else e) :=
    fun _ _ he => .ite (he.set _ _) he
  unfold Dev.highWater
  exact hmark _ _ (hmark _ _ (.ite ((Dev.KeepsTier.refl d).withSec _) (.refl d)))

theorem Dev.keepsTier_keyGone (d : Dev) (n : Nat) : d.KeepsTier (d.keyGone n) := by
  unfold Dev.keyGone
  exact (((((Dev.KeepsTier.refl d).withSecHome _ _).set _ _).setFlag _ _).setFlag _ _).raise _

/-! ### The pool's counters (R218, R220) -/

theorem Dev.keepsTier_relevel (d : Dev) : d.KeepsTier d.relevel := by
  unfold Dev.relevel
  exact .ite (.refl d) ((((Dev.KeepsTier.refl d).set _ _).raise _).emit _)

theorem Dev.keepsTier_recount (d : Dev) : d.KeepsTier d.recount := by
  unfold Dev.recount
  refine .ite (.refl d) (.trans ?_ (Dev.keepsTier_relevel _))
  exact (((((((((Dev.KeepsTier.refl d).set _ _).set _ _).set _ _).set _ _).set _ _).set _ _).set _ _).set _ _).setFlag _ _

end Sys2Proof.Machine
end


section
/-! The decodes under way (08_compression_tiering.md R202) while metadata and stored lines are read: none begins. -/

namespace Sys2Proof.Machine

/-- Every decode under way in b is under way in a. -/
def Acc.DropsDecodes (a b : Acc) : Prop := ∀ x ∈ b.dev.tier.decoding, x ∈ a.dev.tier.decoding

namespace Acc.DropsDecodes

variable {a b c : Acc}

theorem refl (a : Acc) : a.DropsDecodes a := fun _ h => h

theorem trans (h : a.DropsDecodes b) (g : b.DropsDecodes c) : a.DropsDecodes c := fun x hx => h x (g x hx)

theorem of_keeps (h : a.dev.KeepsTier b.dev) : a.DropsDecodes b := fun x hx => by
  rw [show b.dev.tier = a.dev.tier from h] at hx
  exact hx

/-- A step of the device that keeps the tiering state begins no decode. -/
theorem upd (h : a.DropsDecodes b) {f : Dev → Dev} (hf : b.dev.KeepsTier (f b.dev)) : a.DropsDecodes (b.upd f) := h.trans (of_keeps hf)

theorem ite {p : Prop} [Decidable p] (hb : a.DropsDecodes b) (hc : a.DropsDecodes c) : a.DropsDecodes (if p then b else c) := by
  split
  · exact hb
  · exact hc

theorem foldl {α : Type} {g : Acc → α → Acc} (hg : ∀ (b : Acc) (x : α), b.DropsDecodes (g b x)) (h : a.DropsDecodes b) (l : List α) :
    a.DropsDecodes (l.foldl g b) := by
  induction l generalizing b with
  | nil => exact h
  | cons x l ih => exact ih (h.trans (hg b x))

/-- A security halt ends every decode (R189). -/
theorem haltNow (a : Acc) (cause kr source addr : Nat) (isMpa : Bool) : a.DropsDecodes (a.upd (fun d => d.haltNow cause kr source addr isMpa)) := by
  cases hh : a.dev.halted with
  | true => exact .of_keeps (by rw [Acc.upd_dev, Dev.haltNow, if_pos hh]; exact .refl _)
  | false =>
    have hnone : (a.dev.haltNow cause kr source addr isMpa).tier.decoding = [] := by
      unfold Dev.haltNow
      rw [hh, if_neg Bool.false_ne_true]
    intro x hx
    rw [Acc.upd_dev, hnone] at hx
    exact absurd hx List.not_mem_nil

end Acc.DropsDecodes

/-! ### Accesses to DRAM (R115) -/

theorem Acc.dropsDecodes_access (a : Acc) (l source : Nat) (wr : Option Codeword) : a.DropsDecodes (a.access l source wr) :=
  .ite (.refl a) (.upd (.refl a) (Dev.keepsTier_pushDram _ _ _ _ _ _ _ _))

theorem Acc.dropsDecodes_rdStored (a : Acc) (l source : Nat) (dpa : Option Nat) : a.DropsDecodes (a.rdStored l source dpa).2 := by
  unfold Acc.rdStored
  split
  · exact .refl a
  · exact .refl a
  · exact .upd (.refl a) (Dev.keepsTier_eccCorrected _ _ _ _ _ _ _ _ _ _)
  · split
    · exact .refl a
    · exact .upd (.refl a) (Dev.keepsTier_eccBad _ _ _ _ _ _)

theorem Acc.dropsDecodes_rdQueued (a : Acc) (l source : Nat) (dpa : Option Nat) : a.DropsDecodes (a.rdQueued l source dpa).2 :=
  (a.dropsDecodes_access _ _ _).trans (Acc.dropsDecodes_rdStored _ _ _ _)

theorem Acc.dropsDecodes_wrMeta (a : Acc) (l source v : Nat) : a.DropsDecodes (a.wrMeta l source v) :=
  (a.dropsDecodes_access _ _ _).trans (.ite (.refl _) (.of_keeps (.refl _)))

/-! ### The counter cache (R173 to R175) -/

theorem Acc.dropsDecodes_rootRead (a : Acc) (n k i : Nat) : a.DropsDecodes (a.rootRead n k i).2 := by
  have hbits := a.dev.keepsTier_sramBits (src 24 1) (a.dev.rootIdx n i)
  unfold Acc.rootRead
  dsimp only
  split
  · exact .refl a
  · split
    · exact .of_keeps (hbits.trans (Dev.keepsTier_sramFixed _ _ _))
    · exact .of_keeps ((hbits.raise _).trans (Dev.keepsTier_quarantine _ _ _ _ _))

theorem Acc.dropsDecodes_nodeHeld (a : Acc) (n k i : Nat) : a.DropsDecodes (a.nodeHeld n k i).2 := by
  have hbits := fun s e => a.dev.keepsTier_sramBits s e
  unfold Acc.nodeHeld
  dsimp only
  split
  · exact .refl a
  · split
    · split
      · exact .refl a
      · split
        · exact .of_keeps ((hbits _ _).trans (Dev.keepsTier_sramFixed _ _ _))
        · split
          · exact .of_keeps (((hbits _ _).withSec _).trans (Dev.keepsTier_quarantine _ _ _ _ _))
          · exact .of_keeps (((hbits _ _).withSec _).raise _)
    · exact .refl a

theorem Dev.keepsTier_putNode (d : Dev) (n k i v : Nat) (dirty : Bool) : d.KeepsTier (d.putNode n k i v dirty) := (Dev.KeepsTier.refl d).withSec _

theorem Acc.dropsDecodes_nodeRead (a : Acc) (n k i pc : Nat) : a.DropsDecodes (a.nodeRead n k i pc).2 := by
  have hread := a.dropsDecodes_rdQueued (a.dev.nodeLine n k i) 3 none
  unfold Acc.nodeRead
  dsimp only
  split
  next _ b heq =>
    rw [heq] at hread
    exact hread.upd (Dev.keepsTier_quarantine _ _ _ _ _)
  next _ b heq =>
    rw [heq] at hread
    split
    · exact hread.trans (.haltNow _ _ _ _ _ _)
    · split
      · exact hread.trans (.haltNow _ _ _ _ _ _)
      · exact hread.upd (Dev.keepsTier_putNode _ _ _ _ _ _)

theorem Acc.dropsDecodes_node (n f k i : Nat) (a : Acc) : a.DropsDecodes (Acc.node n f k i a).2 := by
  induction f generalizing k i a with
  | zero => exact .refl a
  | succ f ih =>
    have hheld := a.dropsDecodes_nodeHeld n k i
    rw [Acc.node]
    split
    next r b heq =>
      rw [heq] at hheld
      exact hheld
    next b heq =>
      rw [heq] at hheld
      dsimp only
      have hmiss : a.DropsDecodes (b.upd (fun d => (d.pmuSec (lineChan (b.dev.nodeLine n k i)) 0x44).pmuSec (lineChan (b.dev.nodeLine n k i)) 0x45)) :=
        hheld.upd (((Dev.KeepsTier.refl _).pmuSec _ _).pmuSec _ _)
      split
      · have hroot := hmiss.trans (Acc.dropsDecodes_rootRead _ n k i)
        split
        next pc c hc =>
          rw [hc] at hroot
          exact hroot.trans (Acc.dropsDecodes_nodeRead _ _ _ _ _)
        next c hc =>
          rw [hc] at hroot
          exact hroot
      · have hup := hmiss.trans (ih (k + 1) (i / 8) _)
        split
        next v c hc =>
          rw [hc] at hup
          exact hup.trans (Acc.dropsDecodes_nodeRead _ _ _ _ _)
        · exact hup

theorem Acc.dropsDecodes_walk (a : Acc) (n k i : Nat) : a.DropsDecodes (a.walk n k i).2 := Acc.dropsDecodes_node n 14 k i a

theorem Dev.keepsTier_setRoot (d : Dev) (n i v : Nat) : d.KeepsTier (d.setRoot n i v) := (Dev.KeepsTier.refl d).withSec _

theorem Acc.dropsDecodes_parentCtr (a : Acc) (n k i : Nat) (f : Nat → Nat) : a.DropsDecodes (a.parentCtr n k i f).2 := by
  unfold Acc.parentCtr
  split
  · have hroot := a.dropsDecodes_rootRead n k i
    split
    next c b heq =>
      rw [heq] at hroot
      exact hroot.upd (((Dev.keepsTier_setRoot _ _ _ _).trans (Dev.keepsTier_highWater _ _ _ _ _)).trans (Dev.keepsTier_ctrUsed _ _ _))
    next b heq =>
      rw [heq] at hroot
      exact hroot
  · have hwalk := a.dropsDecodes_walk n (k + 1) (i / 8)
    split
    next p b heq =>
      rw [heq] at hwalk
      exact hwalk.upd ((Dev.keepsTier_putNode _ _ _ _ _ _).trans (Dev.keepsTier_ctrUsed _ _ _))
    next r b hno heq =>
      rw [heq] at hwalk
      exact hwalk

theorem Acc.dropsDecodes_writeNode (a : Acc) (n k i v pc : Nat) : a.DropsDecodes (a.writeNode n k i v pc) := by
  unfold Acc.writeNode
  exact (a.dropsDecodes_wrMeta _ _ _).upd ((Dev.keepsTier_highWater _ _ _ _ _).trans (Dev.keepsTier_putNode _ _ _ _ _ _))

theorem Acc.dropsDecodes_writeBack (a : Acc) (l : Nat) : a.DropsDecodes (a.writeBack l) := by
  unfold Acc.writeBack
  split
  next c _ =>
    split
    · have hctr := a.dropsDecodes_parentCtr c.n c.level c.idx (· + 1)
      split
      next pc b heq =>
        rw [heq] at hctr
        exact hctr.trans (Acc.dropsDecodes_writeNode _ _ _ _ _ _)
      next b heq =>
        rw [heq] at hctr
        exact hctr
    · exact .refl a
  · exact .refl a

theorem Acc.dropsDecodes_evictNode (a : Acc) (l : Nat) : a.DropsDecodes (a.evictNode l) := by
  have hback := a.dropsDecodes_writeBack l
  unfold Acc.evictNode
  dsimp only
  split
  · exact .ite hback (hback.upd ((Dev.KeepsTier.refl _).withSec _))
  · exact hback

theorem Acc.dropsDecodes_trimNodes (n : Nat) (a : Acc) : a.DropsDecodes (Acc.trimNodes n a) := by
  induction n generalizing a with
  | zero => exact .refl a
  | succ n ih =>
    rw [Acc.trimNodes]
    split
    · exact .refl a
    · split
      · exact (a.dropsDecodes_evictNode _).trans (ih _)
      · exact .refl a

theorem Acc.dropsDecodes_fetch (a : Acc) (n k i : Nat) : a.DropsDecodes (a.fetch n k i).2 :=
  (a.dropsDecodes_walk n k i).trans (Acc.dropsDecodes_trimNodes 16 _)

/-! ### The caches of metadata lines (R168, R187, R204) -/

theorem Dev.keepsTier_putMeta (d : Dev) (kind l v : Nat) (dirty : Bool) : d.KeepsTier (d.putMeta kind l v dirty) := (Dev.KeepsTier.refl d).withSec _

theorem Acc.dropsDecodes_trimMeta (a : Acc) (kind keep : Nat) : a.DropsDecodes (a.trimMeta kind keep) := by
  unfold Acc.trimMeta
  dsimp only
  split
  · exact .refl a
  · split
    · exact .upd (.ite (Acc.dropsDecodes_wrMeta _ _ _ _) (.refl a)) ((Dev.KeepsTier.refl _).withSec _)
    · exact .refl a

theorem Acc.dropsDecodes_fillMeta (a : Acc) (kind l v : Nat) : a.DropsDecodes (a.fillMeta kind l v) :=
  (Acc.DropsDecodes.upd (.refl a) (Dev.keepsTier_putMeta _ _ _ _ _)).trans (Acc.dropsDecodes_trimMeta _ _ _)

theorem Acc.dropsDecodes_tagLost (a : Acc) (l : Nat) (inj : Bool) : a.DropsDecodes (a.tagLost l inj) :=
  ((a.dropsDecodes_wrMeta _ _ _).trans (Acc.dropsDecodes_fillMeta _ _ _ _)).upd ((Dev.KeepsTier.refl _).raise _)

theorem Acc.dropsDecodes_metaHeld (a : Acc) (s e l sevLost : Nat) : a.DropsDecodes (a.metaHeld s e l sevLost).2 := by
  have hbits := a.dev.keepsTier_sramBits s e
  unfold Acc.metaHeld
  split
  · dsimp only
    split
    · exact .refl a
    · split
      · exact .of_keeps (hbits.trans (Dev.keepsTier_sramFixed _ _ _))
      · split
        · exact .of_keeps (.ite (hbits.withSec _) ((hbits.withSec _).raise _))
        · exact .of_keeps ((hbits.withSec _).raise _)
  · exact .refl a

theorem Acc.dropsDecodes_tagLine (a : Acc) (l : Nat) : a.DropsDecodes (a.tagLine l).2 := by
  have hheld := a.dropsDecodes_metaHeld (src (18 + l % 6) 1) (placeOf (a.dev.sec.mlines.filter (fun e => e.2.kind == 0)) l) l 0
  unfold Acc.tagLine
  split
  next v b heq =>
    rw [heq] at hheld
    exact hheld
  next b heq =>
    rw [heq] at hheld
    exact hheld.trans (Acc.dropsDecodes_tagLost _ _ _)
  next b heq =>
    rw [heq] at hheld
    have hread : a.DropsDecodes ((b.upd (fun d => d.pmuSec (lineChan l) 0x43)).rdQueued l 3 none).2 :=
      (hheld.upd ((Dev.KeepsTier.refl _).pmuSec _ _)).trans (Acc.dropsDecodes_rdQueued _ _ _ _)
    dsimp only
    split
    next v c hc =>
      rw [hc] at hread
      exact hread.trans (Acc.dropsDecodes_fillMeta _ _ _ _)
    next r c hc =>
      rw [hc] at hread
      exact hread.trans (Acc.dropsDecodes_tagLost _ _ _)

theorem Acc.dropsDecodes_tagEntry (a : Acc) (n dl : Nat) : a.DropsDecodes (a.tagEntry n dl).2 := a.dropsDecodes_tagLine _

/-! ### Stored lines of cells (R164 to R166, R178) -/

theorem Acc.dropsDecodes_useKey (a : Acc) (n s : Nat) : a.DropsDecodes (a.useKey n s) := by
  have hbits := a.dev.keepsTier_sramBits (src 24 2) (2 * n + s)
  unfold Acc.useKey
  refine .ite (.of_keeps ?_) (.refl a)
  exact .ite hbits (.ite (hbits.trans (Dev.keepsTier_sramFixed _ _ _)) (hbits.trans (Dev.keepsTier_keyGone _ _)))

theorem Acc.dropsDecodes_cellMajor (a : Acc) (n pg : Nat) : a.DropsDecodes (a.cellMajor n pg).2 := by
  unfold Acc.cellMajor
  split
  · dsimp only
    have heven := a.dropsDecodes_fetch n 0 (a.dev.leafOf n (pg * 64))
    split
    next v b heq =>
      rw [heq] at heven
      have hodd := heven.trans (Acc.dropsDecodes_fetch b n 0 (a.dev.leafOf n (pg * 64) + 1))
      split
      next w c hc =>
        rw [hc] at hodd
        exact hodd
      next r c _ hc =>
        rw [hc] at hodd
        exact hodd
    next r b _ heq =>
      rw [heq] at heven
      exact heven
  · exact .refl a

theorem Acc.dropsDecodes_tagInjected (a : Acc) (dl : Nat) : a.DropsDecodes (a.tagInjected dl).2 := .upd (.refl a) ((Dev.KeepsTier.refl _).raise _)

theorem Acc.dropsDecodes_openCell (a : Acc) (n s pg idx v source : Nat) : a.DropsDecodes (a.openCell n s pg idx v source).2 := by
  have hkey : a.DropsDecodes ((a.useKey n s).upd (fun d => d.pmuSec (lineChan (pg * 64 + idx)) 0x40)) :=
    (a.dropsDecodes_useKey n s).upd ((Dev.KeepsTier.refl _).pmuSec _ _)
  have hmajor := hkey.trans (Acc.dropsDecodes_cellMajor _ n pg)
  unfold Acc.openCell
  dsimp only
  split
  · exact hkey
  · split
    next b heq =>
      rw [heq] at hmajor
      exact hmajor
    next r b _ heq =>
      rw [heq] at hmajor
      exact hmajor
    next m b heq =>
      rw [heq] at hmajor
      have htag : a.DropsDecodes (Acc.tagEntry { b with dev := (b.dev.tagInj (pg * 64 + idx)).2 } n (pg * 64 + idx)).2 :=
        (hmajor.trans (.of_keeps ((Dev.KeepsTier.refl b.dev).withFlt _))).trans (Acc.dropsDecodes_tagEntry _ _ _)
      split
      · exact hmajor
      · split
        · exact htag
        · split
          · exact htag.trans (.haltNow _ _ _ _ _ _)
          · split
            · exact htag.trans (.haltNow _ _ _ _ _ _)
            · split
              · exact htag.trans (Acc.dropsDecodes_tagInjected _ _)
              · exact htag

end Sys2Proof.Machine
end


section
/-! Tiered pages at work (08_compression_tiering.md R199 to R226): decodes end, and the migrator, the sweeps and the rebuild complete. -/

namespace Sys2Proof.Machine

/-! ### Page-map entries (R204, R224) -/

/-- e has the decodes of d under way. -/
def Dev.KeepsDecodes (d e : Dev) : Prop := e.tier.decoding = d.tier.decoding

namespace Dev.KeepsDecodes

variable {d e f : Dev}

theorem refl (d : Dev) : d.KeepsDecodes d := rfl

theorem trans (h : d.KeepsDecodes e) (g : e.KeepsDecodes f) : d.KeepsDecodes f := Eq.trans g h

theorem of_keepsTier (h : d.KeepsTier e) : d.KeepsDecodes e := congrArg TierS.decoding h

theorem withTier (h : d.KeepsDecodes e) {t : TierS} (ht : t.decoding = e.tier.decoding) : d.KeepsDecodes { e with tier := t } := ht.trans h

theorem ite {c : Prop} [Decidable c] (he : d.KeepsDecodes e) (hf : d.KeepsDecodes f) : d.KeepsDecodes (if c then e else f) := by
  split
  · exact he
  · exact hf

end Dev.KeepsDecodes

/-- A step of the device that keeps the decodes under way begins none. -/
theorem Acc.DropsDecodes.upd_of_keepsDecodes {a b : Acc} (h : a.DropsDecodes b) {f : Dev → Dev} (hf : b.dev.KeepsDecodes (f b.dev)) :
    a.DropsDecodes (b.upd f) := fun x hx => by
  rw [Acc.upd_dev, show _ = _ from hf] at hx
  exact h x hx

theorem Acc.dropsDecodes_pmapLine (a : Acc) (l : Nat) : a.DropsDecodes (a.pmapLine l).2 := by
  have hheld := a.dropsDecodes_metaHeld (src 30 4) (a.dev.pmapPlace l) l 2
  unfold Acc.pmapLine
  split
  next v b heq =>
    rw [heq] at hheld
    exact hheld
  next b heq =>
    rw [heq] at hheld
    have hread := hheld.trans (b.dropsDecodes_rdQueued l 4 none)
    split
    next v c hc =>
      rw [hc] at hread
      exact hread.trans (Acc.dropsDecodes_fillMeta _ _ _ _)
    next r c hc =>
      rw [hc] at hread
      exact hread

theorem Acc.dropsDecodes_pmapLost (a : Acc) (w pg : Nat) (inj : Bool) : a.DropsDecodes (a.pmapLost w pg inj) := by
  unfold Acc.pmapLost
  extract_lets l v first mine lost orphan
  refine Acc.DropsDecodes.trans (.upd_of_keepsDecodes (.refl a) ?_) (Acc.dropsDecodes_trimMeta _ _ _)
  extract_lets tier voided entered marked
  have hvoided : a.dev.KeepsDecodes voided := .withTier (.refl a.dev) rfl
  have hentered : voided.KeepsTier entered := Dev.KeepsTier.trans (Dev.drop_tier _ _ _) (Dev.keepsTier_putMeta _ _ _ _ _)
  have hmarked : voided.KeepsTier marked := (hentered.setFlag _ _).setFlag _ _
  exact hvoided.trans (.of_keepsTier ((hmarked.raise _).trans (Dev.keepsTier_recount _)))

theorem Acc.dropsDecodes_pent (a : Acc) (w pg : Nat) : a.DropsDecodes (a.pent w pg).2 := by
  have hmiss : a.DropsDecodes (if (tfind a.dev.sec.mlines (a.dev.pmapLoc w pg).1).isNone then a.upd (fun d => d.pmu (36 + hlcBank pg) 0x56 0 8 1) else a) :=
    .ite (.upd (.refl a) ((Dev.KeepsTier.refl _).pmu _ _ _ _ _)) (.refl a)
  have hline := hmiss.trans (Acc.dropsDecodes_pmapLine _ (a.dev.pmapLoc w pg).1)
  unfold Acc.pent
  dsimp only
  split
  next v b heq =>
    rw [heq] at hline
    split
    · exact hline
    · exact hline.trans (Acc.dropsDecodes_pmapLost _ _ _ _)
  next b heq =>
    rw [heq] at hline
    exact hline.trans (Acc.dropsDecodes_pmapLost _ _ _ _)

/-! ### Cells (R201, R202) -/

/-- Steps that each begin no decode begin none together. -/
theorem Acc.dropsDecodes_foldl {α R : Type} {g : R × Acc → α → R × Acc} (hg : ∀ (r : R × Acc) (x : α), r.2.DropsDecodes (g r x).2) (l : List α) (r : R × Acc) :
    r.2.DropsDecodes (l.foldl g r).2 := by
  induction l generalizing r with
  | nil => exact .refl r.2
  | cons x l ih => exact (hg r x).trans (ih (g r x))

theorem Acc.dropsDecodes_cellLines (a : Acc) (w pg e : Nat) (js : List Nat) (queued : Bool) (source : Nat) :
    a.DropsDecodes (a.cellLines w pg e js queued source).2 := by
  unfold Acc.cellLines
  refine Acc.dropsDecodes_foldl (fun r j => ?_) js (CellRes.lines [], a)
  dsimp only
  split
  · have hread := (Acc.DropsDecodes.ite (p := queued = true) (.refl r.2) (r.2.dropsDecodes_access (r.2.dev.cellLine e j) 1 none)).trans
      (Acc.dropsDecodes_rdStored _ (r.2.dev.cellLine e j) 1 (some (pg * 4096 + j * 64)))
    split
    next p b heq =>
      rw [heq] at hread
      exact hread
    next v b heq =>
      rw [heq] at hread
      have hopen := hread.trans (b.dropsDecodes_openCell (a.dev.winKr w) (b.dev.slotFor (a.dev.winKr w) (pg * 4096)) pg j v source)
      split
      next c hc =>
        rw [hc] at hopen
        exact hopen
      next c hc =>
        rw [hc] at hopen
        exact hopen
      next c hc =>
        rw [hc] at hopen
        exact hopen
  · exact .refl r.2

theorem Dev.keepsTier_malformed (d : Dev) (pg i : Nat) : d.KeepsTier (d.malformed pg i) := ((Dev.KeepsTier.refl d).setFlag _ _).raise _

theorem Acc.dropsDecodes_farSub (a : Acc) (w pg e i : Nat) (queued : Bool) (source : Nat) : a.DropsDecodes (a.farSub w pg e i queued source).2 := by
  unfold Acc.farSub
  split
  · refine Acc.dropsDecodes_foldl (fun r j => ?_) (List.range 16) (some [], a)
    have hline := r.2.dropsDecodes_cellLines w pg e [16 * i + j] queued source
    split
    · split
      next l b heq =>
        rw [heq] at hline
        exact hline
      next p b heq =>
        rw [heq] at hline
        exact hline
      next b heq =>
        rw [heq] at hline
        exact hline
    · exact .refl r.2
  · have hlines := a.dropsDecodes_cellLines w pg e (subRange (peCls e) (peSb e) i) queued source
    split
    next b heq =>
      rw [heq] at hlines
      exact hlines
    next p b heq =>
      rw [heq] at hlines
      exact hlines
    next l b heq =>
      rw [heq] at hlines
      split
      · exact hlines.upd ((Dev.KeepsTier.refl _).pmu _ _ _ _ _)
      · exact hlines.upd (Dev.keepsTier_malformed _ _ _)

theorem Acc.dropsDecodes_newestSub (a : Acc) (w pg e i source : Nat) : a.DropsDecodes (a.newestSub w pg e i source).2 := by
  unfold Acc.newestSub
  extract_lets h full
  split
  · have hfar := a.dropsDecodes_farSub w pg e i false source
    split
    next l b heq =>
      rw [heq] at hfar
      exact hfar
    next b heq =>
      rw [heq] at hfar
      exact hfar
  · exact .refl a

/-! ### The end of a decode (R202, R208) -/

theorem Dev.keepsDecodes_hlcPut (d : Dev) (x : Nat) (e : HEnt) : d.KeepsDecodes (d.hlcPut x e) := by
  unfold Dev.hlcPut
  split
  · exact .withTier (.refl d) rfl
  · exact .withTier (.refl d) rfl

theorem Dev.keepsDecodes_hlcAlloc (d : Dev) (cls : Nat) (e : HEnt) : d.KeepsDecodes ((d.hlcAlloc cls e).getD d) := by
  unfold Dev.hlcAlloc
  extract_lets key al way v dirty src queued p src'
  split
  · exact .refl d
  · have hqueued : d.KeepsDecodes queued := by
      clear_value dirty v
      cases v with
      | none => exact .refl d
      | some o =>
        have hjoined : d.KeepsDecodes ({ d with tier := { d.tier with reQ := d.tier.reQ ++ [o] } } : Dev) := .withTier (.refl d) rfl
        have hcounted := hjoined.trans (.of_keepsTier ((Dev.KeepsTier.refl _).pmu 40 0x5A (hlcBank (e.x / 4)) 8 1))
        exact .ite hcounted (.refl d)
    exact .withTier hqueued rfl

theorem Dev.keepsDecodes_decodeFill (d : Dev) (x cls : Nat) (lines : List LineData) : d.KeepsDecodes (d.decodeFill x cls lines) := by
  unfold Dev.decodeFill
  split
  · exact d.keepsDecodes_hlcPut _ _
  · exact d.keepsDecodes_hlcAlloc _ _

theorem Dev.keepsTier_endDecode (d : Dev) (x : Nat) (data : Nat → PLine) : d.KeepsTier (d.endDecode x data) :=
  .foldl (fun e t => e.keepsTier_endRead t _ true) (.refl d) _

theorem Dev.keepsDecodes_decoded (d : Dev) (x cls : Nat) (l : List PLine) : d.KeepsDecodes (d.decoded x cls l) := by
  unfold Dev.decoded
  exact .trans (.ite (d.keepsDecodes_decodeFill _ _ _) (.refl d)) (.of_keepsTier (Dev.keepsTier_endDecode _ _ _))

/-- Sub-block x is no longer under way. -/
def Dev.notDecoding (d : Dev) (x : Nat) : Dev := { d with tier := { d.tier with decoding := d.tier.decoding.filter (· != x) } }

/-- Reading a sub-block that ends begins no decode. -/
theorem Acc.dropsDecodes_decodeDone (a : Acc) (x : Nat) : (a.upd (fun d => d.notDecoding x)).DropsDecodes (a.decodeDone x .none) := by
  unfold Acc.decodeDone
  extract_lets pg b t q source bad
  split
  · exact .refl _
  next w hw =>
    extract_lets r e c n
    have hent : b.DropsDecodes c := Acc.dropsDecodes_pent _ _ _
    split
    · have hsub := hent.trans (c.dropsDecodes_newestSub w pg e (x % 4) source)
      split
      next l f heq =>
        rw [heq] at hsub
        exact hsub.upd (Dev.keepsTier_endDecode _ _ _)
      next f heq =>
        rw [heq] at hsub
        exact hsub
    · have hsub := hent.trans (c.dropsDecodes_farSub w pg e (x % 4) true source)
      dsimp only
      split
      next l f heq =>
        rw [heq] at hsub
        exact hsub.upd_of_keepsDecodes (Dev.keepsDecodes_decoded _ _ _ _)
      next f heq =>
        rw [heq] at hsub
        exact hsub

/-- A decode that ends is under way no longer. -/
theorem Acc.decoding_decodeDone (a : Acc) (x : Nat) : (a.decodeDone x .none).dev.tier.decoding.contains x = false := by
  have hgone : x ∉ (a.upd (fun d => d.notDecoding x)).dev.tier.decoding := by
    rw [Acc.upd_dev, Dev.notDecoding]
    simp
  exact Bool.eq_false_iff.2 (fun h => hgone (a.dropsDecodes_decodeDone x x (List.contains_iff_mem.1 h)))

/-! ### Page transactions (R85, R210) -/

/-- A page that its slice can take up is worked on, and the requests that waited for room are tried again. -/
theorem Acc.pageTx_of_ready {a : Acc} {pg w : Nat} (f : Nat → Acc → Acc) (h : a.PageReady pg w) : a.pageTx pg f = (f w a).retryTier := by
  obtain ⟨hwin, htiered, husable, hquiet, hrebuild, hfault, hcheck⟩ := h
  unfold Acc.pageTx
  rw [hwin]
  dsimp only
  rw [Acc.when_of_true _ _ _ (by rw [htiered, husable, hquiet, hrebuild, hfault]; rfl), Acc.underKr_of_ok _ hcheck]

/-! ### The rebuild of the pool's counters (R226) -/

/-- The tiering state once the frame table has been read: its BUSY frames are SUSPECT. -/
def TierS.rebuilt (t : TierS) : TierS :=
  { t with rebuild := false, frames := t.frames.map (fun (e : Nat × (Nat × Nat)) => if e.2.1 = 3 then (e.1, (4, e.2.2)) else e) }

theorem TierS.no_busy_rebuilt (t : TierS) : ∀ e ∈ t.rebuilt.frames, e.2.1 ≠ 3 := by
  intro e he
  obtain ⟨x, -, rfl⟩ := List.mem_map.1 he
  split
  · exact (by decide : 4 ≠ 3)
  · assumption

theorem Acc.poolRebuild_tier (a : Acc) : ∃ t : TierS, a.poolRebuild.dev.tier = t.rebuilt := by
  unfold Acc.poolRebuild
  extract_lets b
  refine ⟨b.dev.tier, ?_⟩
  change Dev.KeepsTier { b.dev with tier := b.dev.tier.rebuilt } (b.upd _).dev
  rw [Acc.upd_dev]
  extract_lets old busy tier d
  exact .trans (.ite ((Dev.KeepsTier.refl d).setFlag _ _) (.refl d)) (Dev.keepsTier_recount _)

/-- The rebuild is over, and no frame is left BUSY. -/
theorem Acc.poolRebuild_ends (a : Acc) : a.poolRebuild.dev.tier.rebuild = false ∧ ∀ e ∈ a.poolRebuild.dev.tier.frames, e.2.1 ≠ 3 := by
  obtain ⟨t, ht⟩ := a.poolRebuild_tier
  rw [ht]
  exact ⟨rfl, t.no_busy_rebuilt⟩

/-- Settles O19: clause by clause, from the rules above. -/
theorem tieringCommandsComplete : Obligations.TieringCommandsComplete := by
  unfold Obligations.TieringCommandsComplete
  refine ⟨?_, ?_, ?_, ?_, ?_, ?_, ?_, ?_, ?_, ?_⟩
  · intro s x hx
    refine ⟨?_, s.acc.decoding_decodeDone x.toNat⟩
    change execSubBlockDecodeDone x .none s = _
    exact runAcc_when_of_true hx
  · intro s bank e w he henc hready hexh
    change execPageReencode bank s = _
    unfold execPageReencode
    rw [runAcc_eq, show s.acc.dev = s.dev from rfl, he]
    dsimp only
    rw [Acc.when_of_true _ _ _ henc, Acc.pageTx_of_ready _ hready, show s.acc.dev = s.dev from rfl, hexh, if_neg Bool.false_ne_true]
  · intro s pg w hq hen hbasic hlevel hready
    change execPromote pg s = _
    unfold execPromote
    rw [runAcc_when_of_true (by rw [show s.acc.dev = s.dev from rfl, hq, hen, hbasic, hlevel]; rfl), Acc.pageTx_of_ready _ hready]
  · intro s pg w hen hready hdem
    change execDemote pg s = _
    unfold execDemote
    rw [runAcc_when_of_true hen, Acc.pageTx_of_ready _ hready, Acc.when_of_true _ _ _ hdem]
  · intro s pg w hc hready
    change execCompact pg s = _
    unfold execCompact
    rw [runAcc_when_of_true hc, Acc.pageTx_of_ready _ hready]
  · intro s pg w hen hscan hbasic hready
    change execScannerVisit pg s = _
    unfold execScannerVisit
    rw [runAcc_when_of_true (by rw [show s.acc.dev = s.dev from rfl, hen, hbasic, bne_iff_ne.2 hscan]; rfl), Acc.pageTx_of_ready _ hready]
  · intro s pg w hlevel hready
    change execReserveReturn pg s = _
    unfold execReserveReturn
    rw [runAcc_when_of_true (by rw [show s.acc.dev = s.dev from rfl, hlevel]; rfl), Acc.pageTx_of_ready _ hready]
  · intro s pg w r hen hbasic hrank hnext hready
    change execDiscardSweeperDrop pg s = _
    unfold execDiscardSweeperDrop
    rw [runAcc_when_of_true (by rw [show s.acc.dev = s.dev from rfl, hen, hbasic]; rfl), hrank]
    dsimp only
    rw [if_pos hnext, Acc.pageTx_of_ready _ hready]
  · intro s hs
    change execOrphanSweep s = _
    exact runAcc_when_of_true hs
  · intro s hs
    refine ⟨?_, s.acc.poolRebuild_ends⟩
    change execPoolCounterRebuild s = _
    exact runAcc_when_of_true hs

end Sys2Proof.Machine
end
